-- ==== Sys2Proof/Word.lean ====
section
/-! DEFINITION. The word types of the device and their plainest arithmetic: a register is 64 bits (R12), a memory byte
is 8 bits, a bundle is 256 bits (R88), and multi-byte values are little-endian (R7). -/
namespace Sys2Proof

/-- One byte of memory. -/
abbrev Byte := BitVec 8

/-- One register, 64 bits wide (R12). -/
abbrev Word := BitVec 64

/-- One 128-bit tile, window or loop register (R93). -/
abbrev Quad := BitVec 128

/-- One instruction bundle, 256 bits (R88). -/
abbrev BundleWord := BitVec 256

end Sys2Proof
end

