-- ==== Sys2Proof/Bundle.lean ====
section
/-! DEFINITION. The slot operations of a bundle as typed syntax (R88, R128 to R175): one constructor per operation or
per group of operations that share a format, each operand with the width the format gives it. A slot holds `none`
where its encoding is one that the instruction reference leaves undefined (R89, R128). -/
namespace Sys2Proof

/-- The two-register scalar operations of the RR format (R140). -/
inductive Alu where
  | add | sub | and | or | xor | shl | shr | sra | mul | min | max | minu | maxu
  deriving DecidableEq, Repr

/-- The register and 12-bit immediate operations of the RI format (R140). -/
inductive AluI where
  | addi | andi | ori | xori
  deriving DecidableEq, Repr

/-- The immediate shifts of the RS format (R140). -/
inductive ShiftI where
  | shli | shri | srai
  deriving DecidableEq, Repr

/-- The CTL slot operations (R139, R140). -/
inductive CtlOp where
  | nop
  | rr (k : Alu) (d a b : BitVec 5)
  | ri (k : AluI) (d a : BitVec 5) (imm : BitVec 12)
  | rs (k : ShiftI) (d a : BitVec 5) (sh : BitVec 6)
  | li (d : BitVec 5) (imm : BitVec 17)
  | lis (d : BitVec 5) (imm : BitVec 16)
  | cmp (pd cond : BitVec 3) (a b : BitVec 5)
  | cmpi (pd cond : BitVec 3) (a : BitVec 5) (imm : BitVec 8)
  | cmpf (pd cond : BitVec 3) (a b : BitVec 5)
  | plog (pd : BitVec 3) (op : BitVec 2) (pa : BitVec 3) (ia : Bool) (pb : BitVec 3) (ib : Bool)
  | mov (dk : BitVec 3) (dn : BitVec 5) (sk : BitVec 3) (sn : BitVec 5)
  | rdsr (d : BitVec 5) (sr : BitVec 8)
  | br (cp : BitVec 4) (target : BitVec 13)
  | call (cp : BitVec 4) (target : BitVec 13)
  | jr (cp : BitVec 4) (a : BitVec 5)
  | bskip (cp : BitVec 4) (target : BitVec 13)
  | loop (lk : BitVec 3) (stop : BitVec 13) (sc : BitVec 5)
  | loopi (lk : BitVec 3) (stop : BitVec 13) (cnt : BitVec 6)
  | idle (n1 : BitVec 16)
  | yield
  | halt
  | commit
  deriving DecidableEq, Repr

/-- The AGU loads (R148). -/
inductive LoadKind where
  | b8 | b16 | b32 | b64 | qs | qw | qt | ql
  deriving DecidableEq, Repr

/-- The AGU stores (R148). -/
inductive StoreKind where
  | b8 | b16 | b32 | b64 | qs
  deriving DecidableEq, Repr

/-- The AGU slot operations: register field, address register, modifier register, window register (R148). -/
inductive AguOp where
  | nop
  | amod (a m w : BitVec 4)
  | load (k : LoadKind) (r : BitVec 5) (a m w : BitVec 4)
  | store (k : StoreKind) (r : BitVec 5) (a m w : BitVec 4)
  deriving DecidableEq, Repr

/-- The BCST slot operations (R150). -/
inductive BcstOp where
  | nop
  | bopen (mask : BitVec 8) (a m w : BitVec 4)
  | bscale (mask : BitVec 8) (a m w : BitVec 4)
  | bclose (mask : BitVec 8)
  deriving DecidableEq, Repr

/-- The STRM slot operations (R150). -/
inductive StrmOp where
  | nop
  | sopen (mask : BitVec 8) (a m w : BitVec 4)
  | sscale (mask : BitVec 8) (a m w : BitVec 4)
  | sclose (mask : BitVec 8)
  | wopen (t : BitVec 3) (a m : BitVec 4)
  | wclose
  | ldbias (mask : BitVec 8) (a m w : BitVec 4)
  deriving DecidableEq, Repr

/-- The MAC slot operations (R156). -/
inductive MacOp where
  | nop
  | mma (t : BitVec 3)
  | mmak (t : BitVec 3) (sk : BitVec 5)
  | formsw (wide : Bool)
  deriving DecidableEq, Repr

/-- The VEC slot operations (R158). -/
inductive VecOp where
  | nop
  | vpost (t : BitVec 3) (sc : BitVec 2) (ss : BitVec 5) (bias : Bool) (act dfmt : BitVec 4) (st : Bool)
      (a m w : BitVec 4)
  | vnorm (t : BitVec 3) (blk st : Bool) (a m w : BitVec 4)
  | vbfp (t : BitVec 3) (blk : Bool) (wc : BitVec 2) (st : Bool) (a m w : BitVec 4)
  | vmaxe (t : BitVec 3) (blk st : Bool) (a m w : BitVec 4)
  | vred (t pd : BitVec 3) (kind : BitVec 4) (ss : BitVec 5)
  deriving DecidableEq, Repr

/-- The operands of the D format of the XFER slot (R169). -/
structure DForm where
  a : BitVec 4
  b : BitVec 4
  m : BitVec 4
  w : BitVec 4
  ss : BitVec 5
  st : BitVec 5
  tok : Bool
  c : BitVec 4
  deriving DecidableEq, Repr

/-- The XFER slot operations (R169). -/
inductive XferOp where
  | nop
  | dma (f : DForm)
  | signal (st : BitVec 5)
  | wait (n : BitVec 6)
  | ttest (pd : BitVec 3) (n : BitVec 6)
  | rld (a : BitVec 4) (d : BitVec 5) (sz : BitVec 2)
  | rst (a : BitVec 4) (d : BitVec 5) (sz : BitVec 2)
  | rat (a : BitVec 4) (d b c : BitVec 5) (kind : BitVec 4) (res : Bool)
  | put (f : DForm)
  | get (f : DForm)
  | fwait (d : BitVec 5)
  | gather (f : DForm)
  | compact (f : DForm)
  | route (f : DForm)
  | engjob (a : BitVec 4) (st : BitVec 5) (q : BitVec 6)
  deriving DecidableEq, Repr

/-- One bundle: the predicate field and one operation per slot, `none` for an undefined encoding (R88, R89). -/
structure Bundle where
  pred : BitVec 4 := 0
  ctl : Option CtlOp := some .nop
  agu0 : Option AguOp := some .nop
  agu1 : Option AguOp := some .nop
  bcst : Option BcstOp := some .nop
  strm : Option StrmOp := some .nop
  mac : Option MacOp := some .nop
  vec : Option VecOp := some .nop
  xfer : Option XferOp := some .nop
  deriving DecidableEq, Repr

/-- The unit whose sequencer issues: cluster `8 × die + local` of a Dahlia die, or DSP core `48 × Iris number + core`
(R79, R121, R127). -/
inductive SeqUnit where
  | cluster (n : Nat)
  | iris (n : Nat)
  deriving DecidableEq, Repr

/-- The key of a unit's record: clusters 0 to 127, then the Iris cores from 128. -/
def SeqUnit.key : SeqUnit → Nat
  | .cluster n => n
  | .iris n => 128 + n

/-- Whether the unit is an Iris DSP core, which runs the signal profile (R121). -/
def SeqUnit.isIris : SeqUnit → Bool
  | .cluster _ => false
  | .iris _ => true

/-- A bundle with one slot operation put in its slot. -/
def Bundle.withCtl (w : Bundle) (op : CtlOp) : Bundle := { w with ctl := some op }
/-- A bundle with an AGU operation in AGU0, or in AGU1 when `hi`. -/
def Bundle.withAgu (w : Bundle) (hi : Bool) (op : AguOp) : Bundle :=
  if hi then { w with agu1 := some op } else { w with agu0 := some op }
/-- A bundle with its BCST operation. -/
def Bundle.withBcst (w : Bundle) (op : BcstOp) : Bundle := { w with bcst := some op }
/-- A bundle with its STRM operation. -/
def Bundle.withStrm (w : Bundle) (op : StrmOp) : Bundle := { w with strm := some op }
/-- A bundle with its MAC operation. -/
def Bundle.withMac (w : Bundle) (op : MacOp) : Bundle := { w with mac := some op }
/-- A bundle with its VEC operation. -/
def Bundle.withVec (w : Bundle) (op : VecOp) : Bundle := { w with vec := some op }
/-- A bundle with its XFER operation. -/
def Bundle.withXfer (w : Bundle) (op : XferOp) : Bundle := { w with xfer := some op }

end Sys2Proof
end

