-- ==== Sys2Proof/Traffic.lean ====
section
/-! DEFINITION. The operand types of the commands: who issues an access, and what a mesh, fabric or fronthaul transfer
carries. -/
namespace Sys2Proof

/-- Who issues an access or a register write (R24, R258, R498): a control core, a PCIe function (0 the physical
function, n the virtual function of partition n), Foxglove, debug access, a fabric node's inbound traffic, a sequencer,
a tier-DMA engine, a Crocus die, the lock-step unit, the digest engine or a Primrose DMA engine. -/
inductive Master where
  | core (n : Nat)
  | fn (n : Nat)
  | foxglove
  | debug (perm : Nat)
  | fabric (node partition : Nat)
  | unit (u : SeqUnit)
  | tier (e : Nat)
  | crocus (c : Nat)
  | lockstep
  | digest
  | dma (partition : Nat)
  deriving DecidableEq, Repr

/-- A transfer over the package mesh (R28, R29): the master, the traffic class, the source die, the node offset, what it
writes or how much it reads, and how many hops needed a second retry (R27). -/
structure MeshXfer where
  m : Master
  radio : Bool
  src : Nat
  off : Nat
  write : Bool
  data : List Byte
  len : Nat
  retries : Nat
  deriving DecidableEq, Repr


/-- The kinds of fabric request (R398, R399, R418, R420): a load, a store, an atomic, a packet of a block put or get, a
mirror or resync copy, and a release notice. -/
inductive FabKind where
  | rld | rst | rat | put | get | copy | release
  deriving DecidableEq, Repr

/-- One attempt of a fabric request (R401, R403): its tag, the original issue stamp, the send instant of the attempt, both
in nanoseconds of TB2, the target's incarnation, and what it asks for. `pkt` is the packet's number in a block operation;
`seq` and `resync` belong to a mirror copy (R418, R419). -/
structure FabReq where
  tag : Nat
  stamp : Int
  sent : Int
  incarn : Nat
  kind : FabKind
  off : Nat
  size : Nat
  data : List (BitVec 8)
  operand : Nat
  cmp : Nat
  akind : Nat
  pkt : Nat
  seq : Nat
  resync : Bool
  deriving DecidableEq, Repr

/-- An answer to an attempt (R398, R404, R410): the tag and stamp of its request and its packet, the status or FULL, the
hint of a BUSY_HOT answer, the value and the data. -/
structure FabReply where
  tag : Nat
  stamp : Int
  pkt : Nat
  status : Nat
  full : Bool
  hint : Nat
  value : Nat
  data : List (BitVec 8)
  deriving DecidableEq, Repr

/-- What a link carries (R424). -/
inductive FabMsg where
  | req (r : FabReq)
  | rep (r : FabReply)
  deriving DecidableEq, Repr

/-- A section of a received 7.2x U-plane message (R341 to R343), read from the wire in the order that the O-RAN
specification fixes: its frame, subframe, slot and symbol numbers, its first PRB, its compression method and iqWidth, and
for each PRB the exponent and the 24 parts. -/
structure USection where
  frameId : Nat
  subframe : Nat
  slot : Nat
  symbol : Nat
  startPrb : Nat
  meth : Nat
  width : Nat
  prbs : List (Nat × List Int)
  deriving DecidableEq, Repr

/-- An eCPRI message of a received frame (R339, R341, R349): its type, PC_ID and seqId, whether it uses an unsupported
feature, the sections of a U-plane message, and the bytes of any other after its seqId. -/
structure EcpriMsg where
  type : Nat
  pcId : Nat
  seqId : Nat
  bad : Bool
  secs : List USection
  raw : List (BitVec 8)
  deriving DecidableEq, Repr

/-- A frame received at a fronthaul port (R336, R339, R368, R373): the port's lane, its bytes from the destination address
to the FCS, its VLAN ID and PCP if it is tagged, its ethertype, its eCPRI messages (several under concatenation) or, for
any other frame, its bytes. -/
structure RxFrame where
  lane : Nat
  len : Nat
  tag : Option (Nat × Nat)
  ethertype : Nat
  msgs : List EcpriMsg
  raw : List (BitVec 8)
  deriving DecidableEq, Repr

/-- The path by which a debug command comes (R547): the test access port, or a write of PRM_DBG_CMD by a master. -/
inductive DbgPath where
  | tap
  | host (m : Master)
  deriving DecidableEq, Repr

/-- The causes of a tamper event (R507, R511). -/
inductive TamperCause where
  | glitch | temperature | debug
  deriving DecidableEq, Repr

end Sys2Proof
end

