-- ==== Sys2Proof/Syntax.lean ====
section
/-! DEFINITION. The commands of the block: one constructor of `Instr` per row of the command table. -/
namespace Sys2Proof

/-- The commands of the block: one constructor per row of the command table, with the row's operands. A command that
issues a slot operation names the unit, the operation's operands and the rest `w` of the bundle it issues in. -/
inductive Instr where
  | registerWrite (m : Master) (off width : Nat) (v : BitVec 64)
  | meshTransfer (x : MeshXfer)
  | spareRetire (m : Master) (die lc : Nat) (v : BitVec 64)
  | nop (u : SeqUnit) (b : Bundle)
  | execPastCodeEnd (u : SeqUnit)
  | faultDrainComplete (step : Nat)
  | memoryErrorDetected (u : SeqUnit) (off : Nat)
  | resultVisible (u : SeqUnit)
  | contextResume (u : SeqUnit)
  | remoteReplyArrival (u : SeqUnit) (k dt : Nat)
  | tokenArrival (k dt : Nat)
  | unscheduledBankWin (u : SeqUnit) (mcls bank : Nat) (wr : Bool)
  | add (u : SeqUnit) (d a b : BitVec 5) (w : Bundle)
  | sub (u : SeqUnit) (d a b : BitVec 5) (w : Bundle)
  | andOp (u : SeqUnit) (d a b : BitVec 5) (w : Bundle)
  | orOp (u : SeqUnit) (d a b : BitVec 5) (w : Bundle)
  | xorOp (u : SeqUnit) (d a b : BitVec 5) (w : Bundle)
  | shl (u : SeqUnit) (d a b : BitVec 5) (w : Bundle)
  | shr (u : SeqUnit) (d a b : BitVec 5) (w : Bundle)
  | sra (u : SeqUnit) (d a b : BitVec 5) (w : Bundle)
  | mul (u : SeqUnit) (d a b : BitVec 5) (w : Bundle)
  | min (u : SeqUnit) (d a b : BitVec 5) (w : Bundle)
  | max (u : SeqUnit) (d a b : BitVec 5) (w : Bundle)
  | minu (u : SeqUnit) (d a b : BitVec 5) (w : Bundle)
  | maxu (u : SeqUnit) (d a b : BitVec 5) (w : Bundle)
  | addi (u : SeqUnit) (d a : BitVec 5) (imm : BitVec 12) (w : Bundle)
  | andi (u : SeqUnit) (d a : BitVec 5) (imm : BitVec 12) (w : Bundle)
  | ori (u : SeqUnit) (d a : BitVec 5) (imm : BitVec 12) (w : Bundle)
  | xori (u : SeqUnit) (d a : BitVec 5) (imm : BitVec 12) (w : Bundle)
  | shli (u : SeqUnit) (d a : BitVec 5) (sh : BitVec 6) (w : Bundle)
  | shri (u : SeqUnit) (d a : BitVec 5) (sh : BitVec 6) (w : Bundle)
  | srai (u : SeqUnit) (d a : BitVec 5) (sh : BitVec 6) (w : Bundle)
  | li (u : SeqUnit) (d : BitVec 5) (imm : BitVec 17) (w : Bundle)
  | lis (u : SeqUnit) (d : BitVec 5) (imm : BitVec 16) (w : Bundle)
  | cmp (u : SeqUnit) (pd cond : BitVec 3) (a b : BitVec 5) (w : Bundle)
  | cmpi (u : SeqUnit) (pd cond : BitVec 3) (a : BitVec 5) (imm : BitVec 8) (w : Bundle)
  | cmpf (u : SeqUnit) (pd cond : BitVec 3) (a b : BitVec 5) (w : Bundle)
  | plog (u : SeqUnit) (pd : BitVec 3) (op : BitVec 2) (pa : BitVec 3) (ia : Bool) (pb : BitVec 3) (ib : Bool) (w : Bundle)
  | mov (u : SeqUnit) (dk : BitVec 3) (dn : BitVec 5) (sk : BitVec 3) (sn : BitVec 5) (w : Bundle)
  | rdsr (u : SeqUnit) (d : BitVec 5) (sr : BitVec 8) (w : Bundle)
  | br (u : SeqUnit) (cp : BitVec 4) (target : BitVec 13) (w : Bundle)
  | call (u : SeqUnit) (cp : BitVec 4) (target : BitVec 13) (w : Bundle)
  | jr (u : SeqUnit) (cp : BitVec 4) (a : BitVec 5) (w : Bundle)
  | bskip (u : SeqUnit) (cp : BitVec 4) (target : BitVec 13) (w : Bundle)
  | loop (u : SeqUnit) (lk : BitVec 3) (stop : BitVec 13) (sc : BitVec 5) (w : Bundle)
  | loopi (u : SeqUnit) (lk : BitVec 3) (stop : BitVec 13) (cnt : BitVec 6) (w : Bundle)
  | idle (u : SeqUnit) (n1 : BitVec 16) (w : Bundle)
  | yield (u : SeqUnit) (w : Bundle)
  | halt (u : SeqUnit) (w : Bundle)
  | commit (u : SeqUnit) (mis : Bool) (w : Bundle)
  | amod (u : SeqUnit) (hi : Bool) (a m ww : BitVec 4) (w : Bundle)
  | ld8 (u : SeqUnit) (hi : Bool) (r : BitVec 5) (a m ww : BitVec 4) (w : Bundle)
  | ld16 (u : SeqUnit) (hi : Bool) (r : BitVec 5) (a m ww : BitVec 4) (w : Bundle)
  | ld32 (u : SeqUnit) (hi : Bool) (r : BitVec 5) (a m ww : BitVec 4) (w : Bundle)
  | ld64 (u : SeqUnit) (hi : Bool) (r : BitVec 5) (a m ww : BitVec 4) (w : Bundle)
  | ldqs (u : SeqUnit) (hi : Bool) (r : BitVec 5) (a m ww : BitVec 4) (w : Bundle)
  | ldqw (u : SeqUnit) (hi : Bool) (r : BitVec 5) (a m ww : BitVec 4) (w : Bundle)
  | ldqt (u : SeqUnit) (hi : Bool) (r : BitVec 5) (a m ww : BitVec 4) (w : Bundle)
  | ldql (u : SeqUnit) (hi : Bool) (r : BitVec 5) (a m ww : BitVec 4) (w : Bundle)
  | st8 (u : SeqUnit) (hi : Bool) (r : BitVec 5) (a m ww : BitVec 4) (w : Bundle)
  | st16 (u : SeqUnit) (hi : Bool) (r : BitVec 5) (a m ww : BitVec 4) (w : Bundle)
  | st32 (u : SeqUnit) (hi : Bool) (r : BitVec 5) (a m ww : BitVec 4) (w : Bundle)
  | st64 (u : SeqUnit) (hi : Bool) (r : BitVec 5) (a m ww : BitVec 4) (w : Bundle)
  | stqs (u : SeqUnit) (hi : Bool) (r : BitVec 5) (a m ww : BitVec 4) (w : Bundle)
  | bopen (u : SeqUnit) (mask : BitVec 8) (a m ww : BitVec 4) (w : Bundle)
  | bscale (u : SeqUnit) (mask : BitVec 8) (a m ww : BitVec 4) (w : Bundle)
  | bclose (u : SeqUnit) (mask : BitVec 8) (w : Bundle)
  | sopen (u : SeqUnit) (mask : BitVec 8) (a m ww : BitVec 4) (w : Bundle)
  | sscale (u : SeqUnit) (mask : BitVec 8) (a m ww : BitVec 4) (w : Bundle)
  | sclose (u : SeqUnit) (mask : BitVec 8) (w : Bundle)
  | wopen (u : SeqUnit) (t : BitVec 3) (a m : BitVec 4) (w : Bundle)
  | wclose (u : SeqUnit) (w : Bundle)
  | ldbias (u : SeqUnit) (mask : BitVec 8) (a m ww : BitVec 4) (w : Bundle)
  | weightStreamFirstStaging (u : SeqUnit)
  | weightStreamHalfRefill (u : SeqUnit) (extra : Nat)
  | mma (u : SeqUnit) (t : BitVec 3) (w : Bundle)
  | mmak (u : SeqUnit) (t : BitVec 3) (sk : BitVec 5) (w : Bundle)
  | formsw (u : SeqUnit) (wide : Bool) (w : Bundle)
  | macAccumReady (u : SeqUnit)
  | vpost (u : SeqUnit) (t : BitVec 3) (sc : BitVec 2) (ss : BitVec 5) (bias : Bool) (act dfmt : BitVec 4) (st : Bool) (a m ww : BitVec 4) (w : Bundle)
  | vnorm (u : SeqUnit) (t : BitVec 3) (blk st : Bool) (a m ww : BitVec 4) (w : Bundle)
  | vbfp (u : SeqUnit) (t : BitVec 3) (blk : Bool) (wc : BitVec 2) (st : Bool) (a m ww : BitVec 4) (w : Bundle)
  | vmaxe (u : SeqUnit) (t : BitVec 3) (blk st : Bool) (a m ww : BitVec 4) (w : Bundle)
  | vred (u : SeqUnit) (t pd : BitVec 3) (kind : BitVec 4) (ss : BitVec 5) (w : Bundle)
  | dma (u : SeqUnit) (f : DForm) (w : Bundle)
  | dmaComplete (u : SeqUnit) (k dt : Nat)
  | signal (u : SeqUnit) (st : BitVec 5) (w : Bundle)
  | wait (u : SeqUnit) (n : BitVec 6) (w : Bundle)
  | ttest (u : SeqUnit) (pd : BitVec 3) (n : BitVec 6) (w : Bundle)
  | rld (u : SeqUnit) (a : BitVec 4) (d : BitVec 5) (sz : BitVec 2) (w : Bundle)
  | rst (u : SeqUnit) (a : BitVec 4) (d : BitVec 5) (sz : BitVec 2) (w : Bundle)
  | rat (u : SeqUnit) (a : BitVec 4) (d b c : BitVec 5) (kind : BitVec 4) (res : Bool) (w : Bundle)
  | put (u : SeqUnit) (f : DForm) (w : Bundle)
  | get (u : SeqUnit) (f : DForm) (w : Bundle)
  | fwait (u : SeqUnit) (d : BitVec 5) (w : Bundle)
  | gather (u : SeqUnit) (f : DForm) (w : Bundle)
  | compact (u : SeqUnit) (f : DForm) (w : Bundle)
  | route (u : SeqUnit) (f : DForm) (w : Bundle)
  | listOpComplete (u : SeqUnit)
  | engjob (u : SeqUnit) (a : BitVec 4) (st : BitVec 5) (q : BitVec 6) (w : Bundle)
  | spCfgLock (m : Master) (die : Nat) (v : BitVec 64)
  | spPwrCmd (m : Master) (die : Nat) (v : BitVec 64)
  | bankGroupTransitionDone (die g : Nat)
  | ownerRecordApply (k : Nat)
  | sealedWipe (die : Nat)
  | sealedWipeComplete (die : Nat)
  | hbmTrainingDone (die : Nat) (ok : Bool)
  | hbmScrubPass (die : Nat)
  | tlpCfgLock (m : Master) (v : BitVec 64)
  | lpddrTrainingDone (mask : Nat)
  | tierDmaTailWrite (m : Master) (e : Nat) (v : BitVec 64)
  | tierDmaBaseWrite (m : Master) (e : Nat) (v : BitVec 64)
  | tierDmaDescriptor (e : Nat)
  | tierDmaDescComplete (e : Nat)
  | gateCycleBoundary
  | gateEntryBoundary (c : Nat)
  | dieRateUpdate (rates : List Nat)
  | fxgApply (m : Master) (v : BitVec 64)
  | fxgCancel (m : Master) (v : BitVec 64)
  | fxgValidationDone
  | fxgSwap
  | fxgDrainEmpty
  | fxgDrainTimeout
  | admissionDecision
  | radioStepPlacement
  | stepStart (c dt : Nat)
  | stepCommitDecision (step : Nat)
  | abortAtEdge (c : Nat)
  | slotTimerTick (d t dt : Nat)
  | stimerCfgWrite (m : Master) (d t : Nat) (v : BitVec 64)
  | irisImageLoad (m : Master) (d c : Nat) (v : BitVec 64)
  | irisImageStart (d c : Nat)
  | engineJobStart (d q : Nat)
  | fftJob (d q : Nat)
  | ldpcDecodeJob (d q : Nat)
  | ldpcEncodeJob (d q : Nat)
  | polarEncodeJob (d q : Nat)
  | polarDecodeJob (d q : Nat)
  | demapJob (d q : Nat)
  | engineJobComplete (d q : Nat)
  | engineQueueToken (d q : Nat)
  | eqGateWrite (m : Master) (d q : Nat) (v : BitVec 64)
  | bhOffer (d seq at_ : Nat)
  | bhLoadReq (d frame : Nat) (msg : List (BitVec 8))
  | bhAck (d seq f : Nat)
  | bhNack (d seq : Nat)
  | bhOfferTimeout (d : Nat)
  | bhFrameReceived (d : Nat) (header : Option Nat) (payload : Bool)
  | bhFallback (d frame : Nat)
  | bhHeaderTimeout (d frame : Nat)
  | fronthaulFrameRx (k : Nat) (x : RxFrame) (fill : Nat)
  | crkSpareMove (m : Master) (k : Nat) (v : BitVec 64)
  | portTrained (k l : Nat)
  | uplinkHeaderWrite (k f n : Nat)
  | downlinkRecordSend (k f n : Nat)
  | cplaneRecordSend (k f n : Nat)
  | crkPathEnable (m : Master) (k p units : Nat) (v : BitVec 64)
  | txPathBlock (k p rate sat : Nat)
  | symbolMarkWrite (k p n : Nat)
  | agcPeriodEnd (k p : Nat) (level : Option Int) (clips : Nat)
  | freezeEntryStart (k p e : Nat)
  | preambleDetect (k p : Nat)
  | crkFrzWrite (m : Master) (k p j : Nat) (v : BitVec 64)
  | gainControlWordSend (k p n : Nat)
  | offsetEstimate (k p : Nat) (f : Int)
  | tcTick
  | calendarSlotExpiry (r : Nat)
  | ringFetch
  | egressFrameEnqueue (k l : Nat)
  | egressFrameStart (k l : Nat)
  | gateListGo (m : Master) (k l : Nat) (v : BitVec 64)
  | gateListSwitch (k l : Nat)
  | gateEnWrite (m : Master) (k l : Nat) (v : BitVec 64)
  | yellowRequestSend (pair : Nat)
  | nodeLock (m : Master) (die : Nat) (v : BitVec 64)
  | regionWrite (m : Master) (die ix : Nat) (v : BitVec 64)
  | fabricRequestArrival (ext : Option FabReq) (k : Nat)
  | hotLineServe (die line : Nat)
  | hotTokenTimeout (die : Nat)
  | fabricReplyArrival (die : Nat) (ext : Option FabReply) (k : Nat)
  | lossRetry (id : Nat)
  | hotRetry (id : Nat)
  | attemptWindowClose (id : Nat)
  | outcomeUnknownTimeout (id : Nat)
  | receiptExpiry (die : Nat)
  | peerTableWrite (m : Master) (die k : Nat) (v : BitVec 64)
  | mirrorResync (m : Master) (die : Nat) (v : BitVec 64)
  | mirrorPromote (m : Master) (die : Nat) (v : BitVec 64)
  | mirrorRelease (m : Master) (die : Nat) (v : BitVec 64)
  | resyncComplete (n : Nat)
  | mirrorCopyTimeout (n : Nat)
  | secondaryCopyTimeout (n : Nat)
  | releaseNotice (n : Nat)
  | linkConfigWrite (m : Master) (die j : Nat) (v : BitVec 64)
  | linkFlitSend (die j : Nat)
  | flitCrcFail (die j : Nat)
  | linkAckTimeout (die j : Nat)
  | laneFault (die lane : Nat) (optical : Bool) (codewords : Nat)
  | laneSpareResume (die j : Nat)
  | linkStallDown (die j : Nat)
  | syncWord
  | tbRateWrite (m : Master) (n : Nat) (v : BitVec 64)
  | tbStepWrite (m : Master) (n : Nat) (v : BitVec 64)
  | tbSwitch (m : Master) (v : BitVec 64)
  | tbAlign (m : Master) (v : BitVec 64)
  | tbStateWrite (m : Master) (n : Nat) (v : BitVec 64)
  | servoWatchdog (n : Nat)
  | tbSnapshot (m : Master) (v : BitVec 64)
  | replicaValid (die : Nat)
  | rclkLockLoss (k out port : Nat)
  | lsEnable (m : Master) (v : BitVec 64)
  | lsDisable (m : Master) (v : BitVec 64)
  | lsRecordPut (step : Nat)
  | lsRecordArrival (seq : Nat)
  | lsTimeout (seq : Nat)
  | inputDigestDone (step : Nat)
  | resultDigestDone (step : Nat)
  | bar0Access (fn : Nat) (write : Bool) (off width : Nat) (v : BitVec 64)
  | bar2Access (fn : Nat) (write : Bool) (off len : Nat) (data : List (BitVec 8))
  | bar2WinWrite (fn : Nat) (v : BitVec 64)
  | flrVf (n : Nat)
  | flrPf
  | doorbell (fn r : Nat) (v : BitVec 64)
  | ringEnable (m : Master) (r : Nat) (v : BitVec 64)
  | cmdStep (r : Nat)
  | cmdCopyH2d (r : Nat)
  | cmdCopyD2h (r : Nat)
  | cmdFabricRld (r : Nat)
  | cmdFabricRst (r : Nat)
  | cmdFabricRat (r : Nat)
  | cmdFabricPut (r : Nat)
  | cmdFabricGet (r : Nat)
  | cmdWset (r : Nat)
  | cmdFrame (r : Nat)
  | cqStampWrite (m : Master) (v : BitVec 64)
  | cqTdoneWrite (m : Master) (v : BitVec 64)
  | cqStampTimeout (r slot : Nat)
  | evtRingEnable (fn : Nat) (v : BitVec 64)
  | evtHeadWrite (fn : Nat) (v : BitVec 64)
  | mbH2fSend (fn : Nat)
  | mbF2hReply (fn : Nat) (words : List (BitVec 64))
  | mbF2hClear (fn : Nat)
  | powerGood
  | porDeassert
  | perstDeassert
  | perstAssert
  | bootGo (v : BitVec 64)
  | bootVerifyDone
  | lcTransition (m : Master) (v : BitVec 64)
  | tamperEvent (c : TamperCause)
  | spdmGetVersion
  | spdmGetCapabilities (v14 : Bool)
  | spdmNegotiateAlgorithms (sha3Offered : Bool)
  | spdmGetDigests
  | spdmGetCertificate (slot : Nat)
  | spdmChallenge (slot : Nat) (nonce : List (BitVec 8))
  | spdmGetMeasurements (k : Nat) (slot : Option Nat)
  | spdmKeyExchange (slot : Nat)
  | spdmFinish
  | spdmEndSession
  | rstReset (m : Master) (v : BitVec 64)
  | rstRelease (m : Master) (v : BitVec 64)
  | rstQuarantine (m : Master) (v : BitVec 64)
  | rstUnquarantine (m : Master) (v : BitVec 64)
  | fenceComplete (id : Nat)
  | drainComplete (id : Nat)
  | resetDone (id : Nat)
  | resetEscalation (id : Nat)
  | remoteWaitWdog (u : SeqUnit) (k : Nat)
  | quiesceWdog (c : Nat)
  | engineWdog (d q : Nat)
  | heartbeatWdog
  | heartbeatWrite (m : Master) (v : BitVec 64)
  | safetyIslandDisagree
  | replayGo (m : Master) (v : BitVec 64)
  | replayEnd
  | dumpGo (m : Master) (v : BitVec 64)
  | dumpScanTimeout (n : Nat)
  | tapExtest
  | tapIdcode
  | tapSamplePreload
  | tapDbgCmd (v : BitVec 64)
  | tapDbgAddr (v : BitVec 64)
  | tapDbgData (v : BitVec 64)
  | tapDbgStat
  | tapDbgAuth (v : BitVec 48)
  | tapBypass (code : BitVec 8)
  | trstAssert
  | dbgHalt (p : DbgPath) (v : BitVec 64)
  | dbgResume (p : DbgPath) (v : BitVec 64)
  | dbgStep (p : DbgPath) (v : BitVec 64)
  | dbgStepEnd (u : SeqUnit)
  | dbgGstop (p : DbgPath)
  | dbgStopNAssert
  | dbgGresume (p : DbgPath)
  | globalResume
  | dbgMemRd (p : DbgPath)
  | dbgMemWr (p : DbgPath)
  | dbgAuthNonce (p : DbgPath)
  | dbgAuthToken (p : DbgPath)
  | breakpointHit (u : SeqUnit) (w : Bundle)
  | trcDisable (m : Master) (die : Nat) (v : BitVec 64)
  | twCfgWrite (fn w : Nat) (v : BitVec 64)
  | pdCmdOn (m : Master) (v : BitVec 64)
  | pdCmdOff (m : Master) (v : BitVec 64)
  | pdTransitionDone (dom : Nat)
  | powerSample (power rail : Nat)
  | tempSample (temps : List Int)
  | thermtrip (die : Nat)
  | pwrCfgWrite (m : Master) (v : BitVec 64)
  | i3cTelemetryRead
  | i3cCardLimit (w : Nat)
  | porAssert
  | fronthaulLaneLoss (k l : Nat)
  | linkTrained (die j : Nat)
  | linkAckReceived (die j seq : Nat)
  | laneMappingNotice (die lane wave : Nat)
  | rclkLockRegain (k out : Nat)
  | copyComplete (r : Nat)
  | wsetDigestDone (r : Nat)
  | dumpComplete
  deriving DecidableEq, Repr

end Sys2Proof
end

