-- ==== Sys2Proof/Decode.lean ====
section
/-! DEFINITION. The bundle's encoding tables (R88, R128 to R175), as a decoder of each slot that answers `none` for an
encoding the instruction reference leaves undefined, and the encoder written from the same tables. No row of the
command table carries bits, so `decodeTableWord` spells no command. -/
namespace Sys2Proof

/-- Bits [lo + n - 1 : lo] of a bit vector. -/
def fieldAt {w : Nat} (x : BitVec w) (lo n : Nat) : BitVec n := x.extractLsb' lo n

/-- Bit lo of a bit vector. -/
def flagAt {w : Nat} (x : BitVec w) (lo : Nat) : Bool := x.getLsbD lo

/-- A slot operation, if its reserved bits are all 0 (R128). -/
def ifZero {α : Type} {w : Nat} (reserved : BitVec w) (a : α) : Option α :=
  if reserved = 0 then some a else none

/-- A Bool as one bit. -/
def bit1 (b : Bool) : BitVec 1 := BitVec.ofBool b

/-- The CTL slot, bits [31:4] of its field; the predicate of bits [3:0] is the bundle's (R88, R139, R140). -/
def decodeCtl (x : BitVec 28) : Option CtlOp :=
  let d := fieldAt x 6 5
  let a := fieldAt x 11 5
  let b := fieldAt x 16 5
  let rr (k : Alu) : Option CtlOp := ifZero (fieldAt x 21 7) (.rr k d a b)
  let ri (k : AluI) : Option CtlOp := some (.ri k d a (fieldAt x 16 12))
  let rs (k : ShiftI) : Option CtlOp := ifZero (fieldAt x 22 6) (.rs k d a (fieldAt x 16 6))
  match (fieldAt x 0 6).toNat with
  | 0x00 => ifZero (fieldAt x 6 22) .nop
  | 0x01 => rr .add
  | 0x02 => rr .sub
  | 0x03 => rr .and
  | 0x04 => rr .or
  | 0x05 => rr .xor
  | 0x06 => rr .shl
  | 0x07 => rr .shr
  | 0x08 => rr .sra
  | 0x09 => rr .mul
  | 0x0A => rr .min
  | 0x0B => rr .max
  | 0x0C => rr .minu
  | 0x0D => rr .maxu
  | 0x10 => ri .addi
  | 0x11 => ri .andi
  | 0x12 => ri .ori
  | 0x13 => ri .xori
  | 0x14 => rs .shli
  | 0x15 => rs .shri
  | 0x16 => rs .srai
  | 0x18 => some (.li d (fieldAt x 11 17))
  | 0x19 => ifZero (fieldAt x 27 1) (.lis d (fieldAt x 11 16))
  | 0x1C => ifZero (fieldAt x 22 6) (.cmp (fieldAt x 6 3) (fieldAt x 9 3) (fieldAt x 12 5) (fieldAt x 17 5))
  | 0x1D => ifZero (fieldAt x 25 3) (.cmpi (fieldAt x 6 3) (fieldAt x 9 3) (fieldAt x 12 5) (fieldAt x 17 8))
  | 0x1E => ifZero (fieldAt x 22 6) (.cmpf (fieldAt x 6 3) (fieldAt x 9 3) (fieldAt x 12 5) (fieldAt x 17 5))
  | 0x1F => ifZero (fieldAt x 19 9) (.plog (fieldAt x 6 3) (fieldAt x 9 2) (fieldAt x 11 3) (flagAt x 14)
      (fieldAt x 15 3) (flagAt x 18))
  | 0x20 => ifZero (fieldAt x 22 6) (.mov (fieldAt x 6 3) (fieldAt x 9 5) (fieldAt x 14 3) (fieldAt x 17 5))
  | 0x21 => ifZero (fieldAt x 19 9) (.rdsr d (fieldAt x 11 8))
  | 0x28 => ifZero (fieldAt x 23 5) (.br (fieldAt x 6 4) (fieldAt x 10 13))
  | 0x29 => ifZero (fieldAt x 23 5) (.call (fieldAt x 6 4) (fieldAt x 10 13))
  | 0x2A => ifZero (fieldAt x 15 13) (.jr (fieldAt x 6 4) (fieldAt x 10 5))
  | 0x2B => ifZero (fieldAt x 23 5) (.bskip (fieldAt x 6 4) (fieldAt x 10 13))
  | 0x30 => ifZero (fieldAt x 27 1) (.loop (fieldAt x 6 3) (fieldAt x 9 13) (fieldAt x 22 5))
  | 0x31 => some (.loopi (fieldAt x 6 3) (fieldAt x 9 13) (fieldAt x 22 6))
  | 0x32 => ifZero (fieldAt x 22 6) (.idle (fieldAt x 6 16))
  | 0x33 => ifZero (fieldAt x 6 22) .yield
  | 0x34 => ifZero (fieldAt x 6 22) .halt
  | 0x35 => ifZero (fieldAt x 6 22) .commit
  | _ => none

/-- The CTL slot's bits [31:4] of an operation (R139, R140). -/
def encodeCtl : CtlOp → BitVec 28
  | .nop => 0
  | .rr k d a b => (0 : BitVec 7) ++ b ++ a ++ d ++ (match k with
      | .add => (0x01 : BitVec 6)
      | .sub => (0x02 : BitVec 6)
      | .and => (0x03 : BitVec 6)
      | .or => (0x04 : BitVec 6)
      | .xor => (0x05 : BitVec 6)
      | .shl => (0x06 : BitVec 6)
      | .shr => (0x07 : BitVec 6)
      | .sra => (0x08 : BitVec 6)
      | .mul => (0x09 : BitVec 6)
      | .min => (0x0A : BitVec 6)
      | .max => (0x0B : BitVec 6)
      | .minu => (0x0C : BitVec 6)
      | .maxu => (0x0D : BitVec 6))
  | .ri k d a imm => imm ++ a ++ d ++ (match k with
      | .addi => (0x10 : BitVec 6)
      | .andi => (0x11 : BitVec 6)
      | .ori => (0x12 : BitVec 6)
      | .xori => (0x13 : BitVec 6))
  | .rs k d a sh => (0 : BitVec 6) ++ sh ++ a ++ d ++ (match k with
      | .shli => (0x14 : BitVec 6)
      | .shri => (0x15 : BitVec 6)
      | .srai => (0x16 : BitVec 6))
  | .li d imm => imm ++ d ++ (0x18 : BitVec 6)
  | .lis d imm => (0 : BitVec 1) ++ imm ++ d ++ (0x19 : BitVec 6)
  | .cmp pd cond a b => (0 : BitVec 6) ++ b ++ a ++ cond ++ pd ++ (0x1C : BitVec 6)
  | .cmpi pd cond a imm => (0 : BitVec 3) ++ imm ++ a ++ cond ++ pd ++ (0x1D : BitVec 6)
  | .cmpf pd cond a b => (0 : BitVec 6) ++ b ++ a ++ cond ++ pd ++ (0x1E : BitVec 6)
  | .plog pd op pa ia pb ib =>
    (0 : BitVec 9) ++ bit1 ib ++ pb ++ bit1 ia ++ pa ++ op ++ pd ++ (0x1F : BitVec 6)
  | .mov dk dn sk sn => (0 : BitVec 6) ++ sn ++ sk ++ dn ++ dk ++ (0x20 : BitVec 6)
  | .rdsr d sr => (0 : BitVec 9) ++ sr ++ d ++ (0x21 : BitVec 6)
  | .br cp t => (0 : BitVec 5) ++ t ++ cp ++ (0x28 : BitVec 6)
  | .call cp t => (0 : BitVec 5) ++ t ++ cp ++ (0x29 : BitVec 6)
  | .jr cp a => (0 : BitVec 13) ++ a ++ cp ++ (0x2A : BitVec 6)
  | .bskip cp t => (0 : BitVec 5) ++ t ++ cp ++ (0x2B : BitVec 6)
  | .loop lk e sc => (0 : BitVec 1) ++ sc ++ e ++ lk ++ (0x30 : BitVec 6)
  | .loopi lk e cnt => cnt ++ e ++ lk ++ (0x31 : BitVec 6)
  | .idle n1 => (0 : BitVec 6) ++ n1 ++ (0x32 : BitVec 6)
  | .yield => (0x33 : BitVec 28)
  | .halt => (0x34 : BitVec 28)
  | .commit => (0x35 : BitVec 28)

/-- An AGU slot (R148); a register field whose unused upper bits are not 0 is undefined. -/
def decodeAgu (x : BitVec 24) : Option AguOp :=
  let r := fieldAt x 5 5
  let a := fieldAt x 10 4
  let m := fieldAt x 14 4
  let w := fieldAt x 18 4
  let ld (k : LoadKind) : Option AguOp := ifZero (fieldAt x 22 2) (.load k r a m w)
  let st (k : StoreKind) : Option AguOp := ifZero (fieldAt x 22 2) (.store k r a m w)
  match (fieldAt x 0 5).toNat with
  | 0x00 => ifZero (fieldAt x 5 19) .nop
  | 0x01 => ifZero (fieldAt x 22 2 ++ r) (.amod a m w)
  | 0x02 => ld .b8
  | 0x03 => ld .b16
  | 0x04 => ld .b32
  | 0x05 => ld .b64
  | 0x06 => ld .qs
  | 0x07 => if fieldAt x 9 1 = 0 then ld .qw else none
  | 0x08 => if fieldAt x 8 2 = 0 then ld .qt else none
  | 0x09 => if fieldAt x 8 2 = 0 then ld .ql else none
  | 0x0A => st .b8
  | 0x0B => st .b16
  | 0x0C => st .b32
  | 0x0D => st .b64
  | 0x0E => st .qs
  | _ => none

/-- An AGU operation's bits (R148). -/
def encodeAgu : AguOp → BitVec 24
  | .nop => 0
  | .amod a m w => (0 : BitVec 2) ++ w ++ m ++ a ++ (0 : BitVec 5) ++ (0x01 : BitVec 5)
  | .load k r a m w => (0 : BitVec 2) ++ w ++ m ++ a ++ r ++ (match k with
      | .b8 => (0x02 : BitVec 5)
      | .b16 => (0x03 : BitVec 5)
      | .b32 => (0x04 : BitVec 5)
      | .b64 => (0x05 : BitVec 5)
      | .qs => (0x06 : BitVec 5)
      | .qw => (0x07 : BitVec 5)
      | .qt => (0x08 : BitVec 5)
      | .ql => (0x09 : BitVec 5))
  | .store k r a m w => (0 : BitVec 2) ++ w ++ m ++ a ++ r ++ (match k with
      | .b8 => (0x0A : BitVec 5)
      | .b16 => (0x0B : BitVec 5)
      | .b32 => (0x0C : BitVec 5)
      | .b64 => (0x0D : BitVec 5)
      | .qs => (0x0E : BitVec 5))

/-- The BCST slot (R150). -/
def decodeBcst (x : BitVec 24) : Option BcstOp :=
  let mask := fieldAt x 4 8
  let a := fieldAt x 12 4
  let m := fieldAt x 16 4
  let w := fieldAt x 20 4
  match (fieldAt x 0 4).toNat with
  | 0 => ifZero (fieldAt x 4 20) .nop
  | 1 => some (.bopen mask a m w)
  | 2 => some (.bscale mask a m w)
  | 3 => ifZero (fieldAt x 12 12) (.bclose mask)
  | _ => none

/-- A BCST operation's bits (R150). -/
def encodeBcst : BcstOp → BitVec 24
  | .nop => 0
  | .bopen mask a m w => w ++ m ++ a ++ mask ++ (1 : BitVec 4)
  | .bscale mask a m w => w ++ m ++ a ++ mask ++ (2 : BitVec 4)
  | .bclose mask => (0 : BitVec 12) ++ mask ++ (3 : BitVec 4)

/-- The STRM slot (R150). -/
def decodeStrm (x : BitVec 24) : Option StrmOp :=
  let mask := fieldAt x 4 8
  let a := fieldAt x 12 4
  let m := fieldAt x 16 4
  let w := fieldAt x 20 4
  match (fieldAt x 0 4).toNat with
  | 0 => ifZero (fieldAt x 4 20) .nop
  | 1 => some (.sopen mask a m w)
  | 2 => some (.sscale mask a m w)
  | 3 => ifZero (fieldAt x 12 12) (.sclose mask)
  | 4 => ifZero (fieldAt x 20 4 ++ fieldAt x 7 5) (.wopen (fieldAt x 4 3) a m)
  | 5 => ifZero (fieldAt x 4 20) .wclose
  | 6 => some (.ldbias mask a m w)
  | _ => none

/-- A STRM operation's bits (R150). -/
def encodeStrm : StrmOp → BitVec 24
  | .nop => 0
  | .sopen mask a m w => w ++ m ++ a ++ mask ++ (1 : BitVec 4)
  | .sscale mask a m w => w ++ m ++ a ++ mask ++ (2 : BitVec 4)
  | .sclose mask => (0 : BitVec 12) ++ mask ++ (3 : BitVec 4)
  | .wopen t a m => (0 : BitVec 4) ++ m ++ a ++ (0 : BitVec 5) ++ t ++ (4 : BitVec 4)
  | .wclose => (5 : BitVec 24)
  | .ldbias mask a m w => w ++ m ++ a ++ mask ++ (6 : BitVec 4)

/-- The MAC slot (R156). -/
def decodeMac (x : BitVec 48) : Option MacOp :=
  match (fieldAt x 0 4).toNat with
  | 0 => ifZero (fieldAt x 4 44) .nop
  | 1 => ifZero (fieldAt x 7 41) (.mma (fieldAt x 4 3))
  | 2 => ifZero (fieldAt x 12 36) (.mmak (fieldAt x 4 3) (fieldAt x 7 5))
  | 3 => ifZero (fieldAt x 5 43) (.formsw (flagAt x 4))
  | _ => none

/-- A MAC operation's bits (R156). -/
def encodeMac : MacOp → BitVec 48
  | .nop => 0
  | .mma t => (0 : BitVec 41) ++ t ++ (1 : BitVec 4)
  | .mmak t sk => (0 : BitVec 36) ++ sk ++ t ++ (2 : BitVec 4)
  | .formsw wide => (0 : BitVec 43) ++ bit1 wide ++ (3 : BitVec 4)

/-- The VEC slot (R158). -/
def decodeVec (x : BitVec 40) : Option VecOp :=
  let t := fieldAt x 5 3
  let st := flagAt x 24
  let a := fieldAt x 25 4
  let m := fieldAt x 29 4
  let w := fieldAt x 33 4
  match (fieldAt x 0 5).toNat with
  | 0 => ifZero (fieldAt x 5 35) .nop
  | 1 => ifZero (fieldAt x 37 3) (.vpost t (fieldAt x 8 2) (fieldAt x 10 5) (flagAt x 15) (fieldAt x 16 4)
      (fieldAt x 20 4) st a m w)
  | 2 => ifZero (fieldAt x 37 3 ++ fieldAt x 9 15) (.vnorm t (flagAt x 8) st a m w)
  | 3 => ifZero (fieldAt x 37 3 ++ fieldAt x 11 13) (.vbfp t (flagAt x 8) (fieldAt x 9 2) st a m w)
  | 4 => ifZero (fieldAt x 37 3 ++ fieldAt x 9 15) (.vmaxe t (flagAt x 8) st a m w)
  | 5 => ifZero (fieldAt x 20 20) (.vred t (fieldAt x 8 3) (fieldAt x 11 4) (fieldAt x 15 5))
  | _ => none

/-- A VEC operation's bits (R158). -/
def encodeVec : VecOp → BitVec 40
  | .nop => 0
  | .vpost t sc ss bias act dfmt st a m w =>
    (0 : BitVec 3) ++ w ++ m ++ a ++ bit1 st ++ dfmt ++ act ++ bit1 bias ++ ss ++ sc ++ t ++ (1 : BitVec 5)
  | .vnorm t blk st a m w =>
    (0 : BitVec 3) ++ w ++ m ++ a ++ bit1 st ++ (0 : BitVec 15) ++ bit1 blk ++ t ++ (2 : BitVec 5)
  | .vbfp t blk wc st a m w =>
    (0 : BitVec 3) ++ w ++ m ++ a ++ bit1 st ++ (0 : BitVec 13) ++ wc ++ bit1 blk ++ t ++ (3 : BitVec 5)
  | .vmaxe t blk st a m w =>
    (0 : BitVec 3) ++ w ++ m ++ a ++ bit1 st ++ (0 : BitVec 15) ++ bit1 blk ++ t ++ (4 : BitVec 5)
  | .vred t pd kind ss => (0 : BitVec 20) ++ ss ++ kind ++ pd ++ t ++ (5 : BitVec 5)

/-- The D format's operands (R169). -/
def decodeD (x : BitVec 40) : DForm :=
  .mk (fieldAt x 5 4) (fieldAt x 9 4) (fieldAt x 13 4) (fieldAt x 17 4) (fieldAt x 21 5) (fieldAt x 26 5)
    (flagAt x 31) (fieldAt x 32 4)

/-- The XFER slot (R169). The Ac field of DMA, PUT and GET is 0; the St field of an operation with TOK 0 is not
reserved, so any value is legal there. -/
def decodeXfer (x : BitVec 40) : Option XferOp :=
  let f := decodeD x
  let dmaLike (o : XferOp) : Option XferOp := ifZero (fieldAt x 36 4 ++ fieldAt x 32 4) o
  let listLike (o : XferOp) : Option XferOp := ifZero (fieldAt x 36 4) o
  match (fieldAt x 0 5).toNat with
  | 0x00 => ifZero (fieldAt x 5 35) .nop
  | 0x01 => dmaLike (.dma f)
  | 0x02 => ifZero (fieldAt x 31 9 ++ fieldAt x 5 21) (.signal (fieldAt x 26 5))
  | 0x03 => ifZero (fieldAt x 11 29) (.wait (fieldAt x 5 6))
  | 0x04 => ifZero (fieldAt x 14 26) (.ttest (fieldAt x 5 3) (fieldAt x 8 6))
  | 0x08 => ifZero (fieldAt x 16 24) (.rld (fieldAt x 5 4) (fieldAt x 9 5) (fieldAt x 14 2))
  | 0x09 => ifZero (fieldAt x 16 24) (.rst (fieldAt x 5 4) (fieldAt x 9 5) (fieldAt x 14 2))
  | 0x0A => ifZero (fieldAt x 29 11) (.rat (fieldAt x 5 4) (fieldAt x 9 5) (fieldAt x 14 5) (fieldAt x 19 5)
      (fieldAt x 24 4) (flagAt x 28))
  | 0x0B => dmaLike (.put f)
  | 0x0C => dmaLike (.get f)
  | 0x0D => ifZero (fieldAt x 14 26 ++ fieldAt x 5 4) (.fwait (fieldAt x 9 5))
  | 0x10 => listLike (.gather f)
  | 0x11 => listLike (.compact f)
  | 0x12 => listLike (.route f)
  | 0x14 => ifZero (fieldAt x 38 2 ++ fieldAt x 31 1 ++ fieldAt x 9 17)
      (.engjob (fieldAt x 5 4) (fieldAt x 26 5) (fieldAt x 32 6))
  | _ => none

/-- The D format's bits under an opcode (R169). -/
def encodeD (op : BitVec 5) (f : DForm) : BitVec 40 :=
  (0 : BitVec 4) ++ f.c ++ bit1 f.tok ++ f.st ++ f.ss ++ f.w ++ f.m ++ f.b ++ f.a ++ op

/-- An XFER operation's bits (R169). -/
def encodeXfer : XferOp → BitVec 40
  | .nop => 0
  | .dma f => encodeD 0x01 f
  | .signal st => (0 : BitVec 9) ++ st ++ (0 : BitVec 21) ++ (0x02 : BitVec 5)
  | .wait n => (0 : BitVec 29) ++ n ++ (0x03 : BitVec 5)
  | .ttest pd n => (0 : BitVec 26) ++ n ++ pd ++ (0x04 : BitVec 5)
  | .rld a d sz => (0 : BitVec 24) ++ sz ++ d ++ a ++ (0x08 : BitVec 5)
  | .rst a d sz => (0 : BitVec 24) ++ sz ++ d ++ a ++ (0x09 : BitVec 5)
  | .rat a d b c kind res => (0 : BitVec 11) ++ bit1 res ++ kind ++ c ++ b ++ d ++ a ++ (0x0A : BitVec 5)
  | .put f => encodeD 0x0B f
  | .get f => encodeD 0x0C f
  | .fwait d => (0 : BitVec 26) ++ d ++ (0 : BitVec 4) ++ (0x0D : BitVec 5)
  | .gather f => encodeD 0x10 f
  | .compact f => encodeD 0x11 f
  | .route f => encodeD 0x12 f
  | .engjob a st q => (0 : BitVec 2) ++ q ++ (0 : BitVec 1) ++ st ++ (0 : BitVec 17) ++ a ++ (0x14 : BitVec 5)

/-- The bundle that 256 bits spell, slot by slot at the fixed positions of R88. -/
def decodeBundle (x : BundleWord) : Bundle :=
  .mk (fieldAt x 0 4) (decodeCtl (fieldAt x 4 28)) (decodeAgu (fieldAt x 32 24)) (decodeAgu (fieldAt x 56 24))
    (decodeBcst (fieldAt x 80 24)) (decodeStrm (fieldAt x 104 24)) (decodeMac (fieldAt x 128 48))
    (decodeVec (fieldAt x 176 40)) (decodeXfer (fieldAt x 216 40))

/-- The bits of a bundle every slot of which holds a defined operation (R88). -/
def encodeBundle (b : Bundle) : Option BundleWord :=
  match b.ctl, b.agu0, b.agu1, b.bcst, b.strm, b.mac, b.vec, b.xfer with
  | some c, some a0, some a1, some bc, some sm, some ma, some ve, some xf =>
    some (encodeXfer xf ++ encodeVec ve ++ encodeMac ma ++ encodeStrm sm ++ encodeBcst bc ++ encodeAgu a1 ++
      encodeAgu a0 ++ encodeCtl c ++ b.pred)
  | _, _, _, _, _, _, _, _ => none

/-- Whether an AGU operation names a register its format can encode: W0 to W15, T0 to T7 or L0 to L7 (R148). -/
def AguOp.encodable : AguOp → Bool
  | .load .qw r _ _ _ => decide (r.toNat < 16)
  | .load .qt r _ _ _ => decide (r.toNat < 8)
  | .load .ql r _ _ _ => decide (r.toNat < 8)
  | _ => true

/-- Whether a DMA, PUT or GET carries Ac = 0 (R169). -/
def XferOp.encodable : XferOp → Bool
  | .dma f => f.c == 0
  | .put f => f.c == 0
  | .get f => f.c == 0
  | _ => true

/-- Whether a bundle has an encoding: every slot defined, and each operand within its format (R128). -/
def Bundle.encodable (b : Bundle) : Bool :=
  b.ctl.isSome && b.bcst.isSome && b.strm.isSome && b.mac.isSome && b.vec.isSome &&
  (b.agu0.map AguOp.encodable).getD false && (b.agu1.map AguOp.encodable).getD false &&
  (b.xfer.map XferOp.encodable).getD false

/-- The command that a word of the command table spells. The table gives no row any bits, so no word spells one. -/
def decodeTableWord (_nbits _w : Nat) : Option Instr := none

end Sys2Proof
end

