-- ==== Sys2Proof/Config.lean ====
section
/-! DEFINITION. What the spec leaves open, as opaque constants with no body: nothing in Lean can evaluate one, so a
statement holds whatever the device's value is. The assumption log names each. -/
namespace Sys2Proof.Config

/-- A fresh value for each use: applied to the machine's counter `State.free`. Stochastic rounding bits (R77), entropy
and nonces, and every result the spec leaves unstated draw from it. -/
opaque freeValue : Nat → Nat

/-- The value of a table activation, by ACT code and FP32 input, where R161 fixes no special value: the rounding
tables of the device's arithmetic signature. -/
opaque actTable : Nat → BitVec 32 → BitVec 32

/-- The device's arithmetic signature of rows and VEC rounding tables (16 B) by grade and stepping. -/
opaque arithSignature : Bool → Bool → Nat

/-- Whether an Ed25519 signature verifies (RFC 8032): public key, message, signature. -/
opaque ed25519Verify : List (BitVec 8) → List (BitVec 8) → List (BitVec 8) → Bool

/-- Whether an ML-DSA-65 signature verifies (FIPS 204): public key, message, signature. -/
opaque mldsaVerify : List (BitVec 8) → List (BitVec 8) → List (BitVec 8) → Bool

/-- Whether a pair of an Ed25519 and an ML-DSA-65 signature over a message verifies by the key that a fused hash names (R506,
R549): hash, message, the two signatures. The key itself is not in the device. -/
opaque verifyByHash : List (BitVec 8) → List (BitVec 8) → List (BitVec 8) → List (BitVec 8) → Bool

/-- Whether an authorisation record for a life-cycle transition is accepted (R506): the hashes of the keys that accept images, the
device unique ID, the target, and the memory at the record. The spec gives no layout of the record. -/
opaque lcAuthorised : List (List (BitVec 8)) → List (BitVec 8) → Nat → (Nat → BitVec 8) → Bool

/-- A signature the device makes (R508, R509): the identity key pair, 0 Ed25519 or 1 ML-DSA-65, and the message. -/
opaque deviceSign : Nat → Nat → List (BitVec 8) → List (BitVec 8)

/-- A certificate chain as the host gave it to the firmware (R508): the boot, the slot. -/
opaque certChain : Nat → Nat → List (BitVec 8)

/-- What the responder writes in an SPDM reply besides the fields that the spec names (DSP0274): the free-value counter. -/
opaque spdmData : Nat → List (BitVec 8)

/-- The bits of the boundary-scan register (R546), by the free-value counter; the description file gives its layout. -/
opaque boundaryScan : Nat → List (BitVec 8)

/-- The shift of an entry of an LDPC base graph of TS 38.212 (R315): graph, row, column, lifting size; none where the
entry is empty. The graphs are the external standard's. -/
opaque ldpcShift : Nat → Nat → Nat → Nat → Option Nat

/-- Bit i of the parity that TS 38.212 clause 5.3.2 adds to the information bits of a base graph and lifting size (R318);
the graphs are the external standard's. -/
opaque ldpcParity : Nat → Nat → List Bool → Nat → Bool

/-- Bit i of the polar code word of TS 38.212 clauses 5.3.1 and 5.4.1 (R319) for N, E and PFLAGS, of bits with their CRC;
the reliability order and the interleavers are the external standard's. -/
opaque polarCode : Nat → Nat → Nat → List Bool → Nat → Bool

/-- Bit i, CRC included, of the path that the list decoder of R319 chooses for N, K, E, CRC and PFLAGS, from signed 8-bit
LLRs; the spec fixes the list size and the choice, not the path metrics' arithmetic. -/
opaque polarPath : Nat → Nat → Nat → Nat → Nat → List Int → Nat → Bool

/-- The CRC32 of a backhaul loading table (R328); the spec names no polynomial. -/
opaque crc32 : List (BitVec 8) → BitVec 32

/-- The numerology of a cell's flows (R291, R343), as 0, 1 or 2 for μ of 0, 1 and 3; no register holds it. -/
opaque cellNumerology : Nat → Nat

end Sys2Proof.Config
end

