-- ==== Sys2Proof/Machine/Bits.lean ====
section
/-! DEFINITION. Bit fields, sign extension and byte order: the helpers by which every meaning reads and writes the
fields of a register, a descriptor or a header (R7, R12). -/
namespace Sys2Proof.Machine

/-- Bits [hi:lo] of a number (R7). -/
def bitsOf (n hi lo : Nat) : Nat := (n / 2 ^ lo) % 2 ^ (hi + 1 - lo)

/-- Bit i of a number. -/
def bitOf (n i : Nat) : Bool := (n / 2 ^ i) % 2 == 1

/-- Field [hi:lo] of a word as a number (R7). -/
def getField {w : Nat} (v : BitVec w) (hi lo : Nat) : Nat := bitsOf v.toNat hi lo

/-- The word with field [hi:lo] replaced, the other bits kept. -/
def setField {w : Nat} (v : BitVec w) (hi lo x : Nat) : BitVec w :=
  let m := (BitVec.ofNat w (2 ^ (hi + 1 - lo) - 1)) <<< lo
  (v &&& ~~~ m) ||| ((BitVec.ofNat w (x % 2 ^ (hi + 1 - lo))) <<< lo)

/-- A Bool as 0 or 1. -/
def b2n (b : Bool) : Nat := if b then 1 else 0

/-- The signed value of the low `w` bits of a number. -/
def sext (w n : Nat) : Int :=
  let m := n % 2 ^ w
  if 2 * m < 2 ^ w then (m : Int) else (m : Int) - 2 ^ w

/-- A signed value as the number of its low `w` bits. -/
def wrapInt (w : Nat) (i : Int) : Nat := (i % (2 ^ w : Int)).toNat

/-- Bytes read little-endian as a number (R7). -/
def leNat : List Byte → Nat
  | [] => 0
  | b :: t => b.toNat + 256 * leNat t

/-- The n bytes of a number, little-endian (R7). -/
def leBytes : Nat → Nat → List Byte
  | 0, _ => []
  | k + 1, v => BitVec.ofNat 8 v :: leBytes k (v / 256)

/-- ⌈a / b⌉, with ⌈a / 0⌉ = 0. -/
def cdiv (a b : Nat) : Nat := (a + b - 1) / b

/-- The least multiple of b that is not below a. -/
def roundUp (a b : Nat) : Nat := cdiv a b * b

/-- The numbers 0 to n − 1 whose bit is set in a mask, ascending. -/
def maskList (mask n : Nat) : List Nat := (List.range n).filter (fun i => bitOf mask i)

/-- How many of the low n bits of a mask are set. -/
def popCount (mask n : Nat) : Nat := (maskList mask n).length

/-- n plus one, held at a limit (a saturating counter). -/
def satAdd (a b limit : Nat) : Nat := if a + b > limit then limit else a + b

end Sys2Proof.Machine
end

