-- ==== Sys2Proof/Machine/RegTable.lean ====
section
/-! DEFINITION. The registers of the spec's register tables: where each lies (R11, R79 and the table's own rule), its
power domain, who may write it, and its fields with access code and reset value (R12 to R16). A bit no field lists is
reserved (R13). A field reset of the kind "fuse" is 0 here and computed where the register is read. -/
namespace Sys2Proof.Machine

/-- The access codes of the field tables (R13). -/
inductive Acc where
  | ro | rw | wo | w1c | w1s | rwl | fg
  deriving DecidableEq, Repr

/-- The window a register lies in: a die kind's register window, the Foxglove block, every die, the function block of
BAR0, its PF-only part, or the ring registers of BAR0 (R11, R34, R481). -/
inductive RegKind where
  | dhl | irs | crk | lpn | phx | tlp | prm | fxg | die | diewp | fn | fnpf | bar
  deriving DecidableEq, Repr

/-- The power domain that holds a register (R29, R574). -/
inductive DomKind where
  | seq | dsp | eng | port | fe | lpn | lpnw | phx | tlp | aon | tbi | core | pcie | dbg | main
  deriving DecidableEq, Repr

/-- Who may write a register: any master, partition 0 (R258), the function itself, the ring's function (R486), debug
access at permission 1 or 2, or the authentication path. -/
inductive Writer where
  | any | p0 | own | ring | dbg1 | dbg2 | dbgauth
  deriving DecidableEq, Repr

/-- A field of a register: bits [hi:lo], its access code and reset value. -/
structure FieldD where
  hi : Nat
  lo : Nat
  acc : Acc
  reset : Nat
  deriving DecidableEq, Repr

/-- A register of a register table, with the count and stride of each index. -/
structure RegD where
  name : String
  kind : RegKind
  off : Nat
  dims : List (Nat × Nat)
  dom : DomKind
  writer : Writer
  fields : List FieldD
  /-- What its reset word adds for its index: 1 the index in bits [4:0] (R334), 2 also the index modulo 4 in bits [7:5]
  (R428), 3 one entry with every gate open in word 0 of a gate list (R389). -/
  shape : Nat := 0
  deriving DecidableEq, Repr

/-- The register's value after a reset of its domain, where no fuse supplies it (R12). -/
def RegD.resetWord (r : RegD) : Word :=
  BitVec.ofNat 64 (r.fields.foldl (fun a f => a + f.reset % 2 ^ (f.hi + 1 - f.lo) * 2 ^ f.lo) 0)

/-- The value after a reset of the instance that an index names. -/
def RegD.resetAt (r : RegD) (ix : List Nat) : Word :=
  match r.shape with
  | 0 => r.resetWord
  | 1 => r.resetWord + BitVec.ofNat 64 (ix.headD 0)
  | 2 => r.resetWord + BitVec.ofNat 64 (ix.headD 0 + ix.headD 0 % 4 * 32)
  | _ => if ix.getD 1 0 = 0 then 0x8F000000 else 0

/-- The node offset of the register windows (R11). -/
def winBase : Nat := 0x030000000000

/-- Where the function blocks of BAR0 are kept, beyond the 48-bit offset map (R481). -/
def fnBase : Nat := 2 ^ 48

/-- Where the ring registers of BAR0 are kept, beyond the 48-bit offset map (R481). -/
def barBase : Nat := 2 ^ 49

/-- The sum of index times stride. -/
def strideSum : List Nat → List (Nat × Nat) → Nat
  | i :: is, (_, st) :: ds => i * st + strideSum is ds
  | _, _ => 0

/-- The key of a register instance: its node offset (R11), or its place in the BAR0 keys; `die` is the die index, or
the function number of a function block. -/
def RegD.at (r : RegD) (die : Nat) (ix : List Nat) : Nat :=
  let o := r.off + strideSum ix r.dims
  match r.kind with
  | .fn | .fnpf => fnBase + die * 0x100000 + o
  | .bar => barBase + o
  | .fxg => winBase + die * 0x1000000 + 0xF00000 + o
  | _ => winBase + die * 0x1000000 + o

namespace R

/-- DHL_CL_ROWFUSE (R79): FUSED_ROWS [8:0]. -/
def dhlClRowfuse : RegD :=
  { name := "DHL_CL_ROWFUSE", kind := .dhl, off := 0x10000, dims := [(8, 0x1000)], dom := .seq, writer := .any,
    fields := [⟨8, 0, .ro, 0⟩] }

/-- DHL_CL_ROWMAP (R79): PHYS [31:0]; SPARE [35:32]; SPARE_BUSY [36:36]. -/
def dhlClRowmap : RegD :=
  { name := "DHL_CL_ROWMAP", kind := .dhl, off := 0x10008, dims := [(8, 0x1000)], dom := .seq, writer := .any,
    fields := [⟨31, 0, .ro, 0⟩, ⟨35, 32, .ro, 0⟩, ⟨36, 36, .ro, 0⟩] }

/-- DHL_CL_SPARE_CMD (R79): LROW [2:0]; GO [8:8]. -/
def dhlClSpareCmd : RegD :=
  { name := "DHL_CL_SPARE_CMD", kind := .dhl, off := 0x10010, dims := [(8, 0x1000)], dom := .seq, writer := .any,
    fields := [⟨2, 0, .wo, 0⟩, ⟨8, 8, .wo, 0⟩] }

/-- DHL_CL_STATUS (R79): FORM [0:0]; WITHDRAWN [1:1]; RETIRED_PHYS [11:8]; ROW_BUSY [23:16]. -/
def dhlClStatus : RegD :=
  { name := "DHL_CL_STATUS", kind := .dhl, off := 0x10018, dims := [(8, 0x1000)], dom := .seq, writer := .any,
    fields := [⟨0, 0, .ro, 0⟩, ⟨1, 1, .ro, 0⟩, ⟨11, 8, .ro, 0xf⟩, ⟨23, 16, .ro, 0⟩] }

/-- DHL_CL_WSTREAM (R79): RATE [5:0]. -/
def dhlClWstream : RegD :=
  { name := "DHL_CL_WSTREAM", kind := .dhl, off := 0x10020, dims := [(8, 0x1000)], dom := .seq, writer := .any,
    fields := [⟨5, 0, .fg, 0⟩] }

/-- DHL_CTX_ARITH (R79): ZSKIP [0:0]; NRND [2:1]; E4M3_OVF [3:3]; E5M2_OVF [4:4]; EXACT [8:8]. -/
def dhlCtxArith : RegD :=
  { name := "DHL_CTX_ARITH", kind := .dhl, off := 0x10100, dims := [(8, 0x1000), (8, 8)], dom := .seq, writer := .any,
    fields := [⟨0, 0, .rw, 1⟩, ⟨2, 1, .rw, 0⟩, ⟨3, 3, .rw, 0⟩, ⟨4, 4, .rw, 0⟩, ⟨8, 8, .ro, 0⟩] }

/-- DHL_CTX_AFLAGS (R79): INV [0:0]; OVF [1:1]; NANIN [2:2]; ISAT [3:3]; NSAT [4:4]; SRX [5:5]; MXNAN [6:6]. -/
def dhlCtxAflags : RegD :=
  { name := "DHL_CTX_AFLAGS", kind := .dhl, off := 0x10180, dims := [(8, 0x1000), (8, 8)], dom := .seq, writer := .any,
    fields := [⟨0, 0, .w1c, 0⟩, ⟨1, 1, .w1c, 0⟩, ⟨2, 2, .w1c, 0⟩, ⟨3, 3, .w1c, 0⟩, ⟨4, 4, .w1c, 0⟩, ⟨5, 5, .w1c, 0⟩, ⟨6, 6, .w1c, 0⟩] }

/-- DHL_WSTREAM_TOTAL (R79): SUM [5:0]; CAP [13:8]. -/
def dhlWstreamTotal : RegD :=
  { name := "DHL_WSTREAM_TOTAL", kind := .dhl, off := 0x18000, dims := [], dom := .seq, writer := .any,
    fields := [⟨5, 0, .ro, 0⟩, ⟨13, 8, .ro, 0x1a⟩] }

/-- DHL_SEQ_STATE (R126): CTX_STATE [23:0]; RUNNING [26:24]; STEP_ACTIVE [27:27]; DONE [28:28]; EXACT [29:29]. -/
def dhlSeqState : RegD :=
  { name := "DHL_SEQ_STATE", kind := .dhl, off := 0x10200, dims := [(8, 0x1000)], dom := .seq, writer := .any,
    fields := [⟨23, 0, .ro, 0⟩, ⟨26, 24, .ro, 0⟩, ⟨27, 27, .ro, 0⟩, ⟨28, 28, .ro, 0⟩, ⟨29, 29, .ro, 0⟩] }

/-- DHL_SEQ_CYCLES (R126): CYCLES [47:0]. -/
def dhlSeqCycles : RegD :=
  { name := "DHL_SEQ_CYCLES", kind := .dhl, off := 0x10208, dims := [(8, 0x1000)], dom := .seq, writer := .any,
    fields := [⟨47, 0, .ro, 0⟩] }

/-- DHL_SEQ_FREEZE (R126): UNSCHED [31:0]; OWN [63:32]. -/
def dhlSeqFreeze : RegD :=
  { name := "DHL_SEQ_FREEZE", kind := .dhl, off := 0x10210, dims := [(8, 0x1000)], dom := .seq, writer := .any,
    fields := [⟨31, 0, .ro, 0⟩, ⟨63, 32, .ro, 0⟩] }

/-- DHL_SEQ_SWITCH (R126): SWITCHES [31:0]; IDLE [63:32]. -/
def dhlSeqSwitch : RegD :=
  { name := "DHL_SEQ_SWITCH", kind := .dhl, off := 0x10218, dims := [(8, 0x1000)], dom := .seq, writer := .any,
    fields := [⟨31, 0, .ro, 0⟩, ⟨63, 32, .ro, 0⟩] }

/-- DHL_SEQ_DECLARED (R126): DECLARED [39:0]. -/
def dhlSeqDeclared : RegD :=
  { name := "DHL_SEQ_DECLARED", kind := .dhl, off := 0x10220, dims := [(8, 0x1000)], dom := .seq, writer := .any,
    fields := [⟨39, 0, .ro, 0⟩] }

/-- DHL_SEQ_FAULT (R137): CODE [7:0]; CTX [10:8]; PC [23:11]; SLOT [26:24]; VALID [27:27]; PRECISE [28:28]. -/
def dhlSeqFault : RegD :=
  { name := "DHL_SEQ_FAULT", kind := .dhl, off := 0x10228, dims := [(8, 0x1000)], dom := .seq, writer := .any,
    fields := [⟨7, 0, .ro, 0⟩, ⟨10, 8, .ro, 0⟩, ⟨23, 11, .ro, 0⟩, ⟨26, 24, .ro, 0⟩, ⟨27, 27, .ro, 0⟩, ⟨28, 28, .ro, 0⟩] }

/-- DHL_SEQ_FADDR (R137): ADDR [63:0]. -/
def dhlSeqFaddr : RegD :=
  { name := "DHL_SEQ_FADDR", kind := .dhl, off := 0x10230, dims := [(8, 0x1000)], dom := .seq, writer := .any,
    fields := [⟨63, 0, .ro, 0⟩] }

/-- DHL_SEQ_HBMHOLD (R287): HOLD [31:0]. -/
def dhlSeqHbmhold : RegD :=
  { name := "DHL_SEQ_HBMHOLD", kind := .dhl, off := 0x10238, dims := [(8, 0x1000)], dom := .seq, writer := .any,
    fields := [⟨31, 0, .ro, 0⟩] }

/-- DHL_SEQ_PC (R126): PC [12:0]; LOOP_DEPTH [19:16]. -/
def dhlSeqPc : RegD :=
  { name := "DHL_SEQ_PC", kind := .dhl, off := 0x10240, dims := [(8, 0x1000), (8, 8)], dom := .seq, writer := .any,
    fields := [⟨12, 0, .ro, 0⟩, ⟨19, 16, .ro, 0⟩] }

/-- DHL_SEQ_WAIT (R126): REMOTE [31:0]; TOKEN [63:32]. -/
def dhlSeqWait : RegD :=
  { name := "DHL_SEQ_WAIT", kind := .dhl, off := 0x10280, dims := [(8, 0x1000), (8, 8)], dom := .seq, writer := .any,
    fields := [⟨31, 0, .ro, 0⟩, ⟨63, 32, .ro, 0⟩] }

/-- DHL_TOKEN (R126): COUNT [15:0]; SAT [16:16]. -/
def dhlToken : RegD :=
  { name := "DHL_TOKEN", kind := .dhl, off := 0x10300, dims := [(8, 0x1000), (64, 8)], dom := .seq, writer := .any,
    fields := [⟨15, 0, .ro, 0⟩, ⟨16, 16, .w1c, 0⟩] }

/-- DHL_SP_ZSKIP (R209): ROWS [47:0]. -/
def dhlSpZskip : RegD :=
  { name := "DHL_SP_ZSKIP", kind := .dhl, off := 0x10500, dims := [(8, 0x1000)], dom := .seq, writer := .any,
    fields := [⟨47, 0, .ro, 0⟩] }

/-- DHL_SP_SAVED (R209): CYCLES [47:0]. -/
def dhlSpSaved : RegD :=
  { name := "DHL_SP_SAVED", kind := .dhl, off := 0x10508, dims := [(8, 0x1000)], dom := .seq, writer := .any,
    fields := [⟨47, 0, .ro, 0⟩] }

/-- DHL_SP_BSKIP (R209): TAKEN [31:0]; BUNDLES [63:32]. -/
def dhlSpBskip : RegD :=
  { name := "DHL_SP_BSKIP", kind := .dhl, off := 0x10510, dims := [(8, 0x1000)], dom := .seq, writer := .any,
    fields := [⟨31, 0, .ro, 0⟩, ⟨63, 32, .ro, 0⟩] }

/-- DHL_SP_ROUTE (R209): PLACED [23:0]; REDIRECTED [43:24]; DROPPED [63:44]. -/
def dhlSpRoute : RegD :=
  { name := "DHL_SP_ROUTE", kind := .dhl, off := 0x10518, dims := [(8, 0x1000)], dom := .seq, writer := .any,
    fields := [⟨23, 0, .ro, 0⟩, ⟨43, 24, .ro, 0⟩, ⟨63, 44, .ro, 0⟩] }

/-- DHL_SEQ_NDET (R476): STOCH [15:0]; ROUTE [31:16]; TIMING [47:32]; INTRUDE [63:48]. -/
def dhlSeqNdet : RegD :=
  { name := "DHL_SEQ_NDET", kind := .dhl, off := 0x10520, dims := [(8, 0x1000)], dom := .seq, writer := .any,
    fields := [⟨15, 0, .ro, 0⟩, ⟨31, 16, .ro, 0⟩, ⟨47, 32, .ro, 0⟩, ⟨63, 48, .ro, 0⟩] }

/-- DHL_CL_RSTATE (R545): STATE [2:0]; SHADOWING [3:3]; CMD_ID [63:32]. -/
def dhlClRstate : RegD :=
  { name := "DHL_CL_RSTATE", kind := .dhl, off := 0x10600, dims := [(8, 0x1000)], dom := .seq, writer := .any,
    fields := [⟨2, 0, .ro, 0⟩, ⟨3, 3, .ro, 0⟩, ⟨63, 32, .ro, 0⟩] }

/-- DHL_SH_SNAP0 (R545): TEMP [7:0]; VLANE [23:8]; RATE [39:24]; BUSY [43:40]; WSUM [49:44]; LROW [52:50]; FORM
[53:53]. -/
def dhlShSnap0 : RegD :=
  { name := "DHL_SH_SNAP0", kind := .dhl, off := 0x10608, dims := [(8, 0x1000)], dom := .seq, writer := .any,
    fields := [⟨7, 0, .ro, 0⟩, ⟨23, 8, .ro, 0⟩, ⟨39, 24, .ro, 0⟩, ⟨43, 40, .ro, 0⟩, ⟨49, 44, .ro, 0⟩, ⟨52, 50, .ro, 0⟩, ⟨53, 53, .ro, 0⟩] }

/-- DHL_SH_SNAP1 (R545): LC [63:0]. -/
def dhlShSnap1 : RegD :=
  { name := "DHL_SH_SNAP1", kind := .dhl, off := 0x10610, dims := [(8, 0x1000)], dom := .seq, writer := .any,
    fields := [⟨63, 0, .ro, 0⟩] }

/-- DHL_CL_SUSPECT (R545): WORD [63:0]. -/
def dhlClSuspect : RegD :=
  { name := "DHL_CL_SUSPECT", kind := .dhl, off := 0x10640, dims := [(8, 0x1000), (12, 8)], dom := .seq, writer := .any,
    fields := [⟨63, 0, .ro, 0⟩] }

/-- DHL_DBG_CTL (R571): HALTED [0:0]; CAUSE [3:1]; INDEX [6:4]. -/
def dhlDbgCtl : RegD :=
  { name := "DHL_DBG_CTL", kind := .dhl, off := 0x106C0, dims := [(8, 0x1000)], dom := .seq, writer := .any,
    fields := [⟨0, 0, .ro, 0⟩, ⟨3, 1, .ro, 0⟩, ⟨6, 4, .ro, 0⟩] }

/-- DHL_DBG_HALTCYC (R571): CYCLES [63:0]. -/
def dhlDbgHaltcyc : RegD :=
  { name := "DHL_DBG_HALTCYC", kind := .dhl, off := 0x106C8, dims := [(8, 0x1000)], dom := .seq, writer := .any,
    fields := [⟨63, 0, .ro, 0⟩] }

/-- DHL_DBG_BP (R571): EN [0:0]; ACTION [2:1]; CTXMASK [10:3]; BUNDLE [23:11]; ONCE [24:24]; HITS [63:32]. -/
def dhlDbgBp : RegD :=
  { name := "DHL_DBG_BP", kind := .dhl, off := 0x10700, dims := [(8, 0x1000), (8, 8)], dom := .seq, writer := .dbg2,
    fields := [⟨0, 0, .rw, 0⟩, ⟨2, 1, .rw, 0⟩, ⟨10, 3, .rw, 0⟩, ⟨23, 11, .rw, 0⟩, ⟨24, 24, .rw, 0⟩, ⟨63, 32, .ro, 0⟩] }

/-- DHL_SH_CFG (R545): EN [0:0]; SAMPLE_LOG2 [4:1]. -/
def dhlShCfg : RegD :=
  { name := "DHL_SH_CFG", kind := .dhl, off := 0x18008, dims := [], dom := .seq, writer := .p0,
    fields := [⟨0, 0, .rw, 0⟩, ⟨4, 1, .rw, 8⟩] }

/-- DHL_SH_STAT (R545): SHADOWED [23:0]; SKIPPED [47:24]; MISMATCHES [63:48]. -/
def dhlShStat : RegD :=
  { name := "DHL_SH_STAT", kind := .dhl, off := 0x18010, dims := [], dom := .seq, writer := .any,
    fields := [⟨23, 0, .ro, 0⟩, ⟨47, 24, .ro, 0⟩, ⟨63, 48, .ro, 0⟩] }

/-- DHL_CLK_STR (R453): CYCLES [31:0]; EXTRA [63:32]. -/
def dhlClkStr : RegD :=
  { name := "DHL_CLK_STR", kind := .dhl, off := 0xF000, dims := [], dom := .seq, writer := .any,
    fields := [⟨31, 0, .rw, 0⟩, ⟨63, 32, .rw, 0⟩] }

/-- DHL_CLK_STOP (R453): STOPS [15:0]; STOP_NS [63:16]. -/
def dhlClkStop : RegD :=
  { name := "DHL_CLK_STOP", kind := .dhl, off := 0xF008, dims := [], dom := .seq, writer := .any,
    fields := [⟨15, 0, .rw, 0⟩, ⟨63, 16, .rw, 0⟩] }

/-- DHL_SP_CFG (R248): INTERLEAVE [0:0]; ARB [1:1]; LOCK [8:8]; CNT_EN [9:9]. -/
def dhlSpCfg : RegD :=
  { name := "DHL_SP_CFG", kind := .dhl, off := 0x30000, dims := [], dom := .seq, writer := .any,
    fields := [⟨0, 0, .rwl, 0⟩, ⟨1, 1, .rwl, 0⟩, ⟨8, 8, .w1s, 0⟩, ⟨9, 9, .rw, 0⟩] }

/-- DHL_SP_PWR_CMD (R248): TARGET [31:0]; STATE [33:32]; GO [40:40]. -/
def dhlSpPwrCmd : RegD :=
  { name := "DHL_SP_PWR_CMD", kind := .dhl, off := 0x30008, dims := [], dom := .seq, writer := .any,
    fields := [⟨31, 0, .wo, 0⟩, ⟨33, 32, .wo, 0⟩, ⟨40, 40, .wo, 0⟩] }

/-- DHL_SP_PWR_STATE (R248): STATE [63:0]. -/
def dhlSpPwrState : RegD :=
  { name := "DHL_SP_PWR_STATE", kind := .dhl, off := 0x30010, dims := [], dom := .seq, writer := .any,
    fields := [⟨63, 0, .ro, 0xaaaaaaaaaaaaaaaa⟩] }

/-- DHL_SP_OWN (R248): OWNER [63:0]. -/
def dhlSpOwn : RegD :=
  { name := "DHL_SP_OWN", kind := .dhl, off := 0x30100, dims := [(4, 8)], dom := .seq, writer := .any,
    fields := [⟨63, 0, .fg, 0xffffffffffffffff⟩] }

/-- DHL_XCH_OWN (R248): OWNER [63:0]. -/
def dhlXchOwn : RegD :=
  { name := "DHL_XCH_OWN", kind := .dhl, off := 0x30120, dims := [(4, 8)], dom := .seq, writer := .any,
    fields := [⟨63, 0, .fg, 0xffffffffffffffff⟩] }

/-- DHL_SEALED_OWN (R248): OWNER [63:0]. -/
def dhlSealedOwn : RegD :=
  { name := "DHL_SEALED_OWN", kind := .dhl, off := 0x30140, dims := [], dom := .seq, writer := .any,
    fields := [⟨63, 0, .fg, 0xffffffffffffffff⟩] }

/-- DHL_SEALED_STATUS (R248): WIPE_BUSY [0:0]; CAUSE [3:1]; SLICES [15:8]; WIPES [47:16]. -/
def dhlSealedStatus : RegD :=
  { name := "DHL_SEALED_STATUS", kind := .dhl, off := 0x30148, dims := [], dom := .seq, writer := .any,
    fields := [⟨0, 0, .ro, 0⟩, ⟨3, 1, .ro, 0⟩, ⟨15, 8, .ro, 0⟩, ⟨47, 16, .ro, 0⟩] }

/-- DHL_SP_ECC (R248): CORR [31:0]; UNCORR [63:32]. -/
def dhlSpEcc : RegD :=
  { name := "DHL_SP_ECC", kind := .dhl, off := 0x30150, dims := [], dom := .seq, writer := .any,
    fields := [⟨31, 0, .rw, 0⟩, ⟨63, 32, .rw, 0⟩] }

/-- DHL_SP_ERRADDR (R248): OFFSET [47:0]; VALID [63:63]. -/
def dhlSpErraddr : RegD :=
  { name := "DHL_SP_ERRADDR", kind := .dhl, off := 0x30158, dims := [], dom := .seq, writer := .any,
    fields := [⟨47, 0, .ro, 0⟩, ⟨63, 63, .w1c, 0⟩] }

/-- DHL_SP_CONF (R248): WINS [31:0]; LOSSES [63:32]. -/
def dhlSpConf : RegD :=
  { name := "DHL_SP_CONF", kind := .dhl, off := 0x30200, dims := [(11, 8)], dom := .seq, writer := .any,
    fields := [⟨31, 0, .rw, 0⟩, ⟨63, 32, .rw, 0⟩] }

/-- DHL_HBM_STATUS (R248): TRAINED [0:0]; TEMP [15:8]. -/
def dhlHbmStatus : RegD :=
  { name := "DHL_HBM_STATUS", kind := .dhl, off := 0x40000, dims := [], dom := .seq, writer := .any,
    fields := [⟨0, 0, .ro, 0⟩, ⟨15, 8, .ro, 0⟩] }

/-- DHL_HBM_ECC (R248): CORR [31:0]; UNCORR [63:32]. -/
def dhlHbmEcc : RegD :=
  { name := "DHL_HBM_ECC", kind := .dhl, off := 0x40008, dims := [], dom := .seq, writer := .any,
    fields := [⟨31, 0, .rw, 0⟩, ⟨63, 32, .rw, 0⟩] }

/-- DHL_HBM_ERRADDR (R248): OFFSET [47:0]; VALID [63:63]. -/
def dhlHbmErraddr : RegD :=
  { name := "DHL_HBM_ERRADDR", kind := .dhl, off := 0x40010, dims := [], dom := .seq, writer := .any,
    fields := [⟨47, 0, .ro, 0⟩, ⟨63, 63, .w1c, 0⟩] }

/-- DHL_HBM_SCRUB (R248): PERIOD_H [15:0]; PASSES [47:16]. -/
def dhlHbmScrub : RegD :=
  { name := "DHL_HBM_SCRUB", kind := .dhl, off := 0x40018, dims := [], dom := .seq, writer := .any,
    fields := [⟨15, 0, .rw, 0x18⟩, ⟨47, 16, .ro, 0⟩] }

/-- TLP_CFG (R249): CH_MASK [7:0]; LOCK [8:8]. -/
def tlpCfg : RegD :=
  { name := "TLP_CFG", kind := .tlp, off := 0x10000, dims := [], dom := .tlp, writer := .any,
    fields := [⟨7, 0, .rwl, 0xff⟩, ⟨8, 8, .w1s, 0⟩] }

/-- TLP_STATUS (R249): TRAINED [7:0]; TIER_UP [8:8]. -/
def tlpStatus : RegD :=
  { name := "TLP_STATUS", kind := .tlp, off := 0x10008, dims := [], dom := .tlp, writer := .any,
    fields := [⟨7, 0, .ro, 0⟩, ⟨8, 8, .ro, 0⟩] }

/-- TLP_ECC (R249): CORR [31:0]; UNCORR [63:32]. -/
def tlpEcc : RegD :=
  { name := "TLP_ECC", kind := .tlp, off := 0x10010, dims := [], dom := .tlp, writer := .any,
    fields := [⟨31, 0, .rw, 0⟩, ⟨63, 32, .rw, 0⟩] }

/-- TLP_ERRADDR (R249): OFFSET [47:0]; VALID [63:63]. -/
def tlpErraddr : RegD :=
  { name := "TLP_ERRADDR", kind := .tlp, off := 0x10018, dims := [], dom := .tlp, writer := .any,
    fields := [⟨47, 0, .ro, 0⟩, ⟨63, 63, .w1c, 0⟩] }

/-- TLP_DMA_BASE (R249): RING [47:0]; LOG2N [51:48]. -/
def tlpDmaBase : RegD :=
  { name := "TLP_DMA_BASE", kind := .tlp, off := 0x20000, dims := [(8, 0x20)], dom := .tlp, writer := .any,
    fields := [⟨47, 0, .rw, 0⟩, ⟨51, 48, .rw, 4⟩] }

/-- TLP_DMA_HEAD (R249): HEAD [15:0]; STOP [16:16]. -/
def tlpDmaHead : RegD :=
  { name := "TLP_DMA_HEAD", kind := .tlp, off := 0x20008, dims := [(8, 0x20)], dom := .tlp, writer := .any,
    fields := [⟨15, 0, .ro, 0⟩, ⟨16, 16, .ro, 0⟩] }

/-- TLP_DMA_TAIL (R249): TAIL [15:0]. -/
def tlpDmaTail : RegD :=
  { name := "TLP_DMA_TAIL", kind := .tlp, off := 0x20010, dims := [(8, 0x20)], dom := .tlp, writer := .any,
    fields := [⟨15, 0, .rw, 0⟩] }

/-- FXG_CFG (R288): STRETCH_G [7:0]; ABORT_DEMOTE [11:8]; BYPASS_LIMIT [23:16]; DRAIN_GC [31:24]. -/
def fxgCfg : RegD :=
  { name := "FXG_CFG", kind := .fxg, off := 0x0, dims := [], dom := .aon, writer := .any,
    fields := [⟨7, 0, .fg, 0x10⟩, ⟨11, 8, .fg, 2⟩, ⟨23, 16, .fg, 0x40⟩, ⟨31, 24, .fg, 0x10⟩] }

/-- FXG_EPOCH (R288): CURRENT [15:0]; PREVIOUS [31:16]; PREV_ACCEPTED [32:32]; DRAIN_LEFT [47:40]. -/
def fxgEpoch : RegD :=
  { name := "FXG_EPOCH", kind := .fxg, off := 0x8, dims := [], dom := .aon, writer := .any,
    fields := [⟨15, 0, .fg, 0⟩, ⟨31, 16, .fg, 0⟩, ⟨32, 32, .fg, 0⟩, ⟨47, 40, .fg, 0⟩] }

/-- FXG_GATE (R288): RUNNING [0:0]; CYCLE_NS [39:16]. -/
def fxgGate : RegD :=
  { name := "FXG_GATE", kind := .fxg, off := 0x10, dims := [], dom := .aon, writer := .any,
    fields := [⟨0, 0, .fg, 0⟩, ⟨39, 16, .fg, 0⟩] }

/-- FXG_GATE_START (R288): START [63:0]. -/
def fxgGateStart : RegD :=
  { name := "FXG_GATE_START", kind := .fxg, off := 0x18, dims := [], dom := .aon, writer := .any,
    fields := [⟨63, 0, .fg, 0⟩] }

/-- FXG_GATE_COUNT (R288): COUNT [63:0]. -/
def fxgGateCount : RegD :=
  { name := "FXG_GATE_COUNT", kind := .fxg, off := 0x20, dims := [], dom := .aon, writer := .any,
    fields := [⟨63, 0, .ro, 0⟩] }

/-- FXG_CHANGE (R288): STATE [2:0]; RESULT [15:8]; DEFERRED [31:16]; SWAP_COUNT [63:32]. -/
def fxgChange : RegD :=
  { name := "FXG_CHANGE", kind := .fxg, off := 0x28, dims := [], dom := .aon, writer := .any,
    fields := [⟨2, 0, .ro, 0⟩, ⟨15, 8, .ro, 0⟩, ⟨31, 16, .ro, 0⟩, ⟨63, 32, .ro, 0⟩] }

/-- FXG_LIM0 (R288): CYCLE_MIN_NS [23:0]; CYCLE_MAX_NS [47:24]; ENTRY_MIN_NS [63:48]. -/
def fxgLim0 : RegD :=
  { name := "FXG_LIM0", kind := .fxg, off := 0x40, dims := [], dom := .aon, writer := .any,
    fields := [⟨23, 0, .fg, 0x1e848⟩, ⟨47, 24, .fg, 0x989680⟩, ⟨63, 48, .fg, 0x64⟩] }

/-- FXG_LIM1 (R288): RADIO_MIN_NS [15:0]; GUARD_MIN_NS [31:16]; OPEN_SHARE_MAX [39:32]; RADIO_SHARE_MIN [47:40]; G_MIN
[55:48]; G_MAX [63:56]. -/
def fxgLim1 : RegD :=
  { name := "FXG_LIM1", kind := .fxg, off := 0x48, dims := [], dom := .aon, writer := .any,
    fields := [⟨15, 0, .fg, 0x3e8⟩, ⟨31, 16, .fg, 0xfa⟩, ⟨39, 32, .fg, 0xf0⟩, ⟨47, 40, .fg, 0⟩, ⟨55, 48, .fg, 8⟩, ⟨63, 56, .fg, 0x40⟩] }

/-- FXG_THROTTLE (R288): LEVEL [1:0]; CAUSE [7:2]. -/
def fxgThrottle : RegD :=
  { name := "FXG_THROTTLE", kind := .fxg, off := 0x50, dims := [], dom := .aon, writer := .any,
    fields := [⟨1, 0, .ro, 0⟩, ⟨7, 2, .ro, 0⟩] }

/-- FXG_RST_STAT (R544): STATE [2:0]; LEVEL [5:3]; TARGET [19:6]; CAUSE [23:20]; RESULT [25:24]; COUNT [63:32]. -/
def fxgRstStat : RegD :=
  { name := "FXG_RST_STAT", kind := .fxg, off := 0x60, dims := [], dom := .aon, writer := .any,
    fields := [⟨2, 0, .ro, 0⟩, ⟨5, 3, .ro, 0⟩, ⟨19, 6, .ro, 0⟩, ⟨23, 20, .ro, 0⟩, ⟨25, 24, .ro, 0⟩, ⟨63, 32, .ro, 0⟩] }

/-- FXG_RST_LAST (R544): CAUSE [3:0]; L4 [4:4]; LC [63:8]. -/
def fxgRstLast : RegD :=
  { name := "FXG_RST_LAST", kind := .fxg, off := 0x68, dims := [], dom := .aon, writer := .any,
    fields := [⟨3, 0, .ro, 0⟩, ⟨4, 4, .ro, 0⟩, ⟨63, 8, .ro, 0⟩] }

/-- FXG_PWR_LIM (R589): P_MAX [15:0]; TJ_MAX [23:16]. -/
def fxgPwrLim : RegD :=
  { name := "FXG_PWR_LIM", kind := .fxg, off := 0x70, dims := [], dom := .aon, writer := .any,
    fields := [⟨15, 0, .fg, 0x866⟩, ⟨23, 16, .fg, 0x69⟩] }

/-- FXG_DIE_RATE (R288): RATE [15:0]; STOPPED [16:16]. -/
def fxgDieRate : RegD :=
  { name := "FXG_DIE_RATE", kind := .fxg, off := 0x100, dims := [(16, 8)], dom := .aon, writer := .any,
    fields := [⟨15, 0, .ro, 0⟩, ⟨16, 16, .ro, 0⟩] }

/-- FXG_CL_STATE (R288): ENTRY [7:0]; TYPE [9:8]; OCC [11:10]; PARTITION [17:12]; WITHDRAWN [18:18]; ABORTS [63:32].
-/
def fxgClState : RegD :=
  { name := "FXG_CL_STATE", kind := .fxg, off := 0x1000, dims := [(128, 0x10)], dom := .aon, writer := .any,
    fields := [⟨7, 0, .ro, 0⟩, ⟨9, 8, .ro, 2⟩, ⟨11, 10, .ro, 0⟩, ⟨17, 12, .ro, 0⟩, ⟨18, 18, .ro, 0⟩, ⟨63, 32, .ro, 0⟩] }

/-- FXG_CL_EDGE (R288): EDGE [63:0]. -/
def fxgClEdge : RegD :=
  { name := "FXG_CL_EDGE", kind := .fxg, off := 0x1008, dims := [(128, 0x10)], dom := .aon, writer := .any,
    fields := [⟨63, 0, .ro, 0⟩] }

/-- FXG_PT_CFG (R288): ENABLE [0:0]; EXACT [1:1]; MAX_CL [15:8]; IN_USE [47:32]. -/
def fxgPtCfg : RegD :=
  { name := "FXG_PT_CFG", kind := .fxg, off := 0x4000, dims := [(64, 0x80)], dom := .aon, writer := .any,
    fields := [⟨0, 0, .fg, 0⟩, ⟨1, 1, .fg, 0⟩, ⟨15, 8, .fg, 0⟩, ⟨47, 32, .ro, 0⟩] }

/-- FXG_PT_DECL (R288): COUNT [63:0]. -/
def fxgPtDecl : RegD :=
  { name := "FXG_PT_DECL", kind := .fxg, off := 0x4008, dims := [(64, 0x80)], dom := .aon, writer := .any,
    fields := [⟨63, 0, .ro, 0⟩] }

/-- FXG_PT_TIME (R288): COUNT [63:0]. -/
def fxgPtTime : RegD :=
  { name := "FXG_PT_TIME", kind := .fxg, off := 0x4010, dims := [(64, 0x80)], dom := .aon, writer := .any,
    fields := [⟨63, 0, .ro, 0⟩] }

/-- FXG_PT_STRETCH (R288): COUNT [63:0]. -/
def fxgPtStretch : RegD :=
  { name := "FXG_PT_STRETCH", kind := .fxg, off := 0x4018, dims := [(64, 0x80)], dom := .aon, writer := .any,
    fields := [⟨63, 0, .ro, 0⟩] }

/-- FXG_PT_CONFLICT (R288): COUNT [63:0]. -/
def fxgPtConflict : RegD :=
  { name := "FXG_PT_CONFLICT", kind := .fxg, off := 0x4020, dims := [(64, 0x80)], dom := .aon, writer := .any,
    fields := [⟨63, 0, .ro, 0⟩] }

/-- FXG_PT_HBM (R288): COUNT [63:0]. -/
def fxgPtHbm : RegD :=
  { name := "FXG_PT_HBM", kind := .fxg, off := 0x4028, dims := [(64, 0x80)], dom := .aon, writer := .any,
    fields := [⟨63, 0, .ro, 0⟩] }

/-- FXG_PT_WAIT (R288): COUNT [63:0]. -/
def fxgPtWait : RegD :=
  { name := "FXG_PT_WAIT", kind := .fxg, off := 0x4030, dims := [(64, 0x80)], dom := .aon, writer := .any,
    fields := [⟨63, 0, .ro, 0⟩] }

/-- FXG_PT_SAVED (R288): COUNT [63:0]. -/
def fxgPtSaved : RegD :=
  { name := "FXG_PT_SAVED", kind := .fxg, off := 0x4038, dims := [(64, 0x80)], dom := .aon, writer := .any,
    fields := [⟨63, 0, .ro, 0⟩] }

/-- FXG_PT_ABORT_CYC (R288): COUNT [63:0]. -/
def fxgPtAbortCyc : RegD :=
  { name := "FXG_PT_ABORT_CYC", kind := .fxg, off := 0x4040, dims := [(64, 0x80)], dom := .aon, writer := .any,
    fields := [⟨63, 0, .ro, 0⟩] }

/-- FXG_PT_COUNTS (R288): COMMITS [31:0]; ABORTS [63:32]. -/
def fxgPtCounts : RegD :=
  { name := "FXG_PT_COUNTS", kind := .fxg, off := 0x4048, dims := [(64, 0x80)], dom := .aon, writer := .any,
    fields := [⟨31, 0, .ro, 0⟩, ⟨63, 32, .ro, 0⟩] }

/-- FXG_PT_NDET (R477): TOTAL [31:0]; STEPS [63:32]. -/
def fxgPtNdet : RegD :=
  { name := "FXG_PT_NDET", kind := .fxg, off := 0x4050, dims := [(64, 0x80)], dom := .aon, writer := .any,
    fields := [⟨31, 0, .ro, 0⟩, ⟨63, 32, .ro, 0⟩] }

/-- FXG_ADMIN_LIST (R288): ENTRIES [63:0]. -/
def fxgAdminList : RegD :=
  { name := "FXG_ADMIN_LIST", kind := .fxg, off := 0x40000, dims := [(128, 0x400), (128, 8)], dom := .aon, writer := .any,
    fields := [⟨63, 0, .fg, 0⟩] }

/-- FXG_OPER_LIST (R288): ENTRIES [63:0]. -/
def fxgOperList : RegD :=
  { name := "FXG_OPER_LIST", kind := .fxg, off := 0x60000, dims := [(128, 0x400), (128, 8)], dom := .aon, writer := .any,
    fields := [⟨63, 0, .fg, 0⟩] }

/-- IRS_SEQ_STATE (R127): CTX_STATE [11:0]; RUNNING [26:24]; STEP_ACTIVE [27:27]; DONE [28:28]; EXACT [29:29]. -/
def irsSeqState : RegD :=
  { name := "IRS_SEQ_STATE", kind := .irs, off := 0x20000, dims := [(48, 0x400)], dom := .dsp, writer := .any,
    fields := [⟨11, 0, .ro, 0⟩, ⟨26, 24, .ro, 0⟩, ⟨27, 27, .ro, 0⟩, ⟨28, 28, .ro, 0⟩, ⟨29, 29, .ro, 0⟩] }

/-- IRS_SEQ_CYCLES (R127): CYCLES [47:0]. -/
def irsSeqCycles : RegD :=
  { name := "IRS_SEQ_CYCLES", kind := .irs, off := 0x20008, dims := [(48, 0x400)], dom := .dsp, writer := .any,
    fields := [⟨47, 0, .ro, 0⟩] }

/-- IRS_SEQ_FREEZE (R127): UNSCHED [31:0]; OWN [63:32]. -/
def irsSeqFreeze : RegD :=
  { name := "IRS_SEQ_FREEZE", kind := .irs, off := 0x20010, dims := [(48, 0x400)], dom := .dsp, writer := .any,
    fields := [⟨31, 0, .ro, 0⟩, ⟨63, 32, .ro, 0⟩] }

/-- IRS_SEQ_SWITCH (R127): SWITCHES [31:0]; IDLE [63:32]. -/
def irsSeqSwitch : RegD :=
  { name := "IRS_SEQ_SWITCH", kind := .irs, off := 0x20018, dims := [(48, 0x400)], dom := .dsp, writer := .any,
    fields := [⟨31, 0, .ro, 0⟩, ⟨63, 32, .ro, 0⟩] }

/-- IRS_SEQ_DECLARED (R127): DECLARED [39:0]. -/
def irsSeqDeclared : RegD :=
  { name := "IRS_SEQ_DECLARED", kind := .irs, off := 0x20020, dims := [(48, 0x400)], dom := .dsp, writer := .any,
    fields := [⟨39, 0, .ro, 0⟩] }

/-- IRS_SEQ_FAULT (R138): CODE [7:0]; CTX [10:8]; PC [21:11]; SLOT [26:24]; VALID [27:27]; PRECISE [28:28]. -/
def irsSeqFault : RegD :=
  { name := "IRS_SEQ_FAULT", kind := .irs, off := 0x20028, dims := [(48, 0x400)], dom := .dsp, writer := .any,
    fields := [⟨7, 0, .ro, 0⟩, ⟨10, 8, .ro, 0⟩, ⟨21, 11, .ro, 0⟩, ⟨26, 24, .ro, 0⟩, ⟨27, 27, .ro, 0⟩, ⟨28, 28, .ro, 0⟩] }

/-- IRS_SEQ_FADDR (R138): ADDR [63:0]. -/
def irsSeqFaddr : RegD :=
  { name := "IRS_SEQ_FADDR", kind := .irs, off := 0x20030, dims := [(48, 0x400)], dom := .dsp, writer := .any,
    fields := [⟨63, 0, .ro, 0⟩] }

/-- IRS_SEQ_PC (R127): PC [10:0]; LOOP_DEPTH [19:16]. -/
def irsSeqPc : RegD :=
  { name := "IRS_SEQ_PC", kind := .irs, off := 0x20040, dims := [(48, 0x400), (4, 8)], dom := .dsp, writer := .any,
    fields := [⟨10, 0, .ro, 0⟩, ⟨19, 16, .ro, 0⟩] }

/-- IRS_SEQ_WAIT (R127): REMOTE [31:0]; TOKEN [63:32]. -/
def irsSeqWait : RegD :=
  { name := "IRS_SEQ_WAIT", kind := .irs, off := 0x20080, dims := [(48, 0x400), (4, 8)], dom := .dsp, writer := .any,
    fields := [⟨31, 0, .ro, 0⟩, ⟨63, 32, .ro, 0⟩] }

/-- IRS_TOKEN (R127): COUNT [15:0]; SAT [16:16]. -/
def irsToken : RegD :=
  { name := "IRS_TOKEN", kind := .irs, off := 0x20100, dims := [(48, 0x400), (64, 8)], dom := .dsp, writer := .any,
    fields := [⟨15, 0, .ro, 0⟩, ⟨16, 16, .w1c, 0⟩] }

/-- IRS_CORE_IMG (R333): IMAGE [47:0]; MODE [48:48]; TIMER [51:49]; GO [52:52]. -/
def irsCoreImg : RegD :=
  { name := "IRS_CORE_IMG", kind := .irs, off := 0x20300, dims := [(48, 0x400)], dom := .dsp, writer := .p0,
    fields := [⟨47, 0, .rw, 0⟩, ⟨48, 48, .rw, 0⟩, ⟨51, 49, .rw, 0⟩, ⟨52, 52, .wo, 0⟩] }

/-- IRS_CORE_ARG (R333): ARG [63:0]. -/
def irsCoreArg : RegD :=
  { name := "IRS_CORE_ARG", kind := .irs, off := 0x20308, dims := [(48, 0x400)], dom := .dsp, writer := .p0,
    fields := [⟨63, 0, .rw, 0⟩] }

/-- IRS_CORE_IMGST (R333): STATE [2:0]; OVR [47:16]. -/
def irsCoreImgst : RegD :=
  { name := "IRS_CORE_IMGST", kind := .irs, off := 0x20310, dims := [(48, 0x400)], dom := .dsp, writer := .p0,
    fields := [⟨2, 0, .ro, 0⟩, ⟨47, 16, .ro, 0⟩] }

/-- IRS_DBG_BP (R571): EN [0:0]; ACTION [2:1]; CTXMASK [10:3]; BUNDLE [23:11]; ONCE [24:24]; HITS [63:32]. -/
def irsDbgBp : RegD :=
  { name := "IRS_DBG_BP", kind := .irs, off := 0x20380, dims := [(48, 0x400), (8, 8)], dom := .dsp, writer := .dbg2,
    fields := [⟨0, 0, .rw, 0⟩, ⟨2, 1, .rw, 0⟩, ⟨10, 3, .rw, 0⟩, ⟨23, 11, .rw, 0⟩, ⟨24, 24, .rw, 0⟩, ⟨63, 32, .ro, 0⟩] }

/-- IRS_DBG_CTL (R571): HALTED [0:0]; CAUSE [3:1]; INDEX [6:4]. -/
def irsDbgCtl : RegD :=
  { name := "IRS_DBG_CTL", kind := .irs, off := 0x203C0, dims := [(48, 0x400)], dom := .dsp, writer := .any,
    fields := [⟨0, 0, .ro, 0⟩, ⟨3, 1, .ro, 0⟩, ⟨6, 4, .ro, 0⟩] }

/-- IRS_DBG_HALTCYC (R571): CYCLES [63:0]. -/
def irsDbgHaltcyc : RegD :=
  { name := "IRS_DBG_HALTCYC", kind := .irs, off := 0x203C8, dims := [(48, 0x400)], dom := .dsp, writer := .any,
    fields := [⟨63, 0, .ro, 0⟩] }

/-- IRS_CLK_STR (R453): CYCLES [31:0]; EXTRA [63:32]. -/
def irsClkStr : RegD :=
  { name := "IRS_CLK_STR", kind := .irs, off := 0xF000, dims := [], dom := .dsp, writer := .any,
    fields := [⟨31, 0, .rw, 0⟩, ⟨63, 32, .rw, 0⟩] }

/-- IRS_CLK_STOP (R453): STOPS [15:0]; STOP_NS [63:16]. -/
def irsClkStop : RegD :=
  { name := "IRS_CLK_STOP", kind := .irs, off := 0xF008, dims := [], dom := .dsp, writer := .any,
    fields := [⟨15, 0, .rw, 0⟩, ⟨63, 16, .rw, 0⟩] }

/-- IRS_EQ (R332): OUTSTANDING [4:0]; KIND [11:8]; GATE [12:12]; SAT [13:13]; TOKEN [29:14]; JOBS [63:32]. -/
def irsEq : RegD :=
  { name := "IRS_EQ", kind := .irs, off := 0x10000, dims := [(64, 8)], dom := .eng, writer := .p0,
    fields := [⟨4, 0, .ro, 0⟩, ⟨11, 8, .ro, 0⟩, ⟨12, 12, .rw, 0⟩, ⟨13, 13, .w1c, 0⟩, ⟨29, 14, .ro, 0⟩, ⟨63, 32, .ro, 0⟩] }

/-- IRS_LDPC_STAT (R332): BLOCKS [31:0]; EARLY [63:32]. -/
def irsLdpcStat : RegD :=
  { name := "IRS_LDPC_STAT", kind := .irs, off := 0x10200, dims := [], dom := .eng, writer := .p0,
    fields := [⟨31, 0, .ro, 0⟩, ⟨63, 32, .ro, 0⟩] }

/-- IRS_LDPC_FAIL (R332): NOPASS [31:0]; MISSING [63:32]. -/
def irsLdpcFail : RegD :=
  { name := "IRS_LDPC_FAIL", kind := .irs, off := 0x10208, dims := [], dom := .eng, writer := .p0,
    fields := [⟨31, 0, .ro, 0⟩, ⟨63, 32, .ro, 0⟩] }

/-- IRS_SRAM_ECC (R332): CORR [31:0]; UNCORR [63:32]. -/
def irsSramEcc : RegD :=
  { name := "IRS_SRAM_ECC", kind := .irs, off := 0x10210, dims := [], dom := .eng, writer := .p0,
    fields := [⟨31, 0, .rw, 0⟩, ⟨63, 32, .rw, 0⟩] }

/-- IRS_SRAM_ERRADDR (R332): OFFSET [47:0]; VALID [63:63]. -/
def irsSramErraddr : RegD :=
  { name := "IRS_SRAM_ERRADDR", kind := .irs, off := 0x10218, dims := [], dom := .eng, writer := .p0,
    fields := [⟨47, 0, .ro, 0⟩, ⟨63, 63, .w1c, 0⟩] }

/-- IRS_STIMER_CFG (R332): PERIOD_NS [23:0]; TOKEN [29:24]; EN [31:31]. -/
def irsStimerCfg : RegD :=
  { name := "IRS_STIMER_CFG", kind := .irs, off := 0x10400, dims := [(8, 0x20)], dom := .eng, writer := .p0,
    fields := [⟨23, 0, .rw, 0⟩, ⟨29, 24, .rw, 0⟩, ⟨31, 31, .rw, 0⟩] }

/-- IRS_STIMER_PHASE (R332): PHASE_NS [63:0]. -/
def irsStimerPhase : RegD :=
  { name := "IRS_STIMER_PHASE", kind := .irs, off := 0x10408, dims := [(8, 0x20)], dom := .eng, writer := .p0,
    fields := [⟨63, 0, .rw, 0⟩] }

/-- IRS_STIMER_CORES (R332): CORES [47:0]. -/
def irsStimerCores : RegD :=
  { name := "IRS_STIMER_CORES", kind := .irs, off := 0x10410, dims := [(8, 0x20)], dom := .eng, writer := .p0,
    fields := [⟨47, 0, .rw, 0⟩] }

/-- IRS_STIMER_COUNT (R332): TICKS [63:0]. -/
def irsStimerCount : RegD :=
  { name := "IRS_STIMER_COUNT", kind := .irs, off := 0x10418, dims := [(8, 0x20)], dom := .eng, writer := .p0,
    fields := [⟨63, 0, .ro, 0⟩] }

/-- CRK_PORT_CFG (R366): QUAD_MODE [7:0]; PORT_EN [23:8]; FRAME_MAX [37:24]; RX_MIB [43:38]. -/
def crkPortCfg : RegD :=
  { name := "CRK_PORT_CFG", kind := .crk, off := 0x10000, dims := [], dom := .port, writer := .p0,
    fields := [⟨7, 0, .rw, 0xff⟩, ⟨23, 8, .rw, 0⟩, ⟨37, 24, .rw, 0x2400⟩, ⟨43, 38, .rw, 0x20⟩] }

/-- CRK_SPARE_CMD (R366): LANE [3:0]; SPARE [4:4]; GO [8:8]. -/
def crkSpareCmd : RegD :=
  { name := "CRK_SPARE_CMD", kind := .crk, off := 0x10008, dims := [], dom := .port, writer := .p0,
    fields := [⟨3, 0, .wo, 0⟩, ⟨4, 4, .wo, 0⟩, ⟨8, 8, .wo, 0⟩] }

/-- CRK_LANE (R366): PHYS [4:0]; UP [5:5]; FEC_UNCORR [63:32]. -/
def crkLane : RegD :=
  { name := "CRK_LANE", kind := .crk, off := 0x10100, dims := [(16, 8)], dom := .port, writer := .p0,
    fields := [⟨4, 0, .ro, 0⟩, ⟨5, 5, .ro, 0⟩, ⟨63, 32, .ro, 0⟩], shape := 1 }

/-- CRK_PORT_CNT (R366): DROPPED [31:0]; UNKNOWN_FLOW [63:32]. -/
def crkPortCnt : RegD :=
  { name := "CRK_PORT_CNT", kind := .crk, off := 0x10200, dims := [(16, 8)], dom := .fe, writer := .p0,
    fields := [⟨31, 0, .rw, 0⟩, ⟨63, 32, .rw, 0⟩] }

/-- CRK_AGC_CFG (R366): TARGET [11:0]; ATTACK [19:12]; KLOOP [27:20]; UP_MAX [35:28]; CLIP_LIMIT [43:36]; RISE
[51:44]; HOLD [55:52]; FRZ_ATTACK [59:56]. -/
def crkAgcCfg : RegD :=
  { name := "CRK_AGC_CFG", kind := .crk, off := 0x10400, dims := [], dom := .fe, writer := .p0,
    fields := [⟨11, 0, .rw, 0xee0⟩, ⟨19, 12, .rw, 0xc0⟩, ⟨27, 20, .rw, 0x80⟩, ⟨35, 28, .rw, 0x10⟩, ⟨43, 36, .rw, 8⟩, ⟨51, 44, .rw, 0xa0⟩, ⟨55, 52, .rw, 2⟩, ⟨59, 56, .rw, 1⟩] }

/-- CRK_FLOW (R366): VALID [0:0]; DIR [1:1]; MODE [3:2]; PORT [7:4]; VLAN [19:8]; PC_ID [35:20]; CELL [44:36]; STREAM
[49:45]; IRIS [51:50]; NPRB [60:52]; COMP [63:61]. -/
def crkFlow : RegD :=
  { name := "CRK_FLOW", kind := .crk, off := 0x100000, dims := [(4096, 0x20)], dom := .fe, writer := .p0,
    fields := [⟨0, 0, .rw, 0⟩, ⟨1, 1, .rw, 0⟩, ⟨3, 2, .rw, 0⟩, ⟨7, 4, .rw, 0⟩, ⟨19, 8, .rw, 0xfff⟩, ⟨35, 20, .rw, 0⟩, ⟨44, 36, .rw, 0⟩, ⟨49, 45, .rw, 0⟩, ⟨51, 50, .rw, 0⟩, ⟨60, 52, .rw, 0⟩, ⟨63, 61, .rw, 0⟩] }

/-- CRK_FLOW_WIN (R366): BASE [24:0]; LEN [43:25]; TOK [44:44]; TARGET [60:45]. -/
def crkFlowWin : RegD :=
  { name := "CRK_FLOW_WIN", kind := .crk, off := 0x100008, dims := [(4096, 0x20)], dom := .fe, writer := .p0,
    fields := [⟨24, 0, .rw, 0⟩, ⟨43, 25, .rw, 0⟩, ⟨44, 44, .rw, 0⟩, ⟨60, 45, .rw, 0⟩] }

/-- CRK_FLOW_TIME (R366): OPEN_NS [31:0]; CLOSE_NS [63:32]. -/
def crkFlowTime : RegD :=
  { name := "CRK_FLOW_TIME", kind := .crk, off := 0x100010, dims := [(4096, 0x20)], dom := .fe, writer := .p0,
    fields := [⟨31, 0, .rw, 0⟩, ⟨63, 32, .rw, 0⟩] }

/-- CRK_FLOW_CNT (R366): LATE [15:0]; EARLY [31:16]; SRC_LATE [47:32]; BAD_FORMAT [63:48]. -/
def crkFlowCnt : RegD :=
  { name := "CRK_FLOW_CNT", kind := .crk, off := 0x100018, dims := [(4096, 0x20)], dom := .fe, writer := .p0,
    fields := [⟨15, 0, .rw, 0⟩, ⟨31, 16, .rw, 0⟩, ⟨47, 32, .rw, 0⟩, ⟨63, 48, .rw, 0⟩] }

/-- CRK_PATH_CFG (R366): FLOW [11:0]; EN [12:12]; D [15:13]; FIR [20:16]; MASTER [21:21]; BH [22:22]; VBFP [23:23];
F_RF [49:24]. -/
def crkPathCfg : RegD :=
  { name := "CRK_PATH_CFG", kind := .crk, off := 0x200000, dims := [(1024, 0x40)], dom := .fe, writer := .p0,
    fields := [⟨11, 0, .rw, 0⟩, ⟨12, 12, .rw, 0⟩, ⟨15, 13, .rw, 0⟩, ⟨20, 16, .rw, 0⟩, ⟨21, 21, .rw, 0⟩, ⟨22, 22, .rw, 0⟩, ⟨23, 23, .rw, 0⟩, ⟨49, 24, .rw, 0⟩] }

/-- CRK_PATH_WIN (R366): BASE [24:0]; LEN [43:25]; TOK [44:44]; TARGET [60:45]. -/
def crkPathWin : RegD :=
  { name := "CRK_PATH_WIN", kind := .crk, off := 0x200008, dims := [(1024, 0x40)], dom := .fe, writer := .p0,
    fields := [⟨24, 0, .rw, 0⟩, ⟨43, 25, .rw, 0⟩, ⟨44, 44, .rw, 0⟩, ⟨60, 45, .rw, 0⟩] }

/-- CRK_PATH_MWIN (R366): BASE [24:0]; LEN [43:25]; TOK [44:44]; TARGET [60:45]. -/
def crkPathMwin : RegD :=
  { name := "CRK_PATH_MWIN", kind := .crk, off := 0x200010, dims := [(1024, 0x40)], dom := .fe, writer := .p0,
    fields := [⟨24, 0, .rw, 0⟩, ⟨43, 25, .rw, 0⟩, ⟨44, 44, .rw, 0⟩, ⟨60, 45, .rw, 0⟩] }

/-- CRK_PATH_AGC (R366): G [15:0]; P [31:16]; FROZEN [34:32]; CLIPS [47:35]; STALE [63:48]. -/
def crkPathAgc : RegD :=
  { name := "CRK_PATH_AGC", kind := .crk, off := 0x200018, dims := [(1024, 0x40)], dom := .fe, writer := .p0,
    fields := [⟨15, 0, .ro, 0⟩, ⟨31, 16, .ro, 0⟩, ⟨34, 32, .ro, 0⟩, ⟨47, 35, .ro, 0⟩, ⟨63, 48, .ro, 0⟩] }

/-- CRK_PATH_OFS (R366): FCORR [19:0]; TCORR [31:20]; AVG [37:32]; EXT [38:38]; LIMIT [39:39]; RANGE [40:40]. -/
def crkPathOfs : RegD :=
  { name := "CRK_PATH_OFS", kind := .crk, off := 0x200020, dims := [(1024, 0x40)], dom := .fe, writer := .p0,
    fields := [⟨19, 0, .ro, 0⟩, ⟨31, 20, .ro, 0⟩, ⟨37, 32, .rw, 8⟩, ⟨38, 38, .rw, 0⟩, ⟨39, 39, .ro, 0⟩, ⟨40, 40, .ro, 0⟩] }

/-- CRK_PATH_EXT (R366): FO [31:0]; TO [47:32]. -/
def crkPathExt : RegD :=
  { name := "CRK_PATH_EXT", kind := .crk, off := 0x200028, dims := [(1024, 0x40)], dom := .fe, writer := .p0,
    fields := [⟨31, 0, .rw, 0⟩, ⟨47, 32, .rw, 0⟩] }

/-- CRK_PATH_NCO (R366): NCO [31:0]; DPREF [43:32]. -/
def crkPathNco : RegD :=
  { name := "CRK_PATH_NCO", kind := .crk, off := 0x200030, dims := [(1024, 0x40)], dom := .fe, writer := .p0,
    fields := [⟨31, 0, .rw, 0⟩, ⟨43, 32, .rw, 0⟩] }

/-- CRK_FRZ (R366): INSTANT [63:0]. -/
def crkFrz : RegD :=
  { name := "CRK_FRZ", kind := .crk, off := 0x300000, dims := [(512, 0x100), (32, 8)], dom := .fe, writer := .p0,
    fields := [⟨63, 0, .rw, 0⟩] }

/-- CRK_FIR (R366): C0 [17:0]; C1 [49:32]. -/
def crkFir : RegD :=
  { name := "CRK_FIR", kind := .crk, off := 0x400000, dims := [(32, 0x200), (48, 8)], dom := .fe, writer := .p0,
    fields := [⟨17, 0, .rw, 0⟩, ⟨49, 32, .rw, 0⟩] }

/-- CRK_FPOL (R390): RATE [31:0]; BURST [55:32]; EN [56:56]. -/
def crkFpol : RegD :=
  { name := "CRK_FPOL", kind := .crk, off := 0x500000, dims := [(4096, 0x10)], dom := .port, writer := .p0,
    fields := [⟨31, 0, .rw, 0⟩, ⟨55, 32, .rw, 0⟩, ⟨56, 56, .rw, 0⟩] }

/-- CRK_FPOL_CNT (R390): PASS [31:0]; DROP [63:32]. -/
def crkFpolCnt : RegD :=
  { name := "CRK_FPOL_CNT", kind := .crk, off := 0x500008, dims := [(4096, 0x10)], dom := .port, writer := .p0,
    fields := [⟨31, 0, .rw, 0⟩, ⟨63, 32, .rw, 0⟩] }

/-- CRK_PPOL (R390): RATE [31:0]; BURST [55:32]; EN [56:56]. -/
def crkPpol : RegD :=
  { name := "CRK_PPOL", kind := .crk, off := 0x510000, dims := [(16, 0x10)], dom := .port, writer := .p0,
    fields := [⟨31, 0, .rw, 0⟩, ⟨55, 32, .rw, 0⟩, ⟨56, 56, .rw, 0⟩] }

/-- CRK_PPOL_CNT (R390): PASS [31:0]; DROP [63:32]. -/
def crkPpolCnt : RegD :=
  { name := "CRK_PPOL_CNT", kind := .crk, off := 0x510008, dims := [(16, 0x10)], dom := .port, writer := .p0,
    fields := [⟨31, 0, .rw, 0⟩, ⟨63, 32, .rw, 0⟩] }

/-- CRK_MTR (R390): CIR [31:0]; CBS [55:32]. -/
def crkMtr : RegD :=
  { name := "CRK_MTR", kind := .crk, off := 0x510200, dims := [(4, 0x20)], dom := .port, writer := .p0,
    fields := [⟨31, 0, .rw, 0⟩, ⟨55, 32, .rw, 0⟩] }

/-- CRK_MTR_W1 (R390): PIR [31:0]; PBS [55:32]; EN [56:56]. -/
def crkMtrW1 : RegD :=
  { name := "CRK_MTR_W1", kind := .crk, off := 0x510208, dims := [(4, 0x20)], dom := .port, writer := .p0,
    fields := [⟨31, 0, .rw, 0⟩, ⟨55, 32, .rw, 0⟩, ⟨56, 56, .rw, 0⟩] }

/-- CRK_MTR_W2 (R390): GREEN [31:0]; YELLOW [63:32]. -/
def crkMtrW2 : RegD :=
  { name := "CRK_MTR_W2", kind := .crk, off := 0x510210, dims := [(4, 0x20)], dom := .port, writer := .p0,
    fields := [⟨31, 0, .rw, 0⟩, ⟨63, 32, .rw, 0⟩] }

/-- CRK_MTR_W3 (R390): RED [31:0]; YIDLE [63:32]. -/
def crkMtrW3 : RegD :=
  { name := "CRK_MTR_W3", kind := .crk, off := 0x510218, dims := [(4, 0x20)], dom := .port, writer := .p0,
    fields := [⟨31, 0, .rw, 0⟩, ⟨63, 32, .rw, 0⟩] }

/-- CRK_TC_CFG (R390): YEL_FILL [7:0]. -/
def crkTcCfg : RegD :=
  { name := "CRK_TC_CFG", kind := .crk, off := 0x510300, dims := [], dom := .port, writer := .p0,
    fields := [⟨7, 0, .rw, 0x80⟩] }

/-- CRK_GATE_CFG (R390): CYCLE_NS [23:0]; EN [24:24]; GO [25:25]; ERR [26:26]. -/
def crkGateCfg : RegD :=
  { name := "CRK_GATE_CFG", kind := .crk, off := 0x520000, dims := [(16, 0x400)], dom := .port, writer := .p0,
    fields := [⟨23, 0, .rw, 0⟩, ⟨24, 24, .rw, 0⟩, ⟨25, 25, .w1s, 0⟩, ⟨26, 26, .ro, 0⟩] }

/-- CRK_GATE_BASE (R390): BASE [63:0]. -/
def crkGateBase : RegD :=
  { name := "CRK_GATE_BASE", kind := .crk, off := 0x520008, dims := [(16, 0x400)], dom := .port, writer := .p0,
    fields := [⟨63, 0, .rw, 0⟩] }

/-- CRK_GATE_CNT (R390): OVERSIZE [31:0]; WAITS [63:32]. -/
def crkGateCnt : RegD :=
  { name := "CRK_GATE_CNT", kind := .crk, off := 0x520010, dims := [(16, 0x400)], dom := .port, writer := .p0,
    fields := [⟨31, 0, .rw, 0⟩, ⟨63, 32, .rw, 0⟩] }

/-- CRK_GATE_ADMIN (R390): ENTRIES [63:0]. -/
def crkGateAdmin : RegD :=
  { name := "CRK_GATE_ADMIN", kind := .crk, off := 0x520100, dims := [(16, 0x400), (32, 8)], dom := .port, writer := .p0,
    fields := [⟨63, 0, .rw, 0⟩] }

/-- CRK_GATE_OPER (R390): ENTRIES [63:0]. -/
def crkGateOper : RegD :=
  { name := "CRK_GATE_OPER", kind := .crk, off := 0x520200, dims := [(16, 0x400), (32, 8)], dom := .port, writer := .p0,
    fields := [⟨63, 0, .ro, 0⟩], shape := 3 }

/-- CRK_TS_CORR (R454): INGRESS [15:0]; EGRESS [31:16]. -/
def crkTsCorr : RegD :=
  { name := "CRK_TS_CORR", kind := .crk, off := 0x600000, dims := [(16, 8)], dom := .port, writer := .p0,
    fields := [⟨15, 0, .rw, 0⟩, ⟨31, 16, .rw, 0⟩] }

/-- LPN_NODE (R428): NODE_ID [15:0]; INCARN [23:16]; LOCK [24:24]; UP [25:25]. -/
def lpnNode : RegD :=
  { name := "LPN_NODE", kind := .lpn, off := 0x10000, dims := [], dom := .lpnw, writer := .p0,
    fields := [⟨15, 0, .rwl, 0xffff⟩, ⟨23, 16, .rwl, 0⟩, ⟨24, 24, .w1s, 0⟩, ⟨25, 25, .ro, 0⟩] }

/-- LPN_MIRROR_CMD (R428): REGION [11:0]; OP [15:12]; GO [16:16]. -/
def lpnMirrorCmd : RegD :=
  { name := "LPN_MIRROR_CMD", kind := .lpn, off := 0x10008, dims := [], dom := .lpn, writer := .p0,
    fields := [⟨11, 0, .wo, 0⟩, ⟨15, 12, .wo, 0⟩, ⟨16, 16, .wo, 0⟩] }

/-- LPN_RCPT (R428): IN_USE [16:0]; PEAK [33:17]; FULL [63:34]. -/
def lpnRcpt : RegD :=
  { name := "LPN_RCPT", kind := .lpn, off := 0x10010, dims := [], dom := .lpn, writer := .p0,
    fields := [⟨16, 0, .ro, 0⟩, ⟨33, 17, .rw, 0⟩, ⟨63, 34, .rw, 0⟩] }

/-- LPN_RCPT2 (R428): HITS [31:0]; TTL_DROPS [63:32]. -/
def lpnRcpt2 : RegD :=
  { name := "LPN_RCPT2", kind := .lpn, off := 0x10018, dims := [], dom := .lpn, writer := .p0,
    fields := [⟨31, 0, .rw, 0⟩, ⟨63, 32, .rw, 0⟩] }

/-- LPN_HOTSTAT (R428): TRACKED [8:0]; BUSY [47:16]; TOKEN [63:48]. -/
def lpnHotstat : RegD :=
  { name := "LPN_HOTSTAT", kind := .lpn, off := 0x10020, dims := [], dom := .lpn, writer := .p0,
    fields := [⟨8, 0, .ro, 0⟩, ⟨47, 16, .rw, 0⟩, ⟨63, 48, .rw, 0⟩] }

/-- LPN_REQSTAT (R428): LOSS_RETRIES [31:0]; UNKNOWN [47:32]; LATE [63:48]. -/
def lpnReqstat : RegD :=
  { name := "LPN_REQSTAT", kind := .lpn, off := 0x10028, dims := [], dom := .lpn, writer := .p0,
    fields := [⟨31, 0, .rw, 0⟩, ⟨47, 32, .rw, 0⟩, ⟨63, 48, .rw, 0⟩] }

/-- LPN_REGION (R428): WORD [63:0]. -/
def lpnRegion : RegD :=
  { name := "LPN_REGION", kind := .lpn, off := 0x20000, dims := [(8192, 8)], dom := .lpnw, writer := .p0,
    fields := [⟨63, 0, .rw, 0⟩] }

/-- LPN_ROUTE (R428): E0 [4:0]; V0 [15:15]; E1 [20:16]; V1 [31:31]; E2 [36:32]; V2 [47:47]; E3 [52:48]; V3 [63:63]. -/
def lpnRoute : RegD :=
  { name := "LPN_ROUTE", kind := .lpn, off := 0x100000, dims := [(16384, 8)], dom := .lpnw, writer := .p0,
    fields := [⟨4, 0, .rw, 0⟩, ⟨15, 15, .rw, 0⟩, ⟨20, 16, .rw, 0⟩, ⟨31, 31, .rw, 0⟩, ⟨36, 32, .rw, 0⟩, ⟨47, 47, .rw, 0⟩, ⟨52, 48, .rw, 0⟩, ⟨63, 63, .rw, 0⟩] }

/-- LPN_PEER (R428): E0 [8:0]; E1 [24:16]; E2 [40:32]; E3 [56:48]. -/
def lpnPeer : RegD :=
  { name := "LPN_PEER", kind := .lpn, off := 0x140000, dims := [(16384, 8)], dom := .lpnw, writer := .p0,
    fields := [⟨8, 0, .rw, 0x100⟩, ⟨24, 16, .rw, 0x100⟩, ⟨40, 32, .rw, 0x100⟩, ⟨56, 48, .rw, 0x100⟩] }

/-- LPN_LINK (R428): FIRST [4:0]; WIDTH [6:5]; EN [7:7]; STATE [9:8]. -/
def lpnLink : RegD :=
  { name := "LPN_LINK", kind := .lpn, off := 0x200000, dims := [(8, 0x10)], dom := .lpn, writer := .p0,
    fields := [⟨4, 0, .rw, 0⟩, ⟨6, 5, .rw, 0⟩, ⟨7, 7, .rw, 0⟩, ⟨9, 8, .ro, 0⟩] }

/-- LPN_LINK_CNT (R428): REPLAYS [31:0]; SPARINGS [47:32]; DOWNS [63:48]. -/
def lpnLinkCnt : RegD :=
  { name := "LPN_LINK_CNT", kind := .lpn, off := 0x200008, dims := [(8, 0x10)], dom := .lpn, writer := .p0,
    fields := [⟨31, 0, .rw, 0⟩, ⟨47, 32, .rw, 0⟩, ⟨63, 48, .rw, 0⟩] }

/-- LPN_LANE (R428): ELEC [4:0]; WAVE [7:5]; UP [8:8]; FEC_UNCORR [63:32]. -/
def lpnLane : RegD :=
  { name := "LPN_LANE", kind := .lpn, off := 0x210000, dims := [(24, 8)], dom := .lpn, writer := .p0,
    fields := [⟨4, 0, .ro, 0⟩, ⟨7, 5, .ro, 0⟩, ⟨8, 8, .ro, 0⟩, ⟨63, 32, .ro, 0⟩], shape := 2 }

/-- LPN_MTR (R392): CIR [31:0]; CBS [55:32]. -/
def lpnMtr : RegD :=
  { name := "LPN_MTR", kind := .lpn, off := 0x800000, dims := [(256, 0x20)], dom := .lpn, writer := .p0,
    fields := [⟨31, 0, .rw, 0⟩, ⟨55, 32, .rw, 0⟩] }

/-- LPN_MTR_W1 (R392): PIR [31:0]; PBS [55:32]; EN [56:56]. -/
def lpnMtrW1 : RegD :=
  { name := "LPN_MTR_W1", kind := .lpn, off := 0x800008, dims := [(256, 0x20)], dom := .lpn, writer := .p0,
    fields := [⟨31, 0, .rw, 0⟩, ⟨55, 32, .rw, 0⟩, ⟨56, 56, .rw, 0⟩] }

/-- LPN_MTR_W2 (R392): GREEN [31:0]; YELLOW [63:32]. -/
def lpnMtrW2 : RegD :=
  { name := "LPN_MTR_W2", kind := .lpn, off := 0x800010, dims := [(256, 0x20)], dom := .lpn, writer := .p0,
    fields := [⟨31, 0, .rw, 0⟩, ⟨63, 32, .rw, 0⟩] }

/-- LPN_MTR_W3 (R392): RED [31:0]; YIDLE [63:32]. -/
def lpnMtrW3 : RegD :=
  { name := "LPN_MTR_W3", kind := .lpn, off := 0x800018, dims := [(256, 0x20)], dom := .lpn, writer := .p0,
    fields := [⟨31, 0, .rw, 0⟩, ⟨63, 32, .rw, 0⟩] }

/-- LPN_SHP (R392): RATE [31:0]; BURST [55:32]. -/
def lpnShp : RegD :=
  { name := "LPN_SHP", kind := .lpn, off := 0x802000, dims := [(256, 0x10)], dom := .lpn, writer := .p0,
    fields := [⟨31, 0, .rw, 0⟩, ⟨55, 32, .rw, 0⟩] }

/-- LPN_SHP_CREDIT (R392): CREDIT [39:0]. -/
def lpnShpCredit : RegD :=
  { name := "LPN_SHP_CREDIT", kind := .lpn, off := 0x802008, dims := [(256, 0x10)], dom := .lpn, writer := .p0,
    fields := [⟨39, 0, .ro, 0⟩] }

/-- LPN_TC_CFG (R392): YQ_KIB [15:0]. -/
def lpnTcCfg : RegD :=
  { name := "LPN_TC_CFG", kind := .lpn, off := 0x803000, dims := [], dom := .lpn, writer := .p0,
    fields := [⟨15, 0, .rw, 0x100⟩] }

/-- PHX_FP (R429): LOCKED [4:0]; ASSIGNED [9:5]; LOS [63:32]. -/
def phxFp : RegD :=
  { name := "PHX_FP", kind := .phx, off := 0x10000, dims := [(6, 8)], dom := .phx, writer := .any,
    fields := [⟨4, 0, .ro, 0⟩, ⟨9, 5, .ro, 0xf⟩, ⟨63, 32, .ro, 0⟩] }

/-- PRM_FXG_STAGE_LIST (R259): ENTRIES [63:0]. -/
def prmFxgStageList : RegD :=
  { name := "PRM_FXG_STAGE_LIST", kind := .prm, off := 0x400000, dims := [(128, 0x400), (128, 8)], dom := .core, writer := .p0,
    fields := [⟨63, 0, .rw, 0⟩] }

/-- PRM_FXG_STAGE_HDR0 (R259): NEW_EPOCH [15:0]; CYCLE_NS [39:16]; SETCYCLE [40:40]; PT_VALID [41:41]; NREC [51:42];
CFG_VALID [52:52]. -/
def prmFxgStageHdr0 : RegD :=
  { name := "PRM_FXG_STAGE_HDR0", kind := .prm, off := 0x420000, dims := [], dom := .core, writer := .p0,
    fields := [⟨15, 0, .rw, 0⟩, ⟨39, 16, .rw, 0⟩, ⟨40, 40, .rw, 0⟩, ⟨41, 41, .rw, 0⟩, ⟨51, 42, .rw, 0⟩, ⟨52, 52, .rw, 0⟩] }

/-- PRM_FXG_STAGE_HDR1 (R259): START_NS [63:0]. -/
def prmFxgStageHdr1 : RegD :=
  { name := "PRM_FXG_STAGE_HDR1", kind := .prm, off := 0x420008, dims := [], dom := .core, writer := .p0,
    fields := [⟨63, 0, .rw, 0⟩] }

/-- PRM_FXG_STAGE_MASK (R259): MASK [63:0]. -/
def prmFxgStageMask : RegD :=
  { name := "PRM_FXG_STAGE_MASK", kind := .prm, off := 0x420010, dims := [(2, 8)], dom := .core, writer := .p0,
    fields := [⟨63, 0, .rw, 0⟩] }

/-- PRM_FXG_STAGE_CFG (R259): CFG [63:0]. -/
def prmFxgStageCfg : RegD :=
  { name := "PRM_FXG_STAGE_CFG", kind := .prm, off := 0x420020, dims := [], dom := .core, writer := .p0,
    fields := [⟨63, 0, .rw, 0⟩] }

/-- PRM_FXG_STAGE_PT (R259): SETTING [63:0]. -/
def prmFxgStagePt : RegD :=
  { name := "PRM_FXG_STAGE_PT", kind := .prm, off := 0x420100, dims := [(64, 8)], dom := .core, writer := .p0,
    fields := [⟨63, 0, .rw, 0⟩] }

/-- PRM_FXG_STAGE_REC (R259): RECORD [63:0]. -/
def prmFxgStageRec : RegD :=
  { name := "PRM_FXG_STAGE_REC", kind := .prm, off := 0x421000, dims := [(512, 8)], dom := .core, writer := .p0,
    fields := [⟨63, 0, .rw, 0⟩] }

/-- PRM_FXG_CMD (R290): OP [3:0]; GO [8:8]. -/
def prmFxgCmd : RegD :=
  { name := "PRM_FXG_CMD", kind := .prm, off := 0x430000, dims := [], dom := .aon, writer := .p0,
    fields := [⟨3, 0, .wo, 0⟩, ⟨8, 8, .wo, 0⟩] }

/-- PRM_ASIG0 (R478): SIG_LO [63:0]. -/
def prmAsig0 : RegD :=
  { name := "PRM_ASIG0", kind := .prm, off := 0x440000, dims := [], dom := .pcie, writer := .p0,
    fields := [⟨63, 0, .ro, 0⟩] }

/-- PRM_ASIG1 (R478): SIG_HI [63:0]. -/
def prmAsig1 : RegD :=
  { name := "PRM_ASIG1", kind := .prm, off := 0x440008, dims := [], dom := .pcie, writer := .p0,
    fields := [⟨63, 0, .ro, 0⟩] }

/-- PRM_LS_CFG (R478): EN [0:0]; PARTITION [6:1]; TIMEOUT_MS [25:16]. -/
def prmLsCfg : RegD :=
  { name := "PRM_LS_CFG", kind := .prm, off := 0x440100, dims := [], dom := .pcie, writer := .p0,
    fields := [⟨0, 0, .rw, 0⟩, ⟨6, 1, .rw, 0⟩, ⟨25, 16, .rw, 0xa⟩] }

/-- PRM_LS_PEER (R478): NODE [15:0]; INBOX [63:16]. -/
def prmLsPeer : RegD :=
  { name := "PRM_LS_PEER", kind := .prm, off := 0x440108, dims := [], dom := .pcie, writer := .p0,
    fields := [⟨15, 0, .rw, 0xffff⟩, ⟨63, 16, .rw, 0⟩] }

/-- PRM_LS_INBOX (R478): INBOX [47:0]. -/
def prmLsInbox : RegD :=
  { name := "PRM_LS_INBOX", kind := .prm, off := 0x440110, dims := [], dom := .pcie, writer := .p0,
    fields := [⟨47, 0, .rw, 0⟩] }

/-- PRM_LS_STAT (R478): STATE [1:0]; CAUSE [3:2]; BAD_SEQ [63:32]. -/
def prmLsStat : RegD :=
  { name := "PRM_LS_STAT", kind := .prm, off := 0x440118, dims := [], dom := .pcie, writer := .p0,
    fields := [⟨1, 0, .ro, 0⟩, ⟨3, 2, .ro, 0⟩, ⟨63, 32, .ro, 0⟩] }

/-- PRM_LS_SEQ (R478): NEXT [31:0]; AGREED [63:32]. -/
def prmLsSeq : RegD :=
  { name := "PRM_LS_SEQ", kind := .prm, off := 0x440120, dims := [], dom := .pcie, writer := .p0,
    fields := [⟨31, 0, .ro, 0⟩, ⟨63, 32, .ro, 0⟩] }

/-- PRM_CQ_STAMP (R513): RING [14:0]; SLOT [30:15]; LAT [62:31]. -/
def prmCqStamp : RegD :=
  { name := "PRM_CQ_STAMP", kind := .prm, off := 0x450000, dims := [], dom := .pcie, writer := .p0,
    fields := [⟨14, 0, .wo, 0⟩, ⟨30, 15, .wo, 0⟩, ⟨62, 31, .wo, 0⟩] }

/-- PRM_CQ_TDONE (R513): T_DONE [62:0]. -/
def prmCqTdone : RegD :=
  { name := "PRM_CQ_TDONE", kind := .prm, off := 0x450008, dims := [], dom := .pcie, writer := .p0,
    fields := [⟨62, 0, .wo, 0⟩] }

/-- PRM_LC_CMD (R513): TARGET [2:0]; AUTH [50:3]; GO [51:51]. -/
def prmLcCmd : RegD :=
  { name := "PRM_LC_CMD", kind := .prm, off := 0x450100, dims := [], dom := .pcie, writer := .p0,
    fields := [⟨2, 0, .wo, 0⟩, ⟨50, 3, .wo, 0⟩, ⟨51, 51, .wo, 0⟩] }

/-- PRM_RST_CMD (R543): LEVEL [2:0]; OP [4:3]; HOLD [5:5]; TARGET [21:8]; GO [24:24]. -/
def prmRstCmd : RegD :=
  { name := "PRM_RST_CMD", kind := .prm, off := 0x460000, dims := [], dom := .aon, writer := .p0,
    fields := [⟨2, 0, .wo, 0⟩, ⟨4, 3, .wo, 0⟩, ⟨5, 5, .wo, 0⟩, ⟨21, 8, .wo, 0⟩, ⟨24, 24, .wo, 0⟩] }

/-- PRM_WDOG_CFG (R543): HB_MS [13:0]; HB_EN [14:14]. -/
def prmWdogCfg : RegD :=
  { name := "PRM_WDOG_CFG", kind := .prm, off := 0x460008, dims := [], dom := .aon, writer := .p0,
    fields := [⟨13, 0, .rw, 0x3e8⟩, ⟨14, 14, .rw, 0⟩] }

/-- PRM_WDOG_HB (R543): BEAT [63:0]. -/
def prmWdogHb : RegD :=
  { name := "PRM_WDOG_HB", kind := .prm, off := 0x460010, dims := [], dom := .aon, writer := .p0,
    fields := [⟨63, 0, .wo, 0⟩] }

/-- PRM_DUMP_CMD (R543): DIES [31:0]; CONTENT [34:32]; GO [35:35]. -/
def prmDumpCmd : RegD :=
  { name := "PRM_DUMP_CMD", kind := .prm, off := 0x460100, dims := [], dom := .dbg, writer := .p0,
    fields := [⟨31, 0, .wo, 0⟩, ⟨34, 32, .wo, 0⟩, ⟨35, 35, .wo, 0⟩] }

/-- PRM_DUMP_BUF (R543): ADDR [63:0]. -/
def prmDumpBuf : RegD :=
  { name := "PRM_DUMP_BUF", kind := .prm, off := 0x460108, dims := [], dom := .dbg, writer := .p0,
    fields := [⟨63, 0, .rw, 0⟩] }

/-- PRM_DUMP_CFG (R543): LEN_KIB [31:0]; TMO_US [45:32]. -/
def prmDumpCfg : RegD :=
  { name := "PRM_DUMP_CFG", kind := .prm, off := 0x460110, dims := [], dom := .dbg, writer := .p0,
    fields := [⟨31, 0, .rw, 0⟩, ⟨45, 32, .rw, 0x64⟩] }

/-- PRM_DUMP_STAT (R543): STATE [1:0]; BYTES [47:8]; UNREACHABLE [63:48]. -/
def prmDumpStat : RegD :=
  { name := "PRM_DUMP_STAT", kind := .prm, off := 0x460118, dims := [], dom := .dbg, writer := .p0,
    fields := [⟨1, 0, .ro, 0⟩, ⟨47, 8, .ro, 0⟩, ⟨63, 48, .ro, 0⟩] }

/-- PRM_REPLAY_CMD (R543): CLUSTER [6:0]; SUSPECT [8:7]; GO [9:9]. -/
def prmReplayCmd : RegD :=
  { name := "PRM_REPLAY_CMD", kind := .prm, off := 0x460200, dims := [], dom := .aon, writer := .p0,
    fields := [⟨6, 0, .wo, 0⟩, ⟨8, 7, .wo, 0⟩, ⟨9, 9, .wo, 0⟩] }

/-- PRM_REPLAY_STAT (R543): STATE [1:0]; RESULT [4:2]; CYCLES [55:16]. -/
def prmReplayStat : RegD :=
  { name := "PRM_REPLAY_STAT", kind := .prm, off := 0x460208, dims := [], dom := .aon, writer := .p0,
    fields := [⟨1, 0, .ro, 0⟩, ⟨4, 2, .ro, 0⟩, ⟨55, 16, .ro, 0⟩] }

/-- PRM_DBG_CMD (R570): OP [7:0]; TARGET [21:8]; COUNT [37:22]; FORCE [38:38]. -/
def prmDbgCmd : RegD :=
  { name := "PRM_DBG_CMD", kind := .prm, off := 0x470000, dims := [], dom := .dbg, writer := .p0,
    fields := [⟨7, 0, .wo, 0⟩, ⟨21, 8, .wo, 0⟩, ⟨37, 22, .wo, 0⟩, ⟨38, 38, .wo, 0⟩] }

/-- PRM_DBG_ADDR (R570): ADDR [47:0]. -/
def prmDbgAddr : RegD :=
  { name := "PRM_DBG_ADDR", kind := .prm, off := 0x470008, dims := [], dom := .dbg, writer := .p0,
    fields := [⟨47, 0, .rw, 0⟩] }

/-- PRM_DBG_DATA (R570): DATA [63:0]. -/
def prmDbgData : RegD :=
  { name := "PRM_DBG_DATA", kind := .prm, off := 0x470010, dims := [], dom := .dbg, writer := .p0,
    fields := [⟨63, 0, .rw, 0⟩] }

/-- PRM_DBG_STAT (R570): BUSY [0:0]; GSTOPPED [1:1]; GCAUSE [4:2]; RESULT [15:8]; PERM [17:16]. -/
def prmDbgStat : RegD :=
  { name := "PRM_DBG_STAT", kind := .prm, off := 0x470018, dims := [], dom := .dbg, writer := .any,
    fields := [⟨0, 0, .ro, 0⟩, ⟨1, 1, .ro, 0⟩, ⟨4, 2, .ro, 0⟩, ⟨15, 8, .ro, 0⟩, ⟨17, 16, .ro, 0⟩] }

/-- PRM_DBG_AUTHBUF (R570): DATA [63:0]. -/
def prmDbgAuthbuf : RegD :=
  { name := "PRM_DBG_AUTHBUF", kind := .prm, off := 0x471000, dims := [(512, 8)], dom := .dbg, writer := .dbgauth,
    fields := [⟨63, 0, .ro, 0⟩] }

/-- PRM_PD_CMD (R590): DOMAIN [5:0]; ON [6:6]; GO [7:7]. -/
def prmPdCmd : RegD :=
  { name := "PRM_PD_CMD", kind := .prm, off := 0x480000, dims := [], dom := .aon, writer := .p0,
    fields := [⟨5, 0, .wo, 0⟩, ⟨6, 6, .wo, 0⟩, ⟨7, 7, .wo, 0⟩] }

/-- PRM_PD_STATE0 (R590): STATE [63:0]. -/
def prmPdState0 : RegD :=
  { name := "PRM_PD_STATE0", kind := .prm, off := 0x480008, dims := [], dom := .aon, writer := .p0,
    fields := [⟨63, 0, .ro, 0⟩] }

/-- PRM_PD_STATE1 (R590): STATE [55:0]. -/
def prmPdState1 : RegD :=
  { name := "PRM_PD_STATE1", kind := .prm, off := 0x480010, dims := [], dom := .aon, writer := .p0,
    fields := [⟨55, 0, .ro, 0x55500000000000⟩] }

/-- PRM_PWR_CFG (R590): HOLD_C [7:0]; SHED_C [15:8]; HOLD_W [31:16]; SHED_W [47:32]. -/
def prmPwrCfg : RegD :=
  { name := "PRM_PWR_CFG", kind := .prm, off := 0x480100, dims := [], dom := .core, writer := .p0,
    fields := [⟨7, 0, .rw, 0x64⟩, ⟨15, 8, .rw, 0x67⟩, ⟨31, 16, .rw, 0x802⟩, ⟨47, 32, .rw, 0x866⟩] }

/-- PRM_PWR_STAT (R590): POWER [15:0]; TMAX [23:16]; TDIE [28:24]; THR [39:32]. -/
def prmPwrStat : RegD :=
  { name := "PRM_PWR_STAT", kind := .prm, off := 0x480108, dims := [], dom := .core, writer := .p0,
    fields := [⟨15, 0, .ro, 0⟩, ⟨23, 16, .ro, 0⟩, ⟨28, 24, .ro, 0⟩, ⟨39, 32, .ro, 0⟩] }

/-- PRM_TEMP (R590): TEMP [63:0]. -/
def prmTemp : RegD :=
  { name := "PRM_TEMP", kind := .prm, off := 0x480110, dims := [(4, 8)], dom := .core, writer := .p0,
    fields := [⟨63, 0, .ro, 0⟩] }

/-- PRM_TB_CTRL (R452): ACTIVE [0:0]; SWITCH [1:1]; ALIGN [2:2]; SLEW_PPB [17:4]. -/
def prmTbCtrl : RegD :=
  { name := "PRM_TB_CTRL", kind := .prm, off := 0x500000, dims := [], dom := .tbi, writer := .p0,
    fields := [⟨0, 0, .ro, 0⟩, ⟨1, 1, .w1s, 0⟩, ⟨2, 2, .w1s, 0⟩, ⟨17, 4, .rw, 0x64⟩] }

/-- PRM_TB_STAT (R452): SLEWING [0:0]; SWITCH_PEND [1:1]; SWITCHES [63:32]. -/
def prmTbStat : RegD :=
  { name := "PRM_TB_STAT", kind := .prm, off := 0x500008, dims := [], dom := .tbi, writer := .p0,
    fields := [⟨0, 0, .ro, 0⟩, ⟨1, 1, .ro, 0⟩, ⟨63, 32, .ro, 0⟩] }

/-- PRM_TB_DIFF (R452): DIFF [63:0]. -/
def prmTbDiff : RegD :=
  { name := "PRM_TB_DIFF", kind := .prm, off := 0x500010, dims := [], dom := .tbi, writer := .p0,
    fields := [⟨63, 0, .ro, 0⟩] }

/-- PRM_TB_OFS (R452): OFS [63:0]. -/
def prmTbOfs : RegD :=
  { name := "PRM_TB_OFS", kind := .prm, off := 0x500018, dims := [], dom := .tbi, writer := .p0,
    fields := [⟨63, 0, .ro, 0⟩] }

/-- PRM_TB_SNAP (R452): TAKE [0:0]; VALID [1:1]. -/
def prmTbSnap : RegD :=
  { name := "PRM_TB_SNAP", kind := .prm, off := 0x500020, dims := [], dom := .tbi, writer := .p0,
    fields := [⟨0, 0, .w1s, 0⟩, ⟨1, 1, .ro, 0⟩] }

/-- PRM_TB_SNAPV (R452): NS [63:0]. -/
def prmTbSnapv : RegD :=
  { name := "PRM_TB_SNAPV", kind := .prm, off := 0x500040, dims := [(6, 8)], dom := .tbi, writer := .p0,
    fields := [⟨63, 0, .ro, 0⟩] }

/-- PRM_TB_CFG (R452): STATE [1:0]; LIMIT [2:2]; WDOG_MS [13:4]; AVG_LOG2 [19:16]. -/
def prmTbCfg : RegD :=
  { name := "PRM_TB_CFG", kind := .prm, off := 0x500100, dims := [(4, 0x40)], dom := .tbi, writer := .p0,
    fields := [⟨1, 0, .rw, 0⟩, ⟨2, 2, .ro, 0⟩, ⟨13, 4, .rw, 0x10⟩, ⟨19, 16, .rw, 6⟩] }

/-- PRM_TB_RATE (R452): RATE [39:0]. -/
def prmTbRate : RegD :=
  { name := "PRM_TB_RATE", kind := .prm, off := 0x500108, dims := [(4, 0x40)], dom := .tbi, writer := .p0,
    fields := [⟨39, 0, .rw, 0⟩] }

/-- PRM_TB_STEP (R452): STEP [47:0]. -/
def prmTbStep : RegD :=
  { name := "PRM_TB_STEP", kind := .prm, off := 0x500110, dims := [(4, 0x40)], dom := .tbi, writer := .p0,
    fields := [⟨47, 0, .wo, 0⟩] }

/-- PRM_TB_HORATE (R452): HORATE [47:0]. -/
def prmTbHorate : RegD :=
  { name := "PRM_TB_HORATE", kind := .prm, off := 0x500118, dims := [(4, 0x40)], dom := .tbi, writer := .p0,
    fields := [⟨47, 0, .ro, 0⟩] }

/-- PRM_TB_NOW (R452): NS [63:0]. -/
def prmTbNow : RegD :=
  { name := "PRM_TB_NOW", kind := .prm, off := 0x500120, dims := [(4, 0x40)], dom := .tbi, writer := .p0,
    fields := [⟨63, 0, .ro, 0⟩] }

/-- PRM_CLK_STR (R453): CYCLES [31:0]; EXTRA [63:32]. -/
def prmClkStr : RegD :=
  { name := "PRM_CLK_STR", kind := .prm, off := 0x500200, dims := [], dom := .core, writer := .p0,
    fields := [⟨31, 0, .rw, 0⟩, ⟨63, 32, .rw, 0⟩] }

/-- PRM_CLK_STOP (R453): STOPS [15:0]; STOP_NS [63:16]. -/
def prmClkStop : RegD :=
  { name := "PRM_CLK_STOP", kind := .prm, off := 0x500208, dims := [], dom := .core, writer := .p0,
    fields := [⟨15, 0, .rw, 0⟩, ⟨63, 16, .rw, 0⟩] }

/-- PRM_RING_CFG (R391): EN [0:0]; CLASS [2:1]; PARTITION [13:8]; HELD [16:16]. -/
def prmRingCfg : RegD :=
  { name := "PRM_RING_CFG", kind := .prm, off := 0x800000, dims := [(32768, 0x20)], dom := .pcie, writer := .p0,
    fields := [⟨0, 0, .rw, 0⟩, ⟨2, 1, .rw, 0⟩, ⟨13, 8, .rw, 0⟩, ⟨16, 16, .ro, 0⟩] }

/-- PRM_RING_SHP (R391): RATE [31:0]; BURST [55:32]. -/
def prmRingShp : RegD :=
  { name := "PRM_RING_SHP", kind := .prm, off := 0x800008, dims := [(32768, 0x20)], dom := .pcie, writer := .p0,
    fields := [⟨31, 0, .rw, 0⟩, ⟨55, 32, .rw, 0⟩] }

/-- PRM_RING_SHP_CREDIT (R391): CREDIT [39:0]. -/
def prmRingShpCredit : RegD :=
  { name := "PRM_RING_SHP_CREDIT", kind := .prm, off := 0x800010, dims := [(32768, 0x20)], dom := .pcie, writer := .p0,
    fields := [⟨39, 0, .ro, 0⟩] }

/-- PRM_MTR (R391): CIR [31:0]; CBS [55:32]. -/
def prmMtr : RegD :=
  { name := "PRM_MTR", kind := .prm, off := 0x900000, dims := [(256, 0x20)], dom := .pcie, writer := .p0,
    fields := [⟨31, 0, .rw, 0⟩, ⟨55, 32, .rw, 0⟩] }

/-- PRM_MTR_W1 (R391): PIR [31:0]; PBS [55:32]; EN [56:56]. -/
def prmMtrW1 : RegD :=
  { name := "PRM_MTR_W1", kind := .prm, off := 0x900008, dims := [(256, 0x20)], dom := .pcie, writer := .p0,
    fields := [⟨31, 0, .rw, 0⟩, ⟨55, 32, .rw, 0⟩, ⟨56, 56, .rw, 0⟩] }

/-- PRM_MTR_W2 (R391): GREEN [31:0]; YELLOW [63:32]. -/
def prmMtrW2 : RegD :=
  { name := "PRM_MTR_W2", kind := .prm, off := 0x900010, dims := [(256, 0x20)], dom := .pcie, writer := .p0,
    fields := [⟨31, 0, .rw, 0⟩, ⟨63, 32, .rw, 0⟩] }

/-- PRM_MTR_W3 (R391): RED [31:0]; YIDLE [63:32]. -/
def prmMtrW3 : RegD :=
  { name := "PRM_MTR_W3", kind := .prm, off := 0x900018, dims := [(256, 0x20)], dom := .pcie, writer := .p0,
    fields := [⟨31, 0, .rw, 0⟩, ⟨63, 32, .rw, 0⟩] }

/-- TRC_CFG (R572): EN [0:0]; MODE [1:1]; SRC [15:8]. -/
def trcCfg : RegD :=
  { name := "TRC_CFG", kind := .die, off := 0xD000, dims := [], dom := .main, writer := .dbg1,
    fields := [⟨0, 0, .rw, 0⟩, ⟨1, 1, .rw, 0⟩, ⟨15, 8, .rw, 0⟩] }

/-- TRC_BASE (R572): BASE [47:0]. -/
def trcBase : RegD :=
  { name := "TRC_BASE", kind := .die, off := 0xD008, dims := [], dom := .main, writer := .dbg1,
    fields := [⟨47, 0, .rw, 0⟩] }

/-- TRC_STAT (R572): WPTR [18:0]; WRAPPED [19:19]; DROPS [63:32]. -/
def trcStat : RegD :=
  { name := "TRC_STAT", kind := .die, off := 0xD010, dims := [], dom := .main, writer := .dbg1,
    fields := [⟨18, 0, .ro, 0⟩, ⟨19, 19, .ro, 0⟩, ⟨63, 32, .rw, 0⟩] }

/-- PMU_CTL (R572): EN [0:0]; FREEZE [1:1]; OVF [15:8]. -/
def pmuCtl : RegD :=
  { name := "PMU_CTL", kind := .die, off := 0xE000, dims := [], dom := .main, writer := .dbg1,
    fields := [⟨0, 0, .rw, 0⟩, ⟨1, 1, .rw, 0⟩, ⟨15, 8, .w1c, 0⟩] }

/-- PMU_CYC (R572): CYC [47:0]. -/
def pmuCyc : RegD :=
  { name := "PMU_CYC", kind := .die, off := 0xE008, dims := [], dom := .main, writer := .dbg1,
    fields := [⟨47, 0, .rw, 0⟩] }

/-- PMU_EVT (R572): EVT [7:0]; UNITS [15:8]. -/
def pmuEvt : RegD :=
  { name := "PMU_EVT", kind := .die, off := 0xE040, dims := [(8, 8)], dom := .main, writer := .dbg1,
    fields := [⟨7, 0, .rw, 0⟩, ⟨15, 8, .rw, 0xff⟩] }

/-- PMU_CNT (R572): COUNT [47:0]. -/
def pmuCnt : RegD :=
  { name := "PMU_CNT", kind := .die, off := 0xE080, dims := [(8, 8)], dom := .main, writer := .dbg1,
    fields := [⟨47, 0, .rw, 0⟩] }

/-- WP_W0 (R572): BASE [47:0]. -/
def wpW0 : RegD :=
  { name := "WP_W0", kind := .diewp, off := 0xE800, dims := [(4, 0x10)], dom := .main, writer := .dbg2,
    fields := [⟨47, 0, .rw, 0⟩] }

/-- WP_W1 (R572): LEN [17:0]; RD [18:18]; WR [19:19]; EN [20:20]; ACTION [22:21]; HITS [63:32]. -/
def wpW1 : RegD :=
  { name := "WP_W1", kind := .diewp, off := 0xE808, dims := [(4, 0x10)], dom := .main, writer := .dbg2,
    fields := [⟨17, 0, .rw, 0⟩, ⟨18, 18, .rw, 0⟩, ⟨19, 19, .rw, 0⟩, ⟨20, 20, .rw, 0⟩, ⟨22, 21, .rw, 0⟩, ⟨63, 32, .ro, 0⟩] }

/-- PRM_FN_ID (R511): PARTITION [5:0]; GRADE [6:6]; STEPPING [7:7]; LC [10:8]. -/
def prmFnId : RegD :=
  { name := "PRM_FN_ID", kind := .fn, off := 0x0, dims := [], dom := .pcie, writer := .own,
    fields := [⟨5, 0, .ro, 0⟩, ⟨6, 6, .ro, 0⟩, ⟨7, 7, .ro, 0⟩, ⟨10, 8, .ro, 0⟩] }

/-- PRM_DIE_MAP (R511): ENABLED [31:0]. -/
def prmDieMap : RegD :=
  { name := "PRM_DIE_MAP", kind := .fn, off := 0x8, dims := [], dom := .pcie, writer := .own,
    fields := [⟨31, 0, .ro, 0⟩] }

/-- PRM_BAR2_WIN (R511): WIN [47:0]. -/
def prmBar2Win : RegD :=
  { name := "PRM_BAR2_WIN", kind := .fn, off := 0x10, dims := [], dom := .pcie, writer := .own,
    fields := [⟨47, 0, .rw, 0⟩] }

/-- PRM_TB3_NOW (R511): NS [63:0]. -/
def prmTb3Now : RegD :=
  { name := "PRM_TB3_NOW", kind := .fn, off := 0x18, dims := [], dom := .pcie, writer := .own,
    fields := [⟨63, 0, .ro, 0⟩] }

/-- PRM_EVT_BASE (R511): BASE [63:6]. -/
def prmEvtBase : RegD :=
  { name := "PRM_EVT_BASE", kind := .fn, off := 0x40, dims := [], dom := .pcie, writer := .own,
    fields := [⟨63, 6, .rw, 0⟩] }

/-- PRM_EVT_CFG (R511): LOG2N [3:0]; VECTOR [14:4]; EN [15:15]. -/
def prmEvtCfg : RegD :=
  { name := "PRM_EVT_CFG", kind := .fn, off := 0x48, dims := [], dom := .pcie, writer := .own,
    fields := [⟨3, 0, .rw, 6⟩, ⟨14, 4, .rw, 0⟩, ⟨15, 15, .rw, 0⟩] }

/-- PRM_EVT_HEAD (R511): HEAD [15:0]. -/
def prmEvtHead : RegD :=
  { name := "PRM_EVT_HEAD", kind := .fn, off := 0x50, dims := [], dom := .pcie, writer := .own,
    fields := [⟨15, 0, .rw, 0⟩] }

/-- PRM_EVT_STAT (R511): TAIL [15:0]; LOST [47:16]. -/
def prmEvtStat : RegD :=
  { name := "PRM_EVT_STAT", kind := .fn, off := 0x58, dims := [], dom := .pcie, writer := .own,
    fields := [⟨15, 0, .ro, 0⟩, ⟨47, 16, .ro, 0⟩] }

/-- PRM_MB_CTRL (R511): H2F_FULL [0:0]; F2H_FULL [1:1]; MB_VEC [12:2]. -/
def prmMbCtrl : RegD :=
  { name := "PRM_MB_CTRL", kind := .fn, off := 0x100, dims := [], dom := .pcie, writer := .own,
    fields := [⟨0, 0, .w1s, 0⟩, ⟨1, 1, .w1c, 0⟩, ⟨12, 2, .rw, 0⟩] }

/-- PRM_MB_H2F (R511): WORD [63:0]. -/
def prmMbH2f : RegD :=
  { name := "PRM_MB_H2F", kind := .fn, off := 0x200, dims := [(32, 8)], dom := .pcie, writer := .own,
    fields := [⟨63, 0, .rw, 0⟩] }

/-- PRM_MB_F2H (R511): WORD [63:0]. -/
def prmMbF2h : RegD :=
  { name := "PRM_MB_F2H", kind := .fn, off := 0x300, dims := [(32, 8)], dom := .pcie, writer := .own,
    fields := [⟨63, 0, .ro, 0⟩] }

/-- PRM_BOOT_CMD (R511): LEN [24:0]; GO [25:25]. -/
def prmBootCmd : RegD :=
  { name := "PRM_BOOT_CMD", kind := .fnpf, off := 0x400, dims := [], dom := .pcie, writer := .own,
    fields := [⟨24, 0, .wo, 0⟩, ⟨25, 25, .wo, 0⟩] }

/-- PRM_BOOT_STAT (R511): STATE [2:0]; ERR [11:8]. -/
def prmBootStat : RegD :=
  { name := "PRM_BOOT_STAT", kind := .fnpf, off := 0x408, dims := [], dom := .pcie, writer := .own,
    fields := [⟨2, 0, .ro, 0⟩, ⟨11, 8, .ro, 0⟩] }

/-- PRM_APERTURE (R511): A [1:0]. -/
def prmAperture : RegD :=
  { name := "PRM_APERTURE", kind := .fnpf, off := 0x410, dims := [], dom := .pcie, writer := .own,
    fields := [⟨1, 0, .rw, 0⟩] }

/-- PRM_SEC_STAT (R511): TAMPER [0:0]; CAUSE [4:1]. -/
def prmSecStat : RegD :=
  { name := "PRM_SEC_STAT", kind := .fnpf, off := 0x418, dims := [], dom := .pcie, writer := .own,
    fields := [⟨0, 0, .ro, 0⟩, ⟨4, 1, .ro, 0⟩] }

/-- TW_CFG (R573): EN [0:0]; DIGEST_EN [1:1]; ONCE [2:2]; ANYRANK [3:3]; BUNDLE [16:4]; RANK [23:17]. -/
def twCfg : RegD :=
  { name := "TW_CFG", kind := .fn, off := 0x10000, dims := [(64, 0x100)], dom := .pcie, writer := .own,
    fields := [⟨0, 0, .rw, 0⟩, ⟨1, 1, .rw, 0⟩, ⟨2, 2, .rw, 0⟩, ⟨3, 3, .rw, 0⟩, ⟨16, 4, .rw, 0⟩, ⟨23, 17, .rw, 0⟩] }

/-- TW_IMAGE (R573): TAG [63:0]. -/
def twImage : RegD :=
  { name := "TW_IMAGE", kind := .fn, off := 0x10008, dims := [(64, 0x100)], dom := .pcie, writer := .own,
    fields := [⟨63, 0, .rw, 0⟩] }

/-- TW_COUNT (R573): COUNT [63:0]. -/
def twCount : RegD :=
  { name := "TW_COUNT", kind := .fn, off := 0x10010, dims := [(64, 0x100)], dom := .pcie, writer := .own,
    fields := [⟨63, 0, .ro, 0⟩] }

/-- TW_HITS (R573): HITS [31:0]; CMD_ID [63:32]. -/
def twHits : RegD :=
  { name := "TW_HITS", kind := .fn, off := 0x10018, dims := [(64, 0x100)], dom := .pcie, writer := .own,
    fields := [⟨31, 0, .ro, 0⟩, ⟨63, 32, .ro, 0⟩] }

/-- TW_MINMAX (R573): MIN [31:0]; MAX [63:32]. -/
def twMinmax : RegD :=
  { name := "TW_MINMAX", kind := .fn, off := 0x10020, dims := [(64, 0x100)], dom := .pcie, writer := .own,
    fields := [⟨31, 0, .ro, 0⟩, ⟨63, 32, .ro, 0⟩] }

/-- TW_SUM (R573): SUM [63:0]. -/
def twSum : RegD :=
  { name := "TW_SUM", kind := .fn, off := 0x10028, dims := [(64, 0x100)], dom := .pcie, writer := .own,
    fields := [⟨63, 0, .ro, 0⟩] }

/-- TW_SPECIAL (R573): NAN [31:0]; INF [63:32]. -/
def twSpecial : RegD :=
  { name := "TW_SPECIAL", kind := .fn, off := 0x10030, dims := [(64, 0x100)], dom := .pcie, writer := .own,
    fields := [⟨31, 0, .ro, 0⟩, ⟨63, 32, .ro, 0⟩] }

/-- TW_ZERO (R573): ZERO [31:0]. -/
def twZero : RegD :=
  { name := "TW_ZERO", kind := .fn, off := 0x10038, dims := [(64, 0x100)], dom := .pcie, writer := .own,
    fields := [⟨31, 0, .ro, 0⟩] }

/-- TW_DIGEST (R573): DIGEST [63:0]. -/
def twDigest : RegD :=
  { name := "TW_DIGEST", kind := .fn, off := 0x10040, dims := [(64, 0x100)], dom := .pcie, writer := .own,
    fields := [⟨63, 0, .ro, 0⟩] }

/-- TW_HIST (R573): LO [31:0]; HI [63:32]. -/
def twHist : RegD :=
  { name := "TW_HIST", kind := .fn, off := 0x10080, dims := [(64, 0x100), (16, 8)], dom := .pcie, writer := .own,
    fields := [⟨31, 0, .ro, 0⟩, ⟨63, 32, .ro, 0⟩] }

/-- MSIX_TABLE (R481): ENTRY [63:0]. -/
def msixTable : RegD :=
  { name := "MSIX_TABLE", kind := .fn, off := 0x40000, dims := [(4096, 8)], dom := .pcie, writer := .own,
    fields := [⟨63, 0, .rw, 0⟩] }

/-- MSIX_PBA (R481): PENDING [63:0]. -/
def msixPba : RegD :=
  { name := "MSIX_PBA", kind := .fn, off := 0x60000, dims := [(32, 8)], dom := .pcie, writer := .own,
    fields := [⟨63, 0, .ro, 0⟩] }

/-- PRM_DB (R487): SQ_TAIL [15:0]; CQ_HEAD [31:16]; SQ_V [32:32]; CQ_V [33:33]. -/
def prmDb : RegD :=
  { name := "PRM_DB", kind := .bar, off := 0x100000, dims := [(32768, 8)], dom := .pcie, writer := .ring,
    fields := [⟨15, 0, .wo, 0⟩, ⟨31, 16, .wo, 0⟩, ⟨32, 32, .wo, 0⟩, ⟨33, 33, .wo, 0⟩] }

/-- PRM_RING_SQ (R512): LOG2N [3:0]; BASE [63:6]. -/
def prmRingSq : RegD :=
  { name := "PRM_RING_SQ", kind := .bar, off := 0x200000, dims := [(32768, 0x20)], dom := .pcie, writer := .ring,
    fields := [⟨3, 0, .rw, 4⟩, ⟨63, 6, .rw, 0⟩] }

/-- PRM_RING_CQ (R512): LOG2N [3:0]; BASE [63:6]. -/
def prmRingCq : RegD :=
  { name := "PRM_RING_CQ", kind := .bar, off := 0x200008, dims := [(32768, 0x20)], dom := .pcie, writer := .ring,
    fields := [⟨3, 0, .rw, 4⟩, ⟨63, 6, .rw, 0⟩] }

/-- PRM_RING_VEC (R512): VECTOR [10:0]. -/
def prmRingVec : RegD :=
  { name := "PRM_RING_VEC", kind := .bar, off := 0x200010, dims := [(32768, 0x20)], dom := .pcie, writer := .ring,
    fields := [⟨10, 0, .rw, 0⟩] }

/-- PRM_RING_PTR (R512): SQ_HEAD [15:0]; CQ_TAIL [31:16]; PHASE [32:32]. -/
def prmRingPtr : RegD :=
  { name := "PRM_RING_PTR", kind := .bar, off := 0x200018, dims := [(32768, 0x20)], dom := .pcie, writer := .ring,
    fields := [⟨15, 0, .ro, 0⟩, ⟨31, 16, .ro, 0⟩, ⟨32, 32, .ro, 1⟩] }

end R

/-- The registers of kind `dhl` (part 1). -/
def regsDhl0 : List RegD :=
  [R.dhlClRowfuse, R.dhlClRowmap, R.dhlClSpareCmd, R.dhlClStatus, R.dhlClWstream, R.dhlCtxArith, R.dhlCtxAflags,
   R.dhlWstreamTotal, R.dhlSeqState, R.dhlSeqCycles, R.dhlSeqFreeze, R.dhlSeqSwitch, R.dhlSeqDeclared,
   R.dhlSeqFault, R.dhlSeqFaddr, R.dhlSeqHbmhold, R.dhlSeqPc, R.dhlSeqWait, R.dhlToken, R.dhlSpZskip, R.dhlSpSaved,
   R.dhlSpBskip, R.dhlSpRoute, R.dhlSeqNdet, R.dhlClRstate, R.dhlShSnap0, R.dhlShSnap1, R.dhlClSuspect,
   R.dhlDbgCtl, R.dhlDbgHaltcyc, R.dhlDbgBp, R.dhlShCfg, R.dhlShStat, R.dhlClkStr, R.dhlClkStop, R.dhlSpCfg,
   R.dhlSpPwrCmd, R.dhlSpPwrState, R.dhlSpOwn, R.dhlXchOwn]

/-- The registers of kind `dhl` (part 2). -/
def regsDhl1 : List RegD :=
  [R.dhlSealedOwn, R.dhlSealedStatus, R.dhlSpEcc, R.dhlSpErraddr, R.dhlSpConf, R.dhlHbmStatus, R.dhlHbmEcc,
   R.dhlHbmErraddr, R.dhlHbmScrub]

/-- The registers of kind `tlp`. -/
def regsTlp : List RegD :=
  [R.tlpCfg, R.tlpStatus, R.tlpEcc, R.tlpErraddr, R.tlpDmaBase, R.tlpDmaHead, R.tlpDmaTail]

/-- The registers of kind `fxg`. -/
def regsFxg : List RegD :=
  [R.fxgCfg, R.fxgEpoch, R.fxgGate, R.fxgGateStart, R.fxgGateCount, R.fxgChange, R.fxgLim0, R.fxgLim1,
   R.fxgThrottle, R.fxgRstStat, R.fxgRstLast, R.fxgPwrLim, R.fxgDieRate, R.fxgClState, R.fxgClEdge, R.fxgPtCfg,
   R.fxgPtDecl, R.fxgPtTime, R.fxgPtStretch, R.fxgPtConflict, R.fxgPtHbm, R.fxgPtWait, R.fxgPtSaved,
   R.fxgPtAbortCyc, R.fxgPtCounts, R.fxgPtNdet, R.fxgAdminList, R.fxgOperList]

/-- The registers of kind `irs`. -/
def regsIrs : List RegD :=
  [R.irsSeqState, R.irsSeqCycles, R.irsSeqFreeze, R.irsSeqSwitch, R.irsSeqDeclared, R.irsSeqFault, R.irsSeqFaddr,
   R.irsSeqPc, R.irsSeqWait, R.irsToken, R.irsCoreImg, R.irsCoreArg, R.irsCoreImgst, R.irsDbgBp, R.irsDbgCtl,
   R.irsDbgHaltcyc, R.irsClkStr, R.irsClkStop, R.irsEq, R.irsLdpcStat, R.irsLdpcFail, R.irsSramEcc,
   R.irsSramErraddr, R.irsStimerCfg, R.irsStimerPhase, R.irsStimerCores, R.irsStimerCount]

/-- The registers of kind `crk`. -/
def regsCrk : List RegD :=
  [R.crkPortCfg, R.crkSpareCmd, R.crkLane, R.crkPortCnt, R.crkAgcCfg, R.crkFlow, R.crkFlowWin, R.crkFlowTime,
   R.crkFlowCnt, R.crkPathCfg, R.crkPathWin, R.crkPathMwin, R.crkPathAgc, R.crkPathOfs, R.crkPathExt, R.crkPathNco,
   R.crkFrz, R.crkFir, R.crkFpol, R.crkFpolCnt, R.crkPpol, R.crkPpolCnt, R.crkMtr, R.crkMtrW1, R.crkMtrW2,
   R.crkMtrW3, R.crkTcCfg, R.crkGateCfg, R.crkGateBase, R.crkGateCnt, R.crkGateAdmin, R.crkGateOper, R.crkTsCorr]

/-- The registers of kind `lpn`. -/
def regsLpn : List RegD :=
  [R.lpnNode, R.lpnMirrorCmd, R.lpnRcpt, R.lpnRcpt2, R.lpnHotstat, R.lpnReqstat, R.lpnRegion, R.lpnRoute,
   R.lpnPeer, R.lpnLink, R.lpnLinkCnt, R.lpnLane, R.lpnMtr, R.lpnMtrW1, R.lpnMtrW2, R.lpnMtrW3, R.lpnShp,
   R.lpnShpCredit, R.lpnTcCfg]

/-- The registers of kind `phx`. -/
def regsPhx : List RegD :=
  [R.phxFp]

/-- The registers of kind `prm` (part 1). -/
def regsPrm0 : List RegD :=
  [R.prmFxgStageList, R.prmFxgStageHdr0, R.prmFxgStageHdr1, R.prmFxgStageMask, R.prmFxgStageCfg, R.prmFxgStagePt,
   R.prmFxgStageRec, R.prmFxgCmd, R.prmAsig0, R.prmAsig1, R.prmLsCfg, R.prmLsPeer, R.prmLsInbox, R.prmLsStat,
   R.prmLsSeq, R.prmCqStamp, R.prmCqTdone, R.prmLcCmd, R.prmRstCmd, R.prmWdogCfg, R.prmWdogHb, R.prmDumpCmd,
   R.prmDumpBuf, R.prmDumpCfg, R.prmDumpStat, R.prmReplayCmd, R.prmReplayStat, R.prmDbgCmd, R.prmDbgAddr,
   R.prmDbgData, R.prmDbgStat, R.prmDbgAuthbuf, R.prmPdCmd, R.prmPdState0, R.prmPdState1, R.prmPwrCfg,
   R.prmPwrStat, R.prmTemp, R.prmTbCtrl, R.prmTbStat]

/-- The registers of kind `prm` (part 2). -/
def regsPrm1 : List RegD :=
  [R.prmTbDiff, R.prmTbOfs, R.prmTbSnap, R.prmTbSnapv, R.prmTbCfg, R.prmTbRate, R.prmTbStep, R.prmTbHorate,
   R.prmTbNow, R.prmClkStr, R.prmClkStop, R.prmRingCfg, R.prmRingShp, R.prmRingShpCredit, R.prmMtr, R.prmMtrW1,
   R.prmMtrW2, R.prmMtrW3]

/-- The registers of kind `die`. -/
def regsDie : List RegD :=
  [R.trcCfg, R.trcBase, R.trcStat, R.pmuCtl, R.pmuCyc, R.pmuEvt, R.pmuCnt]

/-- The registers of kind `diewp`. -/
def regsDiewp : List RegD :=
  [R.wpW0, R.wpW1]

/-- The registers of kind `fn`. -/
def regsFn : List RegD :=
  [R.prmFnId, R.prmDieMap, R.prmBar2Win, R.prmTb3Now, R.prmEvtBase, R.prmEvtCfg, R.prmEvtHead, R.prmEvtStat,
   R.prmMbCtrl, R.prmMbH2f, R.prmMbF2h, R.twCfg, R.twImage, R.twCount, R.twHits, R.twMinmax, R.twSum, R.twSpecial,
   R.twZero, R.twDigest, R.twHist, R.msixTable, R.msixPba]

/-- The registers of kind `fnpf`. -/
def regsFnpf : List RegD :=
  [R.prmBootCmd, R.prmBootStat, R.prmAperture, R.prmSecStat]

/-- The registers of kind `bar`. -/
def regsBar : List RegD :=
  [R.prmDb, R.prmRingSq, R.prmRingCq, R.prmRingVec, R.prmRingPtr]

/-- The registers of a kind. -/
def regsOf : RegKind → List RegD
  | .dhl => regsDhl0 ++ regsDhl1
  | .tlp => regsTlp
  | .fxg => regsFxg
  | .irs => regsIrs
  | .crk => regsCrk
  | .lpn => regsLpn
  | .phx => regsPhx
  | .prm => regsPrm0 ++ regsPrm1
  | .die => regsDie
  | .diewp => regsDiewp
  | .fn => regsFn
  | .fnpf => regsFnpf
  | .bar => regsBar


end Sys2Proof.Machine
end

