-- ==== Sys2Proof/Machine/Flags.lean ====
section
/-! DEFINITION. The arithmetic flags of a context (R75): seven sticky bits, combined by OR, cleared by writing 1. -/
namespace Sys2Proof.Machine

/-- The flag set of DHL_CTX_AFLAGS, bits [6:0] (R75, R79). -/
abbrev AFlags := BitVec 7

/-- INV: a NaN arises from operands none of which is NaN, or a narrowing cannot hold a NaN or infinity (R75). -/
def fINV : AFlags := 0x01
/-- OVF: overflow to infinity, or a finite value beyond 448 narrowed to the E4M3 NaN (R75). -/
def fOVF : AFlags := 0x02
/-- NANIN: a NaN operand takes part (R75). -/
def fNANIN : AFlags := 0x04
/-- ISAT: an integer accumulation saturates (R75). -/
def fISAT : AFlags := 0x08
/-- NSAT: a narrowing saturates (R75). -/
def fNSAT : AFlags := 0x10
/-- SRX: stochastic rounding suppressed in exact mode (R75). -/
def fSRX : AFlags := 0x20
/-- MXNAN: a block scale of 0xFF is consumed (R75). -/
def fMXNAN : AFlags := 0x40

/-- A flag if a condition holds. -/
def flagIf (c : Bool) (f : AFlags) : AFlags := if c then f else 0

/-- The sticky flags after an operation sets some (R75). -/
def AFlags.stick (old new : AFlags) : AFlags := old ||| new

/-- The flags after a write of 1 to some of them, where hardware sets others in the same cycle (R14, R75). -/
def AFlags.clear (old written set : AFlags) : AFlags := (old &&& ~~~ written) ||| set

end Sys2Proof.Machine
end

