-- ==== Sys2Proof/Machine/Tab.lean ====
section
/-! DEFINITION. Sparse tables of plain data: a list of key and value pairs with rising keys. The machine keeps its
registers, its memories and its per-unit records in them. An unlisted key reads as the default its reader names. -/
namespace Sys2Proof.Machine

/-- A sparse table: pairs of key and value, keys strictly rising. -/
abbrev Tab (α : Type) := List (Nat × α)

/-- What the table lists at a key, if anything. -/
def Tab.find {α : Type} : Tab α → Nat → Option α
  | [], _ => none
  | (a, b) :: t, k => if k < a then none else if k = a then some b else Tab.find t k

/-- The value at a key, or the default where the table lists none. -/
def Tab.getD {α : Type} (t : Tab α) (k : Nat) (d : α) : α := (Tab.find t k).getD d

/-- The table with the value at one key replaced or added. -/
def Tab.put {α : Type} : Tab α → Nat → α → Tab α
  | [], k, v => [(k, v)]
  | (a, b) :: t, k, v =>
    if k < a then (k, v) :: (a, b) :: t
    else if k = a then (k, v) :: t
    else (a, b) :: Tab.put t k v

/-- The table without one key. -/
def Tab.del {α : Type} : Tab α → Nat → Tab α
  | [], _ => []
  | (a, b) :: t, k =>
    if k < a then (a, b) :: t
    else if k = a then t
    else (a, b) :: Tab.del t k

/-- The table with only the keys that a test keeps. -/
def Tab.keep {α : Type} (t : Tab α) (p : Nat → Bool) : Tab α := t.filter (fun e => p e.1)

/-- The table form: keys strictly rising from a bound. -/
def Tab.risingFrom {α : Type} : Nat → Tab α → Bool
  | _, [] => true
  | n, (a, _) :: t => decide (n ≤ a) && Tab.risingFrom (a + 1) t

/-- The table form: keys strictly rising. -/
def Tab.wf {α : Type} (t : Tab α) : Bool := Tab.risingFrom 0 t

end Sys2Proof.Machine
end

