-- ==== Sys2Proof/Machine/SeqState.lean ====
section
/-! DEFINITION. The state of one sequencer and its cluster or DSP core as plain data: contexts (R82, R93), accumulators
(R37), streams (R151, R154), units in use (R104), results on their way (R95), tokens (R110) and the counters of the
sequencer registers (R126, R137, R209). -/
namespace Sys2Proof.Machine

/-- The context states of R84, in the encoding order of DHL_SEQ_STATE (R126). -/
inductive CtxSt where
  | idle | ready | running | waitRemote | waitToken | halted | faulted
  deriving DecidableEq, Repr

/-- The code of a context state in DHL_SEQ_STATE.CTX_STATE (R126). -/
def CtxSt.code : CtxSt → Nat
  | .idle => 0 | .ready => 1 | .running => 2 | .waitRemote => 3 | .waitToken => 4 | .halted => 5 | .faulted => 6

/-- One hardware context (R82, R93): its state, program counter, registers, flags and wait counters. A register that
its table does not list reads 0. -/
structure Ctx where
  st : CtxSt := .idle
  pc : Nat := 0
  s : Tab (BitVec 64) := []
  a : Tab (BitVec 64) := []
  m : Tab (BitVec 64) := []
  w : Tab (BitVec 128) := []
  l : Tab (BitVec 128) := []
  t : Tab (BitVec 128) := []
  p : Tab Bool := []
  arith : BitVec 64 := 1
  aflags : AFlags := 0
  fstat : Nat := 0
  outst : Nat := 0
  waitTok : Nat := 0
  waitFrom : Nat := 0
  readyAt : Nat := 0
  waitRemote : Nat := 0
  waitToken : Nat := 0
  /-- The remote operations whose replies a WAIT_REMOTE context awaits (R109). -/
  awaits : List Nat := []
  /-- The register that a waiting FWAIT writes (R172). -/
  fwaitDst : Option Nat := none
  /-- The operation whose status FSTAT holds (R172). -/
  fstatOp : Option Nat := none
  deriving DecidableEq, Repr

/-- The kinds of scratchpad stream (R150). -/
inductive StreamKind where
  | bcast | bscale | b | bscl
  deriving DecidableEq, Repr

/-- An open scratchpad stream: its mask, its own pointer, its window and its data-ready cycle (R151, R107). -/
structure Stream where
  kind : StreamKind
  mask : Nat
  ptr : Nat
  winBase : Nat
  winLen : Nat
  ready : Nat
  deriving DecidableEq, Repr

/-- A pending weight stream: its tile, its source offset, the cycle of its first staging, and whether that has passed
(R61, R154). -/
structure WStream where
  tile : BitVec 128
  addr : Nat
  first : Nat
  staged : Bool
  deriving DecidableEq, Repr

/-- A MAC operation in flight: its rows, the accumulator entries it writes, the last cycle of its occupancy and the
cycle in which its accumulators become readable (R54, R55). -/
structure MacBusy where
  rows : Nat
  firstEntry : Nat
  lastEntry : Nat
  bcastBytes : Nat
  until_ : Nat
  readable : Nat
  deriving DecidableEq, Repr

/-- A VEC operation's hold on accumulator entries: the rows and entries, the last cycle of its occupancy and the cycle
in which its results are visible (R159). -/
structure VecBusy where
  rows : Nat
  firstEntry : Nat
  lastEntry : Nat
  until_ : Nat
  visible : Nat
  deriving DecidableEq, Repr

/-- A token target (R171): the kind of unit, its number and the token. -/
structure TokenTarget where
  kind : Nat
  unit : Nat
  token : Nat
  deriving DecidableEq, Repr

/-- A hit of a tensor-watch point as it is taken when its operation issues (R566 to R568): the point's number in its function
block, the 32-bit values read, as FP32, and the bytes that the operation stores or writes back. -/
structure TwHit where
  part : Nat
  point : Nat
  vals : List (BitVec 32)
  bytes : List Byte
  deriving DecidableEq, Repr

/-- What becomes visible when an operation's latency has elapsed (R95). -/
inductive Effect where
  | regS (n : Nat) (v : BitVec 64)
  | regA (n : Nat) (v : BitVec 64)
  | regM (n : Nat) (v : BitVec 64)
  | regW (n : Nat) (v : BitVec 128)
  | regL (n : Nat) (v : BitVec 128)
  | regT (n : Nat) (v : BitVec 128)
  | regP (n : Nat) (v : Bool)
  | flags (f : AFlags)
  | acc (cells : List (Nat × BitVec 32))
  | bias (cells : List (Nat × BitVec 32))
  | mem (off : Nat) (bytes : List Byte)
  | memList (writes : List (Nat × List Byte))
  | mac (cells : List (Nat × BitVec 32)) (f : AFlags) (count : Bool)
  | signal (t : TokenTarget)
  | dmaEnd (id : Nat)
  | memError (off : Nat)
  | tensor (h : TwHit)
  | stepDone
  deriving DecidableEq, Repr

/-- An effect on its way: the lane cycle in which it becomes visible and the context that issued it. -/
structure Pend where
  due : Nat
  ctx : Nat
  what : Effect
  deriving DecidableEq, Repr

/-- A DMA or list operation outstanding (R105): its writes, the token it signals, whether it needs its arrival to end
(a DMA to another die, R113) and whether it came from a RADIO step. -/
structure Dma where
  id : Nat
  ctx : Nat
  list : Bool
  remote : Bool
  writes : List (Nat × List Byte)
  token : Option TokenTarget
  bad : Option Nat
  /-- The ranges it reads, whether a wipe holds it, and whether its end came while it was held (R229). -/
  srcs : List (Nat × Nat) := []
  held : Bool := false
  late : Bool := false
  /-- Whether an exact-mode step held off its reads at issue (R233); they are then taken at its end. -/
  wait : Bool := false
  deriving DecidableEq, Repr

/-- One sequencer with its cluster or DSP core. `cyc` is the lane (or signal) cycle of the last event, counted without
freezes from step cycle 0; `next` is the cycle in which the running context issues its next bundle. -/
structure Seq where
  ctxs : Tab Ctx := []
  run : Option Nat := none
  /-- The context that ran last, from which a switch point counts (R86). -/
  last : Nat := 0
  cyc : Nat := 0
  next : Nat := 0
  idleFrom : Nat := 0
  active : Bool := false
  done : Bool := false
  /-- Whether step cycle 0 has begun (R84), and C, the cycles at DONE with freezes (R126, R286). -/
  started : Bool := false
  /-- Whether this placement loaded its image (R270). -/
  loaded : Bool := false
  doneC : Nat := 0
  stopped : Bool := false
  committing : Bool := false
  exact : Bool := false
  radio : Bool := false
  part : Nat := 0
  step : Nat := 0
  rank : Nat := 0
  slice : BitVec 32 := 0
  declared : Nat := 0
  frzUnsched : Nat := 0
  frzOwn : Nat := 0
  switches : Nat := 0
  idleCyc : Nat := 0
  hbmHold : Nat := 0
  fault : BitVec 64 := 0
  faddr : BitVec 64 := 0
  tokens : Tab Nat := []
  tokSat : Tab Bool := []
  form : Bool := false
  rate : Nat := 0
  acc : Tab (BitVec 32) := []
  bias : Tab (BitVec 32) := []
  biasReady : Nat := 0
  biasBad : Option Nat := none
  streams : List Stream := []
  wpend : Option WStream := none
  portFree : Nat := 0
  halfFree : Nat × Nat := (0, 0)
  macs : List MacBusy := []
  vecs : List VecBusy := []
  vecUntil : Nat := 0
  formUntil : Nat := 0
  pend : List Pend := []
  dmas : List Dma := []
  nextId : Nat := 0
  zskipRows : Nat := 0
  savedCyc : Nat := 0
  bskipTaken : Nat := 0
  bskipBundles : Nat := 0
  placed : Nat := 0
  redirected : Nat := 0
  dropped : Nat := 0
  ndStoch : Nat := 0
  ndRoute : Nat := 0
  ndTiming : Nat := 0
  ndIntrude : Nat := 0
  code : Tab (BitVec 256) := []
  codeLen : Nat := 0
  codeDigest : Nat := 0
  deadline : Option Nat := none
  lcStart : Nat := 0
  /-- The die's RATE when the step was placed: lane cycles per 4,096 LC ticks (R268). -/
  lcRate : Nat := 3850
  rowMap : Tab Nat := []
  spareUsed : Bool := false
  retiredPhys : Nat := 15
  spareBusy : Bool := false
  dbgHalted : Bool := false
  dbgCause : Nat := 0
  dbgIndex : Nat := 0
  dbgHaltCyc : Nat := 0
  /-- The LC tick of the present halt (R551), and whether the breakpoint on the next bundle has fired (R555). -/
  dbgHaltLc : Nat := 0
  bpPass : Bool := false
  dbgStep : Option Nat := none
  /-- The watchpoint after which the unit halts once one further cycle of issue has passed (R556). -/
  dbgWatch : Option Nat := none
  lastWin : Option Nat := none
  deriving DecidableEq, Repr

/-- Context k of a sequencer. -/
def Seq.ctx (q : Seq) (k : Nat) : Ctx := q.ctxs.getD k {}

/-- The sequencer with context k replaced. -/
def Seq.setCtx (q : Seq) (k : Nat) (c : Ctx) : Seq := { q with ctxs := q.ctxs.put k c }

end Sys2Proof.Machine
end

