-- ==== Sys2Proof/Machine/State.lean ====
section
/-! DEFINITION. The state of the block as plain data: every register, memory, queue, counter, mode and pin the spec
gives the Vexuno package, and the queue of commands that wait. -/
namespace Sys2Proof.Machine

/-- The machine stops with a fault. No command of this model faults: every access the spec names has an answer. -/
inductive Fault where
  /-- An operand is outside the range its row gives it (an instance index that no unit has). Raised by `exec` never;
  kept so that a later meaning has a name for it. Safe: the machine stops where the spec gives no effect. -/
  | operandRange
  deriving DecidableEq, Repr

/-- A command the model does not run. -/
inductive Refusal where
  /-- The command has no meaning in the model yet. Raised by the arms of `exec` that reject by name. Safe. -/
  | notModelled (mnemonic : String)
  deriving DecidableEq, Repr

/-- The fuses and the identity they give the part (R1 to R6, R41, R79): grade, stepping, disabled dies, the physical row
each cluster has fused off, and the fused limits of R257. -/
structure Ident where
  vx3214 : Bool := false
  b0 : Bool := true
  disabled : List Nat := []
  fusedRow : Tab Nat := []
  openShareMax : Nat := 240
  radioShareMin : Nat := 0
  /-- The life-cycle state (R505), the fused key hashes (manufacturing, vendor test, vendor production, owner), the fused
  minimum SVN (R504), the device unique ID (R549), and the identity keys once a transition has generated them (R506). -/
  lcState : Nat := 0
  keyMfg : List Byte := List.replicate 32 0
  keyTest : List Byte := List.replicate 32 0
  keyVendor : List Byte := List.replicate 32 0
  keyOwner : List Byte := List.replicate 32 0
  svnMin : Nat := 0
  uid : List Byte := List.replicate 16 0
  idKeys : Option Nat := none
  deriving DecidableEq, Repr

/-- A token on its way to a unit (R110, R112): its target, its sender, the sender's partition, whether a RADIO step sent
it, and whether the step it was for has been aborted on its target (R283). -/
structure TokenMsg where
  target : TokenTarget
  fromUnit : Nat
  part : Nat
  radio : Bool
  dead : Bool := false
  deriving DecidableEq, Repr

/-- The kinds of remote operation (R172). -/
inductive RemoteKind where
  | rld | rst | rat | put | get | copy | release
  deriving DecidableEq, Repr

/-- The issuer of a remote operation: a context of a sequencer, a command of a host ring, a control core, the lock-step
unit (R394), or a home that copies a write to a mirror's partner: its region, and the write that waits (R418). -/
inductive Issuer where
  | ctx (u : SeqUnit) (k : Nat)
  | ring (r cmd : Nat)
  | core (n : Nat)
  | lockstep
  | mirror (region : Nat)
  deriving DecidableEq, Repr

/-- A request of a remote operation, of which a block operation has one for each packet (R399, R402, R405): the attempts
sent, the LC tick and the instant of the last, the loss retries, how many attempts were answered BUSY_HOT or FULL with
the last hint, whether the last attempt is answered, when a hot retry is due, and its result. -/
structure FabPkt where
  sent : Nat := 0
  lastLc : Nat := 0
  losses : Nat := 0
  hots : Nat := 0
  hint : Nat := 0
  answered : Bool := false
  hotDue : Option Nat := none
  result : Option Nat := none
  deriving DecidableEq, Repr

/-- A remote operation that has issued and is not yet closed (R109, R172, R399). -/
structure RemoteOp where
  id : Nat
  issuer : Issuer
  step : Nat
  part : Nat
  radio : Bool
  kind : RemoteKind
  dst : Nat
  addr : Nat
  size : Nat
  operand : Nat
  cmp : Nat
  akind : Nat
  res : Bool
  data : List Byte
  loc : Nat
  token : Option TokenTarget
  /-- The scalar register that takes the value, the next one taking the status (R172). -/
  sd : Option Nat := none
  /-- Its status code once every packet is answered; the reply is then on its way to the issuer. -/
  status : Option Nat := none
  value : Nat := 0
  hint : Nat := 0
  /-- Whether its issuer's step has ended, so that its answer reaches no register (R283). -/
  orphan : Bool := false
  /-- Its tag, stamp and the incarnation it carries (R401); t0 in LC ticks (R402); the Lupin die and the link of its
  route, or its home for the local node (R394, R397); its class (R368); its requests; the sequence number of a mirror
  copy (R418). -/
  tag : Nat := 0
  stamp : Int := 0
  incarn : Nat := 0
  t0 : Nat := 0
  die : Nat := 22
  link : Nat := 0
  local_ : Bool := false
  cls : Nat := 0
  pkts : List FabPkt := []
  seq : Nat := 0
  deriving DecidableEq, Repr

/-- A receipt (R404): the tag and stamp of its atomic, and once it is APPLIED its stored reply and the LC tick of its
application. -/
structure Receipt where
  tag : Nat
  stamp : Int
  reply : Option FabReply := none
  lc : Nat := 0
  deriving DecidableEq, Repr

/-- A line that a home serialises (R409): its 64-B offset, the LC tick at which it may apply again, and its queue. -/
structure FabLine where
  line : Nat
  freeLc : Nat
  queue : List FabReq := []
  deriving DecidableEq, Repr

/-- A home (R397): its receipts, its lines, and the starvation token's tag, stamp and LC tick (R411). -/
structure Home where
  receipts : List Receipt := []
  lines : List FabLine := []
  token : Option (Nat × Int × Nat) := none
  deriving DecidableEq, Repr

/-- A unit in a queue of a fabric pair: its message, its precedence (R426), the link of its route, its bytes still to
send, and the partition and class of its meter and shaper. `mark` is its colour once metered (true yellow), `idle`
whether its lack of idle capacity has been counted (R376). -/
structure FabUnit where
  msg : FabMsg
  level : Nat
  link : Nat
  left : Nat
  cost : Nat
  op : Nat := 0
  pkt : Nat := 0
  mark : Option Bool := none
  idle : Bool := false
  deriving DecidableEq, Repr

/-- A fabric link (R424, R425): its queue, the sequence numbers of its unacknowledged flits, oldest first, how many of
them have been sent again in a replay under way, the next sequence number, the LC ticks of the last acknowledgment and
of the last progress, and the lanes being spared with their spares (an electrical lane, or wavelength 4). -/
structure FabLink where
  queue : List FabUnit := []
  buf : List Nat := []
  replay : Option Nat := none
  next : Nat := 0
  ackLc : Nat := 0
  progressLc : Nat := 0
  sparing : List (Nat × Nat) := []
  deriving DecidableEq, Repr

/-- A write applied on a mirrored primary that waits for the partner's acknowledgment of its copy (R418): the copy's
number, the write, its answer, and when its first attempt left. -/
structure MirrorWait where
  op : Nat
  req : FabReq
  reply : FabReply
  lc : Nat
  deriving DecidableEq, Repr

/-- The mirroring of a region (R417 to R420): the number of the next copy to the partner, the LC tick at which copying
began, the writes that wait; on a secondary the number of the next copy to apply, the LC tick of the last copy, and the
copies that arrived before their turn. -/
structure Mirror where
  seqOut : Nat := 0
  startLc : Nat := 0
  waits : List MirrorWait := []
  seqIn : Option Nat := none
  copyLc : Nat := 0
  early : List FabReq := []
  deriving DecidableEq, Repr

/-- Whether a remote operation was issued by a context of a unit. -/
def RemoteOp.ofUnit (r : RemoteOp) (u : SeqUnit) : Bool :=
  match r.issuer with
  | .ctx v _ => v == u
  | _ => false

/-- A job in an Iris engine queue (R306): its descriptor, the token it signals, and the LC tick before which it does not
start. -/
structure EngJob where
  desc : Nat
  token : TokenTarget
  startLc : Nat
  core : Nat
  deriving DecidableEq, Repr

/-- What a running engine job ends with (R308 to R324): its status, RES0, RES1, its time, what it has written, and the
blocks that the LDPC counters gain. -/
structure EngOut where
  status : Nat := 0
  res0 : Nat := 0
  res1 : Nat := 0
  time : Nat := 32
  writes : List (Nat × List Byte) := []
  reads : List (Nat × Nat) := []
  draws : Nat := 0
  blocks : Nat := 0
  early : Nat := 0
  nopass : Nat := 0
  missing : Nat := 0
  bad : Option Nat := none
  deriving DecidableEq, Repr

/-- An Iris engine queue (R304, R307, R332): the jobs that wait, the one that runs with the LC tick of its start, its
descriptor's bytes as it read them and what it ends with once its engine has run it, the queue's token, GATE, SAT, the
jobs completed, and the end of its last job. -/
structure EngQ where
  jobs : List EngJob := []
  running : Option EngJob := none
  startLc : Nat := 0
  bytes : List Byte := []
  out : Option EngOut := none
  token : Nat := 0
  gate : Bool := false
  sat : Bool := false
  done : Nat := 0
  freeLc : Nat := 0
  deriving DecidableEq, Repr

/-- Where the receiving end of a backhaul direction stands (R329). -/
inductive BhSt where
  | idle | offered | armed
  deriving DecidableEq, Repr

/-- The backhaul link of an Iris die (R326 to R331). The receiving end: its state, the table it offers with its SEQ, the
switch frame of the ACK, the resends, the LC tick of the last LOAD_REQ, the current table, the consecutive failing frames,
the unknown-table frames, and the LC tick of the last header decoded. The transmitting end: its current and its pending
table with SEQ and switch frame. `released` lists what was offered and given up, `sent` is the last management message. -/
structure Bh where
  st : BhSt := .idle
  seq : Nat := 0
  table : List Byte := []
  switch : Nat := 0
  resends : Nat := 0
  sentLc : Nat := 0
  cur : Nat := 0
  curTable : List Byte := []
  fails : Nat := 0
  unknown : Nat := 0
  headerLc : Nat := 0
  txSeq : Nat := 0
  txFrom : Nat := 0
  txTable : List Byte := []
  pend : Option (Nat × Nat × List Byte) := none
  released : List (Nat × List Byte) := []
  sent : List Byte := []
  deriving DecidableEq, Repr

/-- An uplink record being filled (R344 to R346): its symbol count, the PRBs written, as a mask, and its counts. -/
structure CrkRec where
  n : Nat
  map : Nat := 0
  secs : Nat := 0
  gap : Nat := 0
  dup : Nat := 0
  sat : Nat := 0
  bad : Bool := false
  deriving DecidableEq, Repr

/-- What a Crocus die keeps of a flow (R343 to R348, R354): the open uplink records, the symbol count of the last header
written or record sent, the last seqId received and the next one sent, the RATE of its stream, and the blocks sent. -/
structure CrkFlow where
  recs : List CrkRec := []
  last : Option Nat := none
  seqIn : Option Nat := none
  seqOut : Nat := 0
  rate : Nat := 0
  blocks : Nat := 0
  deriving DecidableEq, Repr

/-- A burst or preamble freeze in force (R361): the P of its first frozen period, the quiet periods in a row, and its
periods. -/
structure CrkTrig where
  ref : Option Int := none
  quiet : Nat := 0
  periods : Nat := 0
  deriving DecidableEq, Repr

/-- What a symbol's mark reports of a path (R355): its samples written, its saturated parts, the gain at its start, and the
FROZEN bits seen. -/
structure CrkSym where
  samples : Nat := 0
  clips : Nat := 0
  gain : Int := 0
  frozen : Nat := 0
  deriving DecidableEq, Repr

/-- A front-end path (R353 to R364): the number of the last period and its P, the triggers, the attacks of the present
freeze, the analog gain, FCORR and TCORR that the radio unit reported, the symbols whose marks are to come and the last
mark, the correction words to send, the last estimates, the whole-sample shift, the newest output sample, the units it
takes, and the blocks a transmit path has given. -/
structure CrkPath where
  lastP : Option (Int × Int) := none
  burst : Option CrkTrig := none
  pre : Option CrkTrig := none
  preNext : Bool := false
  attacks : Nat := 0
  gain : Nat := 0
  fcorrIn : Int := 0
  tcorrIn : Int := 0
  syms : Tab CrkSym := []
  mark : Option Nat := none
  fcorr : Int := 0
  tcorr : Int := 0
  est : Int := 0
  tau : Int := 0
  shift : Int := 0
  newest : Int := -1
  units : Nat := 1
  blocks : Nat := 0
  word : Option Nat := none
  deriving DecidableEq, Repr

/-- A frame to be sent (R347, R348, R354, R386, R492): its port's lane, its queue, its bytes with the FCS, its sections of a
U-plane symbol (sectionId, first PRB, and the exponent and mantissas of each PRB) or its payload, the TS byte of a FRAME,
and whether it has waited at the head of its queue. -/
structure TxFrame where
  lane : Nat
  queue : Nat
  len : Nat
  secs : List (Nat × Nat × List (Nat × List Nat)) := []
  raw : List Byte := []
  flow : Option Nat := none
  seq : Nat := 0
  ts : Nat := 0
  waited : Bool := false
  deriving DecidableEq, Repr

/-- A fronthaul port's egress (R385 to R389): the cycle and base in force, whether an accepted change has taken effect, the
instant of an armed change, the end of the last frame in units of 1/200 LC tick, its queues, and the last frame sent. -/
structure CrkPort where
  cycle : Nat := 0
  base : Int := 0
  live : Bool := false
  swapAt : Option Int := none
  busy : Nat := 0
  queues : Tab (List TxFrame) := []
  sent : Option TxFrame := none
  deriving DecidableEq, Repr

/-- An event ring's numbering (R497). -/
structure EvtRing where
  seq : Nat := 0
  phase : Bool := true
  deriving DecidableEq, Repr

/-- Where a step is between submission and completion (R272 to R284, R133, R468, R521): it waits, it is placed, it is being
aborted on its clusters, it drains after a fault, or it has completed and its digests are still to come. -/
inductive StepSt where
  | waiting | placed | aborting | draining | ended
  deriving DecidableEq, Repr

/-- A step as the admission unit holds it (R272): what its submission and its image header give, and its place. -/
structure StepRec where
  id : Nat
  part : Nat
  ring : Nat
  /-- The command that submitted it (R491); none for a replay (R528). -/
  cmd : Option Nat
  cmdId : Nat
  cls : Nat
  radio : Bool
  epoch : Nat
  image : Nat
  args : Nat
  publish : Nat
  lbase : Nat
  prov : Option Nat
  width : Nat
  slice : BitVec 32
  rate : Nat
  declared : Nat
  ctxMask : Nat
  entries : List Nat
  codeLen : Nat
  digest : Nat
  form : Bool
  exactReq : Bool
  arith : Nat
  age : Nat
  seqno : Nat
  bypass : Nat := 0
  aborts : Nat := 0
  eligible : Bool := true
  yellow : Bool := false
  cost : Nat := 0
  st : StepSt := .waiting
  /-- Whether it has been placed before, so that its shaper is not charged again (R382). -/
  requeued : Bool := false
  clusters : List Nat := []
  deadline : Option Nat := none
  /-- The deadline as an instant of ART in nanoseconds (R276). -/
  edgeNs : Int := 0
  placedLc : Nat := 0
  exact : Bool := false
  status : Nat := 0
  detail : Nat := 0
  /-- The clusters on which an abort has run (R282), the C of its rank-0 cluster, the NDET events of those clusters, and
  whether the abort counts toward ABORT_DEMOTE (R285, R541). -/
  aborted : List Nat := []
  abortC : Nat := 0
  ndet : Nat := 0
  counts : Bool := true
  /-- Whether a radio step has run past its entry (R254), whether it is a replay (R528), and its number in lock-step
  (R472). -/
  overran : Bool := false
  replay : Bool := false
  lsSeq : Option Nat := none
  /-- INPUT_DIGEST, once complete (R467); whether RESULT_DIGEST and the provenance digest are complete, and what they read
  (R468, R470). -/
  inDigest : List Byte := []
  hashed : Bool := false
  resDigest : List Byte := []
  provDigest : List Byte := []
  deriving DecidableEq, Repr

/-- A time base (R431, R435, R437): its value in units of 2^−40 ns, the rate word in force, the steps and the rate word
that await the next sync word, the rate words written while LOCKED, latest first, and the LC tick of the last rate
write. Its servo state, its rate register and its holdover rate are registers. -/
structure TimeBase where
  val : Int := 0
  rate : Int := 0
  pendStep : Int := 0
  pendRate : Option Int := none
  hist : List Int := []
  rateLc : Nat := 0
  deriving DecidableEq, Repr

/-- The states that a reset moves its domain through (R519). -/
inductive ResetSt where
  | fencing | draining | held | resetting
  deriving DecidableEq, Repr

/-- A reset that has been triggered and has not returned its domain to IDLE (R519): its level, its target, whether it
stops in HELD, its cause, and the LC tick of its trigger. -/
structure ResetRec where
  id : Nat
  level : Nat
  target : Nat
  st : ResetSt := .fencing
  hold : Bool := false
  cause : Nat := 0
  trigLc : Nat := 0
  /-- LC ticks that the domain has spent HELD (R514), and the tick at which it entered HELD. -/
  heldTicks : Nat := 0
  heldFrom : Nat := 0
  /-- The reset that covers its domain and has taken it over (R522), and whether it has missed its time (R523). -/
  under : Option Nat := none
  late : Bool := false
  deriving DecidableEq, Repr

/-- An owner change that waits (R219, R266): its unit, the new owner byte, whether it is a record of a change set, and
whether the wipe of its slice has been asked for. -/
structure OwnerReq where
  die : Nat
  kind : Nat
  unit : Nat
  owner : Nat
  wiping : Bool := false
  deriving DecidableEq, Repr

/-- A cause that has reached a die and starts a wipe of sealed slices (R228): 1 tamper, 2 life-cycle change, 3 owner
change, 4 domain reset. -/
structure WipeReq where
  die : Nat
  cause : Nat
  slices : Nat
  deriving DecidableEq, Repr

/-- A tier-DMA descriptor in progress (R244 to R246): where it lies, its ranges and flags, and the status that its checks
gave it. `stale` marks one whose ring base was written since. -/
structure TierJob where
  at_ : Nat
  src : Nat
  dst : Nat
  len : Nat
  status : Nat
  evt : Bool
  token : Option TokenTarget
  stale : Bool := false
  deriving DecidableEq, Repr

/-- A policer, meter or shaper (R369 to R380), by the key of its first word: 0 a policer, 1 a meter, 2 a shaper; whether
a written configuration awaits the next tick; the configuration in force; its buckets or credit, in 1/256 of a unit. -/
structure Tc where
  kind : Nat
  dirty : Bool := false
  on : Bool := false
  rate1 : Nat := 0
  cap1 : Nat := 0
  rate2 : Nat := 0
  cap2 : Nat := 0
  b1 : Int := 0
  b2 : Int := 0
  deriving DecidableEq, Repr

/-- What holds a unit that its meter marked red (R376): a host ring or a fabric request. -/
inductive HeldBy where
  | ring (r : Nat)
  | fabric (op pkt : Nat)
  deriving DecidableEq, Repr

/-- A unit held red at the head of its queue (R376): its meter on its die, its cost, and once a tick has marked it green
or yellow the mark and the LC of that tick. -/
structure HeldUnit where
  by_ : HeldBy
  meter : Nat
  cost : Nat
  mark : Option (Bool × Nat) := none
  deriving DecidableEq, Repr

/-- A completion slot that has been written and is not yet released (R488, R494). -/
structure CqSlot where
  slot : Nat
  step : Bool
  stamped : Bool := false
  passed : Bool := false
  lc : Nat
  deriving DecidableEq, Repr

/-- A ring pair (R486 to R496, R592): the pointers of the doorbells and of PRM_RING_PTR, the PHASE, the completion slots
not yet released, and the LC of its last MSI-X message with a message that waits for the microsecond to end. -/
structure Ring where
  sqTail : Nat := 0
  cqHead : Nat := 0
  sqHead : Nat := 0
  cqTail : Nat := 0
  phase : Bool := true
  slots : List CqSlot := []
  msixLc : Option Nat := none
  msixDue : Option Nat := none
  deriving DecidableEq, Repr

/-- A command fetched from a ring and not yet completed (R488, R491): its 64 bytes, the submission head after its fetch,
its colour, the LC of its fetch, and the status its checks gave it, if they ended it. -/
structure Cmd where
  id : Nat
  ring : Nat
  part : Nat
  bytes : List Byte
  sqHead : Nat
  yellow : Bool
  lc : Nat
  cost : Nat := 0
  /-- Its number in lock-step (R472). -/
  lsSeq : Option Nat := none
  started : Bool := false
  deriving DecidableEq, Repr

/-- An entry of the weight-set table (R466). -/
structure WSet where
  owner : Nat
  digest : List Byte
  deriving DecidableEq, Repr

/-- A die's trace unit (R564): the records it holds, oldest first, and the events dropped since its last record with the
stamp of the first. -/
structure Trc where
  held : List (List Byte) := []
  lost : Nat := 0
  lostAt : Nat := 0
  deriving DecidableEq, Repr

/-- A crash dump that runs (R530 to R532): the units still to be scanned, each by die, KIND and UNIT, and where the next
record goes. -/
structure DumpJob where
  units : List (Nat × Nat × Nat)
  addr : Nat
  limit : Nat
  deriving DecidableEq, Repr

/-- What the responder answered last on the DOE mailbox (R508): the kind of message, the slot of a chain, and its data and
signature. -/
inductive SpdmReply where
  | none
  | version
  | capabilities
  | algorithms
  | digests (slots : List Nat) (data : List Byte)
  | certificate (slot : Nat) (chain : List Byte)
  | challengeAuth (slot : Nat) (nonce : List Byte) (signature : List Byte)
  | measurements (blocks : List (Nat × List Byte)) (signature : List Byte)
  | keyExchange (slot : Nat) (data : List Byte)
  | finish
  | endSession
  | error
  deriving DecidableEq, Repr

/-- The SPDM responder (R508): how far a connection has come (0 none, 1 version, 2 capabilities, 3 algorithms), its version,
a session (1 handshake, 2 established), and the last reply. -/
structure Spdm where
  phase : Nat := 0
  v14 : Bool := true
  session : Nat := 0
  reply : SpdmReply := .none
  deriving DecidableEq, Repr

/-- What Foxglove keeps of its measurements (R580, R581): the last package powers in 0.125 W, the latest first; by CAUSE bit
the LC tick since which a condition's measurement has stayed below its threshold by the hysteresis; the dies' temperatures
last read; and the rail current last measured nearest its maximum, in thousandths of it. -/
structure Power where
  watts : List Nat := []
  below : Tab Nat := []
  temps : List Int := []
  rail : Nat := 0
  deriving DecidableEq, Repr

/-- The state of the block. -/
structure State where
  /-- The commands that wait, first in first out. -/
  pending : List Instr := []
  /-- The model's own counter of free values drawn (a value the spec leaves open is `Config.freeValue` of it). -/
  free : Nat := 0
  ident : Ident := {}
  /-- The local count, in LC ticks (R9). -/
  lc : Nat := 0
  /-- The time bases TB0 to TB3 (R431). -/
  tb : Tab TimeBase := []
  /-- OFS at the last sync word and its change to the next, in units of 2^−32 ns, and an ALIGN that waits (R439 to
  R442). -/
  ofs : Int := 0
  ofsStep : Int := 0
  syncLc : Nat := 0
  alignPend : Bool := false
  /-- The dies whose time-base replica is valid (R434). -/
  replicas : List Nat := []
  /-- The registers that do not hold their reset value. -/
  regs : Tab Word := []
  /-- The node's memories by node offset, in canonical form: no byte listed is 0 (R35). -/
  mem : Tab Byte := []
  /-- Host memory as the endpoint reaches it, in the same form. -/
  host : Tab Byte := []
  /-- The offsets of the ECC words that hold an uncorrectable error (R242). -/
  badWords : List Nat := []
  seqs : Tab Seq := []
  tokens : List TokenMsg := []
  remote : List RemoteOp := []
  nextOp : Nat := 0
  /-- The count of fabric operations of each context number (R401). -/
  fabSeq : Tab Nat := []
  /-- The homes of the Lupin dies 22 to 25, by die − 22, and the links of their pairs, by 8 × (die − 22) + link. -/
  homes : Tab Home := []
  links : Tab FabLink := []
  /-- The requests at a Lupin die that no shaper has let pass, by 256 × (die − 22) + 4 × partition + class, and the
  yellow queues of the dies (R376, R379). -/
  egress : Tab (List FabUnit) := []
  yellowQ : Tab (List FabUnit) := []
  /-- The attempts and answers on their way between this node's own issuers and its homes (R394). -/
  localReqs : List FabReq := []
  localReps : List FabReply := []
  mirrors : Tab Mirror := []
  /-- The spare electrical lanes taken, by die − 22 (R425). -/
  spareElec : Tab (List Nat) := []
  /-- The engine queues of the Iris dies, by 64 × Iris number + queue (R304). -/
  eng : Tab EngQ := []
  /-- The last tick of each slot timer, or its enabling write, as an instant of ART in nanoseconds, by 8 × Iris number +
  timer (R297). -/
  stimers : Tab Int := []
  /-- The backhaul links, by Iris number (R326). -/
  bh : Tab Bh := []
  /-- The flows and paths of the Crocus dies, by 4,096 × (die − 20) + flow and 1,024 × (die − 20) + path; their ports, by
  16 × (die − 20) + lane; the frames that have not joined their queue; the control words to be sent, with their cell and
  stream; and the frames given to the host rings of partition 0, with their device port and LC (R334 to R389). -/
  crkFlows : Tab CrkFlow := []
  crkPaths : Tab CrkPath := []
  crkPorts : Tab CrkPort := []
  crkWait : Tab (List TxFrame) := []
  crkWords : Tab (List (Nat × Nat × Nat)) := []
  crkHost : List (Nat × Nat × RxFrame) := []
  /-- The recovered-clock outputs held low after a loss of lock, by 2 × (die − 20) + output (R446). -/
  rclkLow : List Nat := []
  /-- The steps that the admission unit holds and those placed (R272). -/
  steps : List StepRec := []
  nextStep : Nat := 0
  /-- The resets under way (R519), oldest first. -/
  resets : List ResetRec := []
  nextReset : Nat := 0
  /-- The Iris cores and engine queues that a timed-out L1 has withdrawn, by their targets (R514, R523); the LC tick from
  which the heartbeat counts (R524, R525); and, while PWRCYC_REQ_N is low, the cause code that PWRCYC_REQ carried
  (R542). -/
  deadUnits : List Nat := []
  hbLc : Nat := 0
  pwrcyc : Option Nat := none
  /-- The target states of bank groups in transition, by 32 × die + group (R222). -/
  bankGo : Tab Nat := []
  /-- The owner changes that wait, in the order they were asked for (R219, R266). -/
  ownerReqs : List OwnerReq := []
  /-- The causes of a wipe that have been detected and not yet taken at their die (R228). -/
  wipes : List WipeReq := []
  /-- The memory interfaces in training: 0 to 15 HBM3E stacks, 30 LPDDR5X (R240, R591). -/
  training : List Nat := []
  /-- The descriptors in progress in the tier-DMA engines (R244). -/
  tier : Tab TierJob := []
  tc : Tab Tc := []
  held : List HeldUnit := []
  rings : Tab Ring := []
  /-- The ring from which the next pass of the host-ring engine begins (R383). -/
  ringScan : Nat := 0
  cmds : List Cmd := []
  nextCmd : Nat := 0
  /-- The last write of PRM_CQ_STAMP, until its stamp is issued (R494). -/
  stampSel : Option Word := none
  /-- Foxglove's copy of the staging area and the word of the APPLY that started it (R260). -/
  fxgCopy : Tab Word := []
  fxgWord : Word := 0
  /-- The swap boundary of an armed change set, in nanoseconds of ART (R261). -/
  swapAt : Int := 0
  /-- The logical clusters that are quarantined, and those that QUARANTINE names and that are not yet free (R527). -/
  quarantined : List Nat := []
  quarNext : List Nat := []
  /-- The logical clusters whose suspect entries are frozen (R526). -/
  suspFrozen : List Nat := []
  /-- The placement count of each cluster, and the logical row that its spare shadows (R539). -/
  placements : Tab Nat := []
  shadowRow : Tab Nat := []
  /-- Whether the lock-step unit is in STOPPED or a tamper has stopped admission (R475, R507). -/
  tamperStop : Bool := false
  /-- The partition settings and the stretch guard of the previous epoch (R265). -/
  prevPt : Tab Word := []
  prevG : Nat := 16
  /-- The step digests of this device that lock-step has not yet compared, by SEQ (R474): the LC tick at which the own
  record was written, and the digest. -/
  lsOwn : Tab (Nat × List Byte) := []
  /-- The weight-set table (R466): an entry's owner and WEIGHT_DIGEST. -/
  wsets : Tab WSet := []
  evt : Tab EvtRing := []
  /-- The trace units, by die (R562), and the LC tick from which each die's cycle counter runs (R565). -/
  trc : Tab Trc := []
  pmuLc : Tab Nat := []
  /-- The LC tick and the logical cluster of the latest hit of a watch point, by its TW_CFG (R568). -/
  twLast : Tab (Nat × Nat) := []
  msix : List (Nat × Nat) := []
  /-- Lands (R584): POR_N and PERST_N low; THERMTRIP_N held low. The device starts with power good and PERST# asserted. `perstReset` says that an assertion of PERST# began the chip reset under way. -/
  porLow : Bool := false
  perstLow : Bool := true
  thermtrip : Bool := false
  perstReset : Bool := false
  /-- Whether the fuses have been sensed (R502), the boot window (R481), the length that PRM_BOOT_CMD gave, and how many
  images have been released since power good. -/
  sensed : Bool := false
  bootWin : Tab Byte := []
  bootLen : Nat := 0
  boots : Nat := 0
  /-- The header of the firmware image that runs and the SHA3-256 of its rounding tables (R463, R503, R508). -/
  bootHdr : List Byte := []
  bootTabs : List Byte := []
  spdm : Spdm := {}
  /-- The debug port (R546, R549): its instruction register, the nonce issued and not yet used, and the OFFSET of the last
  update of the authentication buffer. -/
  tapIr : Nat := 1
  nonce : Option (List Byte) := none
  authOfs : Nat := 0
  /-- The LC tick at which the present global stop began, and the one at which it will end (R558, R560). -/
  gstopLc : Nat := 0
  gresume : Option Nat := none
  dump : Option DumpJob := none
  power : Power := {}
  /-- The target states of the power domains in transition: 0 OFF, 1 ON (R577). -/
  pdGo : Tab Nat := []
  /-- The card power limit in W, 0 for none (R585). -/
  cardLimit : Nat := 0
  /-- The status and the data of the last access that was answered (R13, R17). -/
  ansStatus : Nat := 0
  ansData : List Byte := []
  deriving DecidableEq, Repr

/-- The device right after reset (R576). -/
def State.reset : State := {}

end Sys2Proof.Machine
end

