-- ==== Sys2Proof/Machine/Ops.lean ====
section
/-! DEFINITION. The named operations over registers and memories that every meaning is written with: register fields,
the offset map (R35), the memories with their domains, owners and errors (R29, R213 to R243), sequencer records, free
values, and event records (R497 to R499). -/
namespace Sys2Proof.Machine

/-- Status codes (R485). -/
def stOK : Nat := 0x00
/-- ABORTED_WINDOW (R485). -/
def stAborted : Nat := 0x01
/-- UNCORRECTABLE (R485). -/
def stUncorr : Nat := 0x02
/-- OUTCOME_UNKNOWN (R485). -/
def stUnknown : Nat := 0x03
/-- BUSY_HOT (R485). -/
def stBusyHot : Nat := 0x04
/-- REGION_LOST (R485). -/
def stRegionLost : Nat := 0x05
/-- PEER_RESET (R485). -/
def stPeerReset : Nat := 0x06
/-- NOT_OWNER (R485). -/
def stNotOwner : Nat := 0x07
/-- FENCED (R485). -/
def stFenced : Nat := 0x08
/-- STALE_EPOCH (R485). -/
def stStale : Nat := 0x09
/-- NO_UNIT (R485). -/
def stNoUnit : Nat := 0x0A

/-- The rank of a status in the order of R18; the lower rank is reported. -/
def stRank (s : Nat) : Nat :=
  if s = stNoUnit then 0 else if s = stFenced then 1 else if s = stStale then 2 else if s = stNotOwner then 3
  else if s = stRegionLost then 4 else if s = stPeerReset then 5 else if s = stUncorr then 6
  else if s = stAborted then 7 else if s = stBusyHot then 8 else if s = stUnknown then 9 else 10

/-- Of two causes that apply at the same moment, the one the device reports (R18). -/
def stFirst (a b : Nat) : Nat := if stRank a ≤ stRank b then a else b

/-- A register's stored word (R12). -/
def State.reg (s : State) (r : RegD) (die : Nat) (ix : List Nat) : Word :=
  (s.regs.find (r.at die ix)).getD (r.resetAt ix)

/-- The state with a register's word replaced by hardware. -/
def State.setReg (s : State) (r : RegD) (die : Nat) (ix : List Nat) (v : Word) : State :=
  { s with regs := s.regs.put (r.at die ix) v }

/-- A field of a register as a number. -/
def State.fld (s : State) (r : RegD) (die : Nat) (ix : List Nat) (hi lo : Nat) : Nat :=
  getField (s.reg r die ix) hi lo

/-- The state with one field of a register replaced by hardware. -/
def State.setFld (s : State) (r : RegD) (die : Nat) (ix : List Nat) (hi lo x : Nat) : State :=
  s.setReg r die ix (setField (s.reg r die ix) hi lo x)

/-- The state with a saturating counter field advanced. -/
def State.bumpFld (s : State) (r : RegD) (die : Nat) (ix : List Nat) (hi lo x : Nat) : State :=
  s.setFld r die ix hi lo (satAdd (s.fld r die ix hi lo) x (2 ^ (hi + 1 - lo) - 1))

/-- A fresh free value (a value the spec leaves open), and the state with the draw counted. -/
def State.draw (s : State) : Nat × State := (Config.freeValue s.free, { s with free := s.free + 1 })

/-! The dies and their numbering. -/

/-- Whether a Dahlia die is enabled on the part (R2, R3). -/
def State.dieOn (s : State) (d : Nat) : Bool :=
  if d < 16 then !(s.ident.vx3214 && s.ident.disabled.contains d) else decide (d < 32)

/-- The enabled Dahlia dies in ascending index (R4). -/
def State.enabledDies (s : State) : List Nat := (List.range 16).filter s.dieOn

/-- The cluster (8 × die + local) of a logical cluster number (R4). -/
def State.physCluster (s : State) (c : Nat) : Option Nat :=
  (s.enabledDies[c / 8]?).map (fun d => 8 * d + c % 8)

/-- The logical number of a cluster (R4); 0xFFFF for a cluster of a disabled die. -/
def State.logCluster (s : State) (p : Nat) : Nat :=
  if s.dieOn (p / 8) then 8 * ((s.enabledDies.filter (fun d => decide (d < p / 8))).length) + p % 8 else 0xFFFF

/-- How many clusters the part has enabled (R1). -/
def State.numClusters (s : State) : Nat := 8 * s.enabledDies.length

/-- The die a sequencer lies on. -/
def unitDie : SeqUnit → Nat
  | .cluster n => n / 8
  | .iris n => 16 + n / 48

/-- The state of a power domain in PRM_PD_STATE: 0 OFF, 1 ON, 2 in transition (R577). -/
def State.pdState (s : State) (n : Nat) : Nat :=
  if n < 32 then s.fld R.prmPdState0 31 [] (2 * n + 1) (2 * n)
  else s.fld R.prmPdState1 31 [] (2 * (n - 32) + 1) (2 * (n - 32))

/-- The state with a power domain's state replaced. -/
def State.setPd (s : State) (n v : Nat) : State :=
  if n < 32 then s.setFld R.prmPdState0 31 [] (2 * n + 1) (2 * n) v
  else s.setFld R.prmPdState1 31 [] (2 * (n - 32) + 1) (2 * (n - 32)) v

/-- Whether a power domain reads ON. -/
def State.pdOn (s : State) (n : Nat) : Bool := s.pdState n == 1

/-! The node offset map (R35). -/

/-- What a node offset names (R35): the stack, array or region with the offset inside it, or a register window. -/
inductive Region where
  | hbm (d o : Nat)
  | lpddr (o : Nat)
  | sp (d o : Nat)
  | xch (d o : Nat)
  | sealed (d o : Nat)
  | iris (i o : Nat)
  | regs (x o : Nat)
  | gap
  deriving DecidableEq, Repr

/-- The region of a node offset (R35). -/
def regionOf (off : Nat) : Region :=
  if off < 0x010000000000 then .hbm (off / 0x1000000000) (off % 0x1000000000)
  else if off < 0x018000000000 then .lpddr (off - 0x010000000000)
  else if off < 0x020000000000 then .gap
  else if off < 0x020100000000 then
    let x := off - 0x020000000000
    let d := x / 0x10000000
    let o := x % 0x10000000
    if o < 0x08000000 then .sp d o
    else if o < 0x08200000 then .xch d (o - 0x08000000)
    else if 0x0C000000 ≤ o ∧ o < 0x0C800000 then .sealed d (o - 0x0C000000)
    else .gap
  else if off < 0x028000000000 then .gap
  else if off < 0x028040000000 then
    let x := off - 0x028000000000
    if x % 0x10000000 < 0x02000000 then .iris (x / 0x10000000) (x % 0x10000000) else .gap
  else if off < winBase then .gap
  else if off < winBase + 0x20000000 then .regs ((off - winBase) / 0x1000000) ((off - winBase) % 0x1000000)
  else .gap

/-- The node offset of a byte of the interleaved scratchpad of die d (R35). -/
def spBase (d : Nat) : Nat := 0x020000000000 + d * 0x10000000
/-- The node offset of the exchange region of die d (R35). -/
def xchBase (d : Nat) : Nat := spBase d + 0x08000000
/-- The node offset of the sealed region of die d (R35). -/
def sealedBase (d : Nat) : Nat := spBase d + 0x0C000000
/-- The node offset of the SRAM of Iris number i (R35). -/
def irisBase (i : Nat) : Nat := 0x028000000000 + i * 0x10000000
/-- The node offset of HBM3E stack d (R35). -/
def hbmBase (d : Nat) : Nat := d * 0x1000000000

/-- The bank of an array offset (R212). -/
def bankOf (groupWide : Bool) (o : Nat) : Nat :=
  if groupWide then 16 * bitsOf o 26 22 + bitsOf o 9 6 else bitsOf o 14 6

/-- The bank row of an array offset (R212). -/
def rowOf (groupWide : Bool) (o : Nat) : Nat := if groupWide then bitsOf o 21 10 else bitsOf o 26 15

/-- The bank group of an array offset (R212). -/
def groupOf (groupWide : Bool) (o : Nat) : Nat := if groupWide then bitsOf o 26 22 else bitsOf o 14 10

/-- Whether die d's interleave is group-wide (R213). -/
def State.groupWide (s : State) (d : Nat) : Bool := s.fld R.dhlSpCfg d [] 0 0 == 1

/-- The power state of bank group g of die d: 0 ON, 1 RETENTION, 2 OFF, 3 in transition (R220). -/
def State.bankSt (s : State) (d g : Nat) : Nat := s.fld R.dhlSpPwrState d [] (2 * g + 1) (2 * g)

/-- The owner byte of bank group g of die d (R215). -/
def State.groupOwner (s : State) (d g : Nat) : Nat := s.fld R.dhlSpOwn d [g / 8] (8 * (g % 8) + 7) (8 * (g % 8))

/-- The owner byte of exchange slot k of die d (R215). -/
def State.slotOwner (s : State) (d k : Nat) : Nat := s.fld R.dhlXchOwn d [k / 8] (8 * (k % 8) + 7) (8 * (k % 8))

/-- The owner byte of sealed slice j of die d (R215). -/
def State.sliceOwner (s : State) (d j : Nat) : Nat := s.fld R.dhlSealedOwn d [] (8 * j + 7) (8 * j)

/-! Sequencers. -/

/-- A unit's sequencer. -/
def State.seq (s : State) (u : SeqUnit) : Seq := s.seqs.getD u.key {}

/-- The state with a unit's sequencer replaced. -/
def State.setSeq (s : State) (u : SeqUnit) (q : Seq) : State := { s with seqs := s.seqs.put u.key q }

/-- The units of the device, clusters first. -/
def allUnits : List SeqUnit := (List.range 128).map .cluster ++ (List.range 192).map .iris

/-! Memory. -/

/-- The byte at a node offset; an offset that no write has reached reads 0. -/
def State.byte (s : State) (off : Nat) : Byte := s.mem.getD off 0

/-- A memory with one byte written, in canonical form: a byte of 0 is not listed. -/
def Memory.write (m : Tab Byte) (off : Nat) (b : Byte) : Tab Byte := if b = 0 then m.del off else m.put off b

/-- A memory with a list of bytes written from an offset on. -/
def Memory.writeList (m : Tab Byte) : Nat → List Byte → Tab Byte
  | _, [] => m
  | off, b :: t => Memory.writeList (Memory.write m off b) (off + 1) t

/-- The canonical form: addresses strictly rising, and no byte listed that an unlisted address reads as. -/
def Memory.wf (m : Tab Byte) : Bool := Tab.wf m && m.all (fun e => e.2 != 0)

/-- n bytes from a node offset. -/
def State.bytes (s : State) (off n : Nat) : List Byte := (List.range n).map (fun i => s.byte (off + i))

/-- A little-endian number of n bytes at a node offset (R7). -/
def State.num (s : State) (off n : Nat) : Nat := leNat (s.bytes off n)

/-- The width of the ECC word of a region: 64 B in HBM3E and LPDDR5X, else 8 B (R242). -/
def eccWidth : Region → Nat
  | .hbm .. => 64
  | .lpddr _ => 64
  | _ => 8

/-- The ECC words that [off, off + n) touches, by their first offset. -/
def eccWords (off n : Nat) : List Nat :=
  let w := eccWidth (regionOf off)
  if n = 0 then [] else (List.range ((off + n - 1) / w + 1 - off / w)).map (fun i => (off / w + i) * w)

/-- The first uncorrectable word of a range, if there is one (R242). -/
def State.badIn (s : State) (off n : Nat) : Option Nat := (eccWords off n).find? (fun w => s.badWords.contains w)

/-- Bytes stored from a node offset: each ECC word that the store covers whole loses its error (R243). -/
def State.store (s : State) (off : Nat) (bs : List Byte) : State :=
  let w := eccWidth (regionOf off)
  { s with
    mem := Memory.writeList s.mem off bs
    badWords := s.badWords.filter (fun a => !(decide (off ≤ a) && decide (a + w ≤ off + bs.length))) }

/-- A list of stores in order. -/
def State.storeAll (s : State) (l : List (Nat × List Byte)) : State := l.foldl (fun s e => s.store e.1 e.2) s

/-- A range zero-filled: its bytes and its errors go. -/
def State.zeroRange (s : State) (off n : Nat) : State :=
  { s with
    mem := s.mem.keep (fun a => !(decide (off ≤ a) && decide (a < off + n)))
    badWords := s.badWords.filter (fun a => !(decide (off ≤ a) && decide (a < off + n))) }

/-- n bytes of host memory. -/
def State.hostBytes (s : State) (a n : Nat) : List Byte := (List.range n).map (fun i => s.host.getD (a + i) 0)

/-- A little-endian number in host memory. -/
def State.hostNum (s : State) (a n : Nat) : Nat := leNat (s.hostBytes a n)

/-- Bytes written to host memory. -/
def State.hostStore (s : State) (a : Nat) (bs : List Byte) : State := { s with host := Memory.writeList s.host a bs }

/-- Whether the device is under a global stop (R558). -/
def State.gstopped (s : State) : Bool := s.fld R.prmDbgStat 31 [] 1 1 == 1

/-! Event counters. -/

/-- Whether an event of a unit of a die counts in a counter's UNITS (R565): a cluster, or a group of 6 DSP cores. -/
def unitsPick (die units unit : Nat) : Bool :=
  if die < 16 then bitOf units unit else if die < 20 then bitOf units (unit / 6) else true

/-- The sequencers of a die. -/
def unitsOfDie (die : Nat) : List SeqUnit :=
  if die < 16 then (List.range 8).map (fun l => .cluster (8 * die + l))
  else if die < 20 then (List.range 48).map (fun c => .iris (48 * (die - 16) + c))
  else []

/-- Whether a die's counters stand still (R565): FREEZE is set during a global stop, or while its units are halted. -/
def State.pmuFrozen (s : State) (die : Nat) : Bool :=
  s.fld R.pmuCtl die [] 1 1 == 1 &&
  (s.gstopped ||
    (let run := (unitsOfDie die).filter (fun u => (s.seq u).active)
     !run.isEmpty && run.all (fun u => (s.seq u).dbgHalted)))

/-- n added to a die's counter i, with its wrap (R565). -/
def State.pmuAdd (s : State) (die i n : Nat) : State :=
  let x := s.fld R.pmuCnt die [i] 47 0 + n
  let s := s.setFld R.pmuCnt die [i] 47 0 x
  if x ≥ 2 ^ 48 then s.setFld R.pmuCtl die [] (8 + i) (8 + i) 1 else s

/-- n events of a code at a unit of a die counted by every counter that selects them (R565); an event that belongs to no unit
counts whatever UNITS holds. -/
def State.pmuAt (s : State) (die code : Nat) (unit : Option Nat) (n : Nat) : State :=
  if n = 0 ∨ s.fld R.pmuCtl die [] 0 0 = 0 then s
  else if s.pmuFrozen die then s
  else
    (List.range 8).foldl (fun s i =>
      let pick := match unit with
        | none => true
        | some u => unitsPick die (s.fld R.pmuEvt die [i] 15 8) u
      if s.fld R.pmuEvt die [i] 7 0 = code ∧ pick = true then s.pmuAdd die i n else s) s

/-- n events of a unit counted (R565). -/
def State.pmu (s : State) (die code unit n : Nat) : State := s.pmuAt die code (some unit) n

/-- The number of a sequencer on its die (R532): its local cluster or core. -/
def localUnit : SeqUnit → Nat
  | .cluster n => n % 8
  | .iris n => n % 48

/-- The cycles of a die's main clock up to an LC tick (R565): lane cycles at the die's RATE, signal cycles at 1.41 GHz,
control cycles at 2.0 GHz, or LC ticks. -/
def State.clockAt (s : State) (die t : Nat) : Nat :=
  if die < 16 then t * s.fld R.fxgDieRate 31 [die] 15 0 / 4096
  else if die < 20 then t * 1410 / 1000
  else if die = 31 then 2 * t
  else t

/-- A die's cycle counter, and the counters that count its cycles, brought up to the present tick (R565). The counter CYC runs
whether or not EN is set. -/
def State.pmuSync (s : State) (die : Nat) : State :=
  let n := s.clockAt die s.lc - s.clockAt die (s.pmuLc.getD die 0)
  let s := { s with pmuLc := s.pmuLc.put die s.lc }
  if s.pmuFrozen die then s
  else
    let s := s.setFld R.pmuCyc die [] 47 0 (s.fld R.pmuCyc die [] 47 0 + n)
    if die < 16 then s.pmuAt die 0x01 none n else if die < 20 then s.pmuAt die 0x21 none n else s

/-! Event records (R497 to R499). -/

/-- The event kinds of R498. -/
def evProtection : Nat := 0x0001
/-- REFUSED (R498). -/
def evRefused : Nat := 0x0002
/-- EXCEPTION (R498). -/
def evException : Nat := 0x0003
/-- ABORTED_WINDOW (R498). -/
def evAborted : Nat := 0x0004
/-- RADIO_OVERRUN (R498). -/
def evRadioOverrun : Nat := 0x0005
/-- MEMORY (R498). -/
def evMemory : Nat := 0x0006
/-- LINK (R498). -/
def evLink : Nat := 0x0007
/-- STATE (R498). -/
def evState : Nat := 0x0008
/-- PTP_STAMP (R498). -/
def evPtpStamp : Nat := 0x0009
/-- DIGEST_A (R498). -/
def evDigestA : Nat := 0x000A
/-- DIGEST_B (R498). -/
def evDigestB : Nat := 0x000B
/-- TAMPER (R498). -/
def evTamper : Nat := 0x000C
/-- TOKEN (R498). -/
def evToken : Nat := 0x000D
/-- OVERFLOW (R498). -/
def evOverflow : Nat := 0x00FF

/-- The 64 B of an event record (R497). -/
def eventRecord (kind flags die part stamp : Nat) (payload : List Byte) (seq : Nat) (phase : Bool) : List Byte :=
  leBytes 2 kind ++ leBytes 1 flags ++ leBytes 1 die ++ leBytes 1 part ++ leBytes 3 0 ++ leBytes 8 stamp ++
  (payload ++ List.replicate (40 - payload.length) 0).take 40 ++ leBytes 8 (seq % 2 ^ 32 + b2n phase * 2 ^ 32)

/-- The flags byte of an event record, stamped in LC (R434, R451): PRIMROSE while the replica of the die that the record
names is not valid. STRETCH does not arise in a model that does not stretch a clock, and LC is no base that holds
over. -/
def State.stampFlags (s : State) (die : Nat) : Nat := if die < 32 ∧ ¬ s.replicas.contains die then 2 else 0

/-- What the bases of a PTP_STAMP record add to its flags (R451): TB0, TB1 and ART in it hold over, are unlocked, or slew. -/
def State.ptpFlags (s : State) : Nat :=
  let st (n : Nat) : Nat := s.fld R.prmTbCfg 31 [n] 1 0
  b2n (st 0 == 2 || st 1 == 2) * 4 + b2n (st 0 == 0 || st 1 == 0) * 8 + b2n (decide (s.ofs ≠ 0)) * 16

/-- An MSI-X message of a function's vector: sent, or held pending while the vector is masked (R481, R496). -/
def State.sendMsix (s : State) (fn vec : Nat) : State :=
  let masked := s.fld R.msixTable fn [2 * vec + 1] 32 32 == 1
  if masked then s.setFld R.msixPba fn [vec / 64] (vec % 64) (vec % 64) 1
  else ({ s with msix := s.msix ++ [(fn, vec)] }).pmu 31 0xA4 0 1

/-- The numbering of a function's event ring. -/
def State.evtRing (s : State) (fn : Nat) : EvtRing := s.evt.getD fn {}

/-- One record written at TAIL, which then advances; PHASE flips as TAIL wraps (R493, R497, R499). -/
def State.putRecord (s : State) (fn kind die : Nat) (payload : List Byte) (seq : Nat) : State :=
  let n := 2 ^ s.fld R.prmEvtCfg fn [] 3 0
  let tail := s.fld R.prmEvtStat fn [] 15 0
  let base := s.fld R.prmEvtBase fn [] 63 6 * 64
  let ring := s.evtRing fn
  let s := s.hostStore (base + 64 * tail) (eventRecord kind (s.stampFlags die + (if kind = evPtpStamp then s.ptpFlags else 0)) die fn s.lc payload seq ring.phase)
  let tail' := if tail + 1 ≥ n then 0 else tail + 1
  let s := (s.setFld R.prmEvtStat fn [] 15 0 tail').pmu 31 0xA3 0 1
  { s with evt := s.evt.put fn { ring with phase := if tail' = 0 then !ring.phase else ring.phase } }

/-- The free record slots of a function's event ring (R499). -/
def State.evtFree (s : State) (fn : Nat) : Nat :=
  let n := 2 ^ s.fld R.prmEvtCfg fn [] 3 0
  let tail := s.fld R.prmEvtStat fn [] 15 0
  let head := s.fld R.prmEvtHead fn [] 15 0
  (head + n - tail - 1) % n

/-- An event raised in the ring of a partition (R497 to R499): numbered, and written unless the ring is full, when it
is counted as lost. While EN reads 0 it is neither written nor counted. -/
def State.emit (s : State) (part kind die : Nat) (payload : List Byte) : State :=
  if s.fld R.prmEvtCfg part [] 15 15 = 0 then s
  else
    let ring := s.evtRing part
    let seq := ring.seq
    let s := { s with evt := s.evt.put part { ring with seq := seq + 1 } }
    if s.evtFree part = 0 then s.bumpFld R.prmEvtStat part [] 47 16 1
    else
      let s := s.putRecord part kind die payload seq
      s.sendMsix part (s.fld R.prmEvtCfg part [] 14 4)

/-- The master code of a record (R498); a cluster by its logical number. -/
def State.masterCode (s : State) : Master → Nat
  | .fn n => n
  | .core n => 0x100 + n
  | .unit (.cluster n) => 0x200 + s.logCluster n
  | .unit (.iris n) => 0x400 + n
  | .fabric _ _ => 0x500
  | .debug _ => 0x501
  | .tier e => 0x502 + e
  | .foxglove => 0x510
  | .lockstep => 0x511
  | .digest => 0x512
  | .dma _ => 0x513
  | .crocus c => 0x514 + c

/-- The partition a master acts for (R31, R218, R258). -/
def State.masterPart (s : State) : Master → Nat
  | .fn n => n
  | .unit u => (s.seq u).part
  | .fabric _ p => p
  | .dma p => p
  | _ => 0

/-- Whether a master acts for partition 0: the control cores, the physical function, the blocks that firmware drives
(R258), and debug access (R557). -/
def actsP0 : Master → Bool
  | .core _ => true
  | .fn n => n == 0
  | .foxglove => true
  | .tier _ => true
  | .lockstep => true
  | .digest => true
  | .debug _ => true
  | .dma p => p == 0
  | _ => false

/-- The node number of this node (R393): NODE_ID takes effect when the lock is committed; until then the node is the one
that every node names 0xFFFF. -/
def State.nodeId (s : State) : Nat := if s.fld R.lpnNode 22 [] 24 24 = 1 then s.fld R.lpnNode 22 [] 15 0 else 0xFFFF

/-- The global address of a node offset on this node (R10). -/
def State.globalAddr (s : State) (off : Nat) : Nat := s.nodeId * 2 ^ 48 + off

/-- A PROTECTION event in the ring of the issuing master (R16, R498). -/
def State.protection (s : State) (m : Master) (target space : Nat) : State :=
  s.emit (s.masterPart m) evProtection 0xFF (leBytes 8 target ++ leBytes 2 (s.masterCode m) ++ leBytes 1 space)

/-- A REFUSED event in the ring of a partition (R498). -/
def State.refusedIn (s : State) (part target : Nat) (value : Word) (space : Nat) : State :=
  s.emit part evRefused 0xFF (leBytes 8 target ++ leBytes 8 value.toNat ++ leBytes 1 space)

/-- A REFUSED event in the ring of the issuing master (R498). -/
def State.refusedBy (s : State) (m : Master) (target : Nat) (value : Word) : State :=
  s.refusedIn (s.masterPart m) target value 0

/-- A STATE event in the ring of partition 0: the register and its old and new state (R498). -/
def State.stateEvent (s : State) (regAddr old new_ : Nat) : State :=
  s.emit 0 evState 0xFF (leBytes 8 (s.globalAddr regAddr) ++ leBytes 1 old ++ leBytes 1 new_)

/-- The memory number of a MEMORY event (R498). -/
def memoryCode : Region → Nat
  | .hbm d _ => 16 + d
  | .lpddr _ => 32
  | .iris i _ => 33 + i
  | .sp d _ => d
  | .xch d _ => d
  | .sealed d _ => d
  | _ => 0xFF

/-- The die of a memory, the source of its MEMORY events (R497); 0xFF for none. -/
def memoryDie : Region → Nat
  | .hbm d _ => d
  | .lpddr _ => 30
  | .iris i _ => 16 + i
  | .sp d _ => d
  | .xch d _ => d
  | .sealed d _ => d
  | _ => 0xFF

/-- An uncorrectable error at a node offset: counted, held in the error-address register if that is free, and raised in
the ring of partition 0 and of the partition whose item failed (R243). -/
def State.memError (s : State) (off part : Nat) : State :=
  let go (ecc err : RegD) (die : Nat) (s : State) : State :=
    let s := s.bumpFld ecc die [] 63 32 1
    if s.fld err die [] 63 63 = 0 then
      (s.setFld err die [] 47 0 off).setFld err die [] 63 63 1
    else s
  let s := match regionOf off with
    | .hbm d _ => go R.dhlHbmEcc R.dhlHbmErraddr d s
    | .lpddr _ => go R.tlpEcc R.tlpErraddr 30 s
    | .iris i _ => go R.irsSramEcc R.irsSramErraddr (16 + i) s
    | .sp d _ => go R.dhlSpEcc R.dhlSpErraddr d s
    | .xch d _ => go R.dhlSpEcc R.dhlSpErraddr d s
    | .sealed d _ => go R.dhlSpEcc R.dhlSpErraddr d s
    | _ => s
  let pl := leBytes 1 (memoryCode (regionOf off)) ++ leBytes 1 1 ++ leBytes 8 off
  let s := s.emit 0 evMemory (memoryDie (regionOf off)) pl
  if part = 0 then s else s.emit part evMemory (memoryDie (regionOf off)) pl

/-- The offsets of the 64-B words that [off, off + n) touches. -/
def words64 (off n : Nat) : List Nat :=
  if n = 0 then [] else (List.range ((off + n - 1) / 64 + 1 - off / 64)).map (fun i => (off / 64 + i) * 64)

/-- Whether [off, off + n) lies where a step of partition p with the given BANK_SLICE reaches on its own die d as a
scheduled access: its slice of the interleaved array, with the lock committed, or its exchange slots
(R149, R213, R216). -/
def State.stepReach (s : State) (d : Nat) (slice : BitVec 32) (p off n : Nat) : Bool :=
  (words64 off n).all (fun a =>
    match regionOf a with
    | .sp x o => x == d && s.fld R.dhlSpCfg d [] 8 8 == 1 && slice.getLsbD (groupOf (s.groupWide d) o)
    | .xch x o => x == d && s.slotOwner d (o / 0x10000) == p
    | _ => false)

end Sys2Proof.Machine
end

