-- ==== Sys2Proof/Machine/TcOps.lean ====
section
/-! DEFINITION. Policers, meters and shapers (R367 to R381): configuration at a tick, buckets and credits, colours, and the
units held red that every tick meters again. A policer, meter or shaper is named by the key of its first word. -/
namespace Sys2Proof.Machine

/-- The word at a register key. -/
def State.keyWord (s : State) (k : Nat) : Word := (s.regs.find k).getD 0

/-- A counter field of a counter word at a key, advanced; it saturates (R371). -/
def State.bumpKey (s : State) (k hi lo : Nat) : State :=
  let w := s.keyWord k
  { s with regs := s.regs.put k (setField w hi lo (satAdd (getField w hi lo) 1 (2 ^ (hi + 1 - lo) - 1))) }

/-- A written configuration comes into force (R371): the rates and sizes of its words. -/
def Tc.install (t : Tc) (w0 w1 : Word) : Tc :=
  let on := if t.kind = 2 then getField w0 31 0 != 0 else if t.kind = 0 then w0.getLsbD 56 else w1.getLsbD 56
  { t with dirty := false, on := on, rate1 := getField w0 31 0, cap1 := getField w0 55 32 * 256,
           rate2 := getField w1 31 0, cap2 := getField w1 55 32 * 256 }

/-- n ticks' increments, capped (R372, R374, R380). -/
def Tc.grow (t : Tc) (n : Nat) : Tc :=
  if !t.on then t
  else { t with b1 := min (t.cap1 : Int) (t.b1 + t.rate1 * n), b2 := min (t.cap2 : Int) (t.b2 + t.rate2 * n) }

/-- Every bucket, and the credit, at its burst size (R371). -/
def Tc.full (t : Tc) : Tc := { t with b1 := t.cap1, b2 := t.cap2 }

/-- The first of several ticks (R371): a written configuration is installed first, then the increment applies; turning on
fills the buckets after it. -/
def Tc.firstTick (t : Tc) (w0 w1 : Word) : Tc :=
  if t.dirty then
    let t' := (t.install w0 w1).grow 1
    if t'.on && !t.on then t'.full else t'
  else t.grow 1

/-- One policer, meter or shaper over n ticks, n at least 1. -/
def State.tcRun (s : State) (k n : Nat) (t : Tc) : Tc := (t.firstTick (s.keyWord k) (s.keyWord (k + 8))).grow (n - 1)

/-- n ticks of every policer, meter and shaper (R369), with no unit held. -/
def State.tcGrow (s : State) (n : Nat) : State :=
  if n = 0 then s else { s with tc := s.tc.map (fun e => (e.1, s.tcRun e.1 n e.2)) }

/-- The configuration words of a unit written: they take effect at the next tick (R371). -/
def State.tcDirty (s : State) (kind k : Nat) : State :=
  let t := s.tc.getD k { kind := kind }
  { s with tc := s.tc.put k { t with dirty := true } }

/-- The policer, meter or shaper at a key; one never configured is off. -/
def State.tcAt (s : State) (k : Nat) : Tc := s.tc.getD k { kind := 0 }

/-- A unit of a length meets a policer (R372): whether it passes. -/
def State.police (s : State) (k len : Nat) : Bool × State :=
  let t := s.tcAt k
  if !t.on then (true, s.bumpKey (k + 8) 31 0)
  else if (len : Int) * 256 ≤ t.b1 then
    (true, ({ s with tc := s.tc.put k { t with b1 := t.b1 - len * 256 } }).bumpKey (k + 8) 31 0)
  else (false, s.bumpKey (k + 8) 63 32)

/-- The colours of a meter (R374). -/
inductive Colour where
  | green | yellow | red
  deriving DecidableEq, Repr

/-- A unit of a length meets a meter (R374): its mark, with the bucket decreases; the counters are its caller's. -/
def State.mark (s : State) (k len : Nat) : Colour × State :=
  let t := s.tcAt k
  let l : Int := len * 256
  if !t.on then (.green, s)
  else if t.b2 < l then (.red, s)
  else if t.b1 < l then (.yellow, { s with tc := s.tc.put k { t with b2 := t.b2 - l } })
  else (.green, { s with tc := s.tc.put k { t with b1 := t.b1 - l, b2 := t.b2 - l } })

/-- A mark counted (R374): GREEN, YELLOW or RED of the meter. -/
def State.countMark (s : State) (k : Nat) (c : Colour) : State :=
  match c with
  | .green => s.bumpKey (k + 0x10) 31 0
  | .yellow => s.bumpKey (k + 0x10) 63 32
  | .red => s.bumpKey (k + 0x18) 31 0

/-- A yellow unit dropped or held for lack of idle capacity (R376). -/
def State.countIdle (s : State) (k : Nat) : State := s.bumpKey (k + 0x18) 63 32

/-- A unit marked for the first time at a meter. -/
def State.meet (s : State) (k len : Nat) : Colour × State :=
  let r := s.mark k len
  (r.1, r.2.countMark k r.1)

/-- The held units metered again at tick n (R376): one that is not red any more keeps its mark and the tick's LC; a red
one is not counted again. -/
def State.remeter (s : State) (n : Nat) : List HeldUnit → State
  | [] => s
  | h :: t =>
    let s := match h.mark with
      | some _ => { s with held := s.held ++ [h] }
      | none =>
        let r := s.mark h.meter h.cost
        match r.1 with
        | .red => { r.2 with held := r.2.held ++ [h] }
        | c =>
          let s := r.2.countMark h.meter c
          { s with held := s.held ++ [{ h with mark := some (c == .yellow, 250 * n) }] }
    State.remeter s n t

/-- Ticks from + 1 to from + n pass while units are held: each is metered again at each tick until none is red. -/
def State.tcHeld (s : State) (from_ : Nat) : Nat → State
  | 0 => s
  | n + 1 =>
    if s.held.all (fun h => h.mark.isSome) then s.tcGrow (n + 1)
    else
      let s := s.tcGrow 1
      State.tcHeld (({ s with held := [] }).remeter (from_ + 1) s.held) (from_ + 1) n

/-- The ticks from one LC tick to another pass (R369). -/
def State.tcTo (s : State) (lc : Nat) : State := s.tcHeld (s.lc / 250) (lc / 250 - s.lc / 250)

/-- Whether a shaper's head unit of a cost is eligible (R380). -/
def State.shapeOk (s : State) (k cost : Nat) : Bool :=
  let t := s.tcAt k
  !t.on || decide (min (cost * 256 : Int) (t.cap1 : Int) ≤ t.b1)

/-- A unit of a cost sent through a shaper: its credit falls and may go negative (R380). -/
def State.shapeSend (s : State) (k cost : Nat) : State :=
  let t := s.tcAt k
  if !t.on then s else { s with tc := s.tc.put k { t with b1 := t.b1 - cost * 256 } }

/-- The tick at which a shaper's credit first reaches what its head of a cost needs (R381). -/
def State.shapeTick (s : State) (k cost : Nat) : Nat :=
  let t := s.tcAt k
  let need : Int := min (cost * 256 : Int) (t.cap1 : Int)
  if !t.on || need ≤ t.b1 then s.lc / 250
  else s.lc / 250 + ((need - t.b1 + t.rate1 - 1) / t.rate1).toNat

/-- An MSI-X message that waited for its microsecond to end (R496), sent when it is due. -/
def State.flushMsix (s : State) (t : Nat) : State :=
  s.rings.foldl (fun s e =>
    match e.2.msixDue with
    | none => s
    | some due =>
      if due ≤ t then
        let fn := s.fld R.prmRingCfg 31 [e.1] 13 8
        let s := { s with rings := s.rings.put e.1 { e.2 with msixDue := none, msixLc := some due } }
        s.sendMsix fn (s.fld R.prmRingVec 31 [e.1] 10 0)
      else s) s

end Sys2Proof.Machine
end

