-- ==== Sys2Proof/Machine/TimeOps.lean ====
section
/-! DEFINITION. The time-base unit (R430 to R442): the local count, the four bases, sync words, the active radio time base
and the conversions between its instants and LC. -/
namespace Sys2Proof.Machine

/-- The domain that holds a die's time-base replica (R434): the one that holds the die's registers of chapter 12. -/
def replicaDomain (die : Nat) : Nat :=
  if die < 16 then 2 * die + 1 else if die < 20 then 32 + 2 * (die - 16) else if die < 22 then 40 + 2 * (die - 20)
  else if die < 26 then 44 + (die - 22) else if die < 30 then 48 + (die - 26) else if die = 30 then 52 else 55

/-- A time base. -/
def State.base (s : State) (n : Nat) : TimeBase := s.tb.getD n {}

/-- The state with a time base replaced. -/
def State.setBase (s : State) (n : Nat) (b : TimeBase) : State := { s with tb := s.tb.put n b }

/-- The servo state of a base (R436). -/
def State.servo (s : State) (n : Nat) : Nat := s.fld R.prmTbCfg 31 [n] 1 0

/-- The holdover rate of a base, in 2^−40 ns per ns (R437). -/
def State.horate (s : State) (n : Nat) : Int := sext 48 (s.fld R.prmTbHorate 31 [n] 47 0)

/-- What a base advances in one LC tick, in units of 2^−40 ns (R431). -/
def State.tickOf (s : State) (n : Nat) : Int :=
  if s.servo n = 2 then 2 ^ 40 + s.horate n else 2 ^ 40 + (s.base n).rate * 2 ^ 8

/-- n LC ticks pass, with no sync word among them. -/
def State.flow (s : State) (n : Nat) : State :=
  let s := (List.range 4).foldl (fun s i =>
    s.setBase i { s.base i with val := (s.base i).val + s.tickOf i * n }) s
  { s with lc := s.lc + n }

/-- The active radio base (R439). -/
def State.activeBase (s : State) : Nat := s.fld R.prmTbCtrl 31 [] 0 0

/-- A base's value as it is carried, in units of 2^−32 ns (R431). -/
def State.carried (s : State) (n : Nat) : Int := (s.base n).val / 2 ^ 8

/-- OFS at the present tick, moving linearly between sync words (R441). -/
def State.ofsNow (s : State) : Int := s.ofs + s.ofsStep * (s.lc - s.syncLc : Nat) / 1000

/-- ART in units of 2^−32 ns (R439). -/
def State.art32 (s : State) : Int := s.carried s.activeBase + s.ofsNow

/-- ART in whole nanoseconds. -/
def State.artNs (s : State) : Int := s.art32 / 2 ^ 32

/-- A base in whole nanoseconds. -/
def State.tbNs (s : State) (n : Nat) : Int := (s.base n).val / 2 ^ 40

/-- The change of OFS over one sync interval (R441): toward 0 by the slew step. -/
def slewStep (ofs : Int) (ppb : Nat) : Int :=
  let u : Int := ((2 * ppb * 2 ^ 32 + 10 ^ 6) / (2 * 10 ^ 6) : Nat)
  if 0 ≤ ofs then -(min ofs u) else min (-ofs) u

/-- The steps that reach a sync word, saturated to 48 signed bits, with the absorption of the active base (R435,
R440). -/
def State.applySteps (s : State) : State :=
  (List.range 4).foldl (fun s i =>
    let b := s.base i
    let st := max (-(2 ^ 47)) (min b.pendStep (2 ^ 47 - 1))
    let s := s.setBase i { b with val := b.val + st * 2 ^ 40, pendStep := 0 }
    if i = s.activeBase ∧ i < 2 then { s with ofs := s.ofs - st * 2 ^ 32 } else s) s

/-- The rate words that reach a sync word come into force (R435, R437). -/
def State.applyRates (s : State) : State :=
  (List.range 4).foldl (fun s i =>
    let b := s.base i
    match b.pendRate with
    | none => s
    | some r => if s.servo i = 2 then s else s.setBase i { b with rate := r, pendRate := none }) s

/-- A pending SWITCH (R440): the other radio base becomes active and ART is continuous. -/
def State.applySwitch (s : State) : State :=
  if s.fld R.prmTbStat 31 [] 1 1 = 0 then s
  else
    let a := s.activeBase
    let b := 1 - a
    let s := { s with ofs := s.ofs + s.carried a - s.carried b }
    let s := s.setFld R.prmTbCtrl 31 [] 0 0 b
    let s := s.setFld R.prmTbStat 31 [] 1 1 0
    s.setFld R.prmTbStat 31 [] 63 32 (s.fld R.prmTbStat 31 [] 63 32 + 1)

/-- A pending ALIGN (R442). -/
def State.applyAlign (s : State) : State := if s.alignPend then { s with ofs := 0, alignPend := false } else s

/-- A sync word at the present tick (R433, R435, R439, R441): the interval's move of OFS ends, then steps, rates, SWITCH
and ALIGN apply in that order, and DIFF and the next move are fixed. -/
def State.syncWord (s : State) : State :=
  let s := { s with ofs := s.ofs + s.ofsStep, ofsStep := 0, syncLc := s.lc }
  let s := (((s.applySteps).applyRates).applySwitch).applyAlign
  let s := s.setReg R.prmTbDiff 31 [] (BitVec.ofInt 64 ((s.carried 1 - s.carried 0) / 2 ^ 16))
  { s with ofsStep := slewStep s.ofs (s.fld R.prmTbCtrl 31 [] 17 4) }

/-- Whether no sync word before the next request changes more than DIFF. -/
def State.quiet (s : State) : Bool :=
  decide (s.ofs = 0) && !s.alignPend && s.fld R.prmTbStat 31 [] 1 1 == 0 &&
  (List.range 4).all (fun i => decide ((s.base i).pendStep = 0) && (s.base i).pendRate.isNone)

/-- The next k sync words pass. -/
def State.passWords (s : State) : Nat → State
  | 0 => s
  | k + 1 => State.passWords ((s.flow ((s.lc / 1000 + 1) * 1000 - s.lc)).syncWord) k

/-- LC advances to a tick, with every sync word (R433) and every 250-tick instant of the traffic engines (R369) on the
way; a tick already past changes nothing. -/
def State.advanceTo (s : State) (t : Nat) : State :=
  let s := (s.tcTo t).flushMsix t
  if t ≤ s.lc then s
  else if t / 1000 = s.lc / 1000 then s.flow (t - s.lc)
  else
    let s := if s.quiet then (s.flow (t / 1000 * 1000 - s.lc)).syncWord else s.passWords (t / 1000 - s.lc / 1000)
    s.flow (t - s.lc)

/-- One LC tick passes. -/
def State.tick (s : State) : State := s.advanceTo (s.lc + 1)

/-- What ART advances in one tick, in units of 2^−40 ns, at the present rate and slew. -/
def State.artTick (s : State) : Int := s.tickOf s.activeBase + s.ofsStep * 2 ^ 8 / 1000

/-- The LC tick at which a base that stands at `now` and advances `inc` a tick reaches an instant, both in units of
2^−40 ns. -/
def tickAt (lc : Nat) (now inc goal : Int) : Nat :=
  if goal ≤ now then lc else lc + ((goal - now + inc - 1) / inc).toNat

/-- The first LC tick at or after an instant of ART in nanoseconds, at the present rate (R276). -/
def State.lcOfArt (s : State) (ns : Int) : Nat := tickAt s.lc (s.art32 * 2 ^ 8) s.artTick (ns * 2 ^ 40)

/-- The ART instant of an LC tick, in nanoseconds, at the present rate. -/
def State.artOfLc (s : State) (t : Nat) : Int :=
  (s.art32 * 2 ^ 8 + s.artTick * ((t : Int) - s.lc)) / 2 ^ 40

end Sys2Proof.Machine
end

