-- ==== Sys2Proof/Machine/MemOps.lean ====
section
/-! DEFINITION. Whether a memory answers: domains (R29), locks (R213), bank-group power (R223), training (R591, R240) and
fences (R520); the ownership rules of other masters (R218, R226, R227); and the answers of a memory access. -/
namespace Sys2Proof.Machine

/-- Whether a reset has taken its domain past FENCING, so that every path into it refuses (R520). -/
def ResetRec.fences (r : ResetRec) : Bool := r.st != .fencing

/-- Whether the reset domain of a level and target is fenced, by its own reset or by a chip reset that covers it
(R520). -/
def State.fenced (s : State) (level target : Nat) : Bool :=
  s.resets.any (fun r => r.fences && (decide (3 ≤ r.level) || (r.level == level && r.target == target)))

/-- Whether the whole chip is fenced (L3 or L4). -/
def State.chipFenced (s : State) : Bool := s.resets.any (fun r => r.fences && decide (3 ≤ r.level))

/-- Whether a memory word answers, whoever asks: the die and its domain, the lock, the bank group's power, training and
the channels in use (R3, R29, R213, R223, R240, R591). -/
def State.memUp (s : State) (off : Nat) : Bool :=
  match regionOf off with
  | .hbm d _ => s.dieOn d && s.pdOn (2 * d + 1) && s.fld R.dhlHbmStatus d [] 0 0 == 1
  | .lpddr o => s.pdOn 52 && s.pdOn 53 && s.fld R.tlpStatus 30 [] 8 8 == 1 &&
      (s.fld R.tlpCfg 30 [] 7 0 == 255 || decide (o < 0x4000000000))
  | .sp d o => s.dieOn d && s.pdOn (2 * d + 1) && s.fld R.dhlSpCfg d [] 8 8 == 1 &&
      s.bankSt d (groupOf (s.groupWide d) o) == 0
  | .xch d _ => s.dieOn d && s.pdOn (2 * d + 1)
  | .sealed d _ => s.dieOn d && s.pdOn (2 * d + 1)
  | .iris i _ => s.pdOn (33 + 2 * i)
  | .regs .. => false
  | .gap => false

/-- Whether a partition's masters reach a memory word by its owner (R218); partition 0 reaches every group and slot. -/
def State.partReach (s : State) (part : Nat) (off : Nat) : Bool :=
  match regionOf off with
  | .sp d o => part == 0 || s.groupOwner d (groupOf (s.groupWide d) o) == part
  | .xch d o => part == 0 || s.slotOwner d (o / 0x10000) == part
  | .sealed .. => false
  | .iris .. => part == 0
  | .hbm .. => true
  | .lpddr _ => true
  | _ => false

/-- The status of a memory access of n bytes by a master of a partition, from the words that it touches (R18, R29,
R218, R243): NO_UNIT, FENCED, UNCORRECTABLE or OK. -/
def State.memStatus (s : State) (part off n : Nat) : Nat :=
  let ws := words64 off n
  if !(ws.all (fun a => s.memUp a && s.partReach part a)) then stNoUnit
  else if s.chipFenced then stFenced
  else if (s.badIn off n).isSome then stUncorr
  else stOK

/-- The status of a write: a word in error that the write covers whole is no obstacle (R243). -/
def State.memWriteStatus (s : State) (part off n : Nat) : Nat :=
  let ws := words64 off n
  let w := eccWidth (regionOf off)
  if !(ws.all (fun a => s.memUp a && s.partReach part a)) then stNoUnit
  else if s.chipFenced then stFenced
  else if (eccWords off n).any (fun a => s.badWords.contains a && !(decide (off ≤ a) && decide (a + w ≤ off + n)))
  then stUncorr
  else stOK

/-- The clusters that run an exact-mode step on die d. -/
def State.exactOn (s : State) (d : Nat) : List Nat :=
  (List.range 8).filterMap (fun l =>
    let q := s.seq (.cluster (8 * d + l))
    if (q.active || q.done) && q.exact then some (8 * d + l) else none)

/-- Whether an unscheduled access is held off by an exact-mode step whose BANK_SLICE holds a group that it touches
(R233), a step of the issuer apart. -/
def State.exactHeld (s : State) (own : Nat) (off n : Nat) : Bool :=
  (words64 off n).any (fun a => match regionOf a with
    | .sp d o => (s.exactOn d).any (fun c =>
        let q := s.seq (.cluster c)
        q.step != own && q.slice.getLsbD (groupOf (s.groupWide d) o))
    | _ => false)

/-- A write by an unscheduled master counted on every running throughput-mode step whose BANK_SLICE it enters, once per
access (R460). What step `own` issues is scheduled where that step runs (R216). -/
def State.intrudeBut (s : State) (own : Option Nat) (off n : Nat) : State :=
  (List.range 128).foldl (fun s c =>
    let q := s.seq (.cluster c)
    if q.active && !q.exact && own != some q.step && (words64 off n).any (fun a => match regionOf a with
        | .sp d o => d == c / 8 && q.slice.getLsbD (groupOf (s.groupWide d) o)
        | _ => false)
    then s.setSeq (.cluster c) { q with ndIntrude := satAdd q.ndIntrude 1 65535 } else s) s

/-- A write by a master other than a step, counted so. -/
def State.intrude (s : State) (off n : Nat) : State := s.intrudeBut none off n

end Sys2Proof.Machine
end

