-- ==== Sys2Proof/Machine/DbgOps.lean ====
section
/-! DEFINITION. What every chapter calls of debug, trace and counters: trace records (R562 to R564), the event counters
(R565), halts (R551 to R553) and the global stop (R558). -/
namespace Sys2Proof.Machine

/-! Trace. -/

/-- A die's trace unit. -/
def State.trcOf (s : State) (die : Nat) : Trc := s.trc.getD die {}

/-- The 32 B of a trace record (R563). -/
def traceRecord (type flags unit part stamp : Nat) (payload : List Byte) : List Byte :=
  leBytes 1 type ++ leBytes 1 flags ++ leBytes 2 unit ++ leBytes 1 part ++ leBytes 3 0 ++ leBytes 8 stamp ++
  (payload ++ List.replicate 16 0).take 16

/-- A record written at WPTR, which then advances and wraps (R562, R564, R572). -/
def State.trcWrite (s : State) (die : Nat) (b : List Byte) : State :=
  let w := s.fld R.trcStat die [] 18 0
  let s := s.store (s.fld R.trcBase die [] 47 0 + 32 * w) b
  let s := s.setFld R.trcStat die [] 18 0 ((w + 1) % 524288)
  if w + 1 ≥ 524288 then s.setFld R.trcStat die [] 19 19 1 else s

/-- Every held record written out, oldest first (R564). -/
def State.trcFlush (s : State) (die : Nat) : State :=
  let t := s.trcOf die
  let s := { s with trc := s.trc.put die { t with held := [] } }
  t.held.foldl (fun s b => s.trcWrite die b) s

/-- Whether a trace unit can take one more record (R564): room among its 64, or a buffer to write them to; in STOP mode
the last slot stays free. -/
def State.trcRoom (s : State) (die : Nat) : Bool :=
  let t := s.trcOf die
  (decide (t.held.length < 64) || s.memUp (s.fld R.trcBase die [] 47 0)) &&
  (s.fld R.trcCfg die [] 1 1 == 0 ||
    (s.fld R.trcStat die [] 19 19 == 0 && decide (s.fld R.trcStat die [] 18 0 + t.held.length + 1 < 524288)))

/-- A record taken: the held ones are written once there are 64. -/
def State.trcTake (s : State) (die : Nat) (b : List Byte) : State :=
  let t := s.trcOf die
  let s := if t.held.length ≥ 64 then s.trcFlush die else s
  let t := s.trcOf die
  { s with trc := s.trc.put die { t with held := t.held ++ [b] } }

/-- The loss record that covers every drop since the last record (R564). -/
def State.trcLoss (s : State) (die : Nat) : State :=
  let t := s.trcOf die
  if t.lost = 0 then s
  else
    let b := traceRecord 0xFF (s.stampFlags die) 0xFFFF 0 s.lc (leBytes 4 t.lost ++ leBytes 4 0 ++ leBytes 8 t.lostAt)
    ({ s with trc := s.trc.put die { t with lost := 0 } }).trcTake die b

/-- An event of a die's trace unit (R563, R564): recorded while EN and its source's bit are set; dropped and counted
where there is no room. -/
def State.trace (s : State) (die : Nat) (src : Option Nat) (type unit part : Nat) (payload : List Byte) : State :=
  let on := s.fld R.trcCfg die [] 0 0 == 1 && (match src with
    | none => true
    | some b => bitOf (s.fld R.trcCfg die [] 15 8) b)
  if !on then s
  else if !(s.trcRoom die) then
    let t := s.trcOf die
    let s := { s with trc := s.trc.put die { t with
      lost := t.lost + 1, lostAt := if t.lost = 0 then s.lc else t.lostAt } }
    s.bumpFld R.trcStat die [] 63 32 1
  else (s.trcLoss die).trcTake die (traceRecord type (s.stampFlags die) unit part s.lc payload)

/-- A link or lane state change in the trace of its die (R563). -/
def State.traceLink (s : State) (die lane new_ : Nat) : State :=
  s.trace die (some 5) 0x08 0xFFFF 0 (leBytes 1 lane ++ leBytes 1 new_)

/-- A LINK event (R498) with its trace record. -/
def State.linkEvent (s : State) (die lane new_ : Nat) : State :=
  (s.emit 0 evLink die (leBytes 1 die ++ leBytes 1 lane ++ leBytes 1 new_)).traceLink die lane new_

/-! Halts. -/

/-- A unit halted at its present cycle (R551, R571); one already halted keeps its cause. -/
def State.haltUnit (s : State) (u : SeqUnit) (cause index : Nat) : State :=
  if (s.seq u).dbgHalted then s
  else
    let s := s.pmuSync (unitDie u)
    s.setSeq u { s.seq u with dbgHalted := true, dbgCause := cause, dbgIndex := index, dbgStep := none, dbgWatch := none,
                              dbgHaltLc := s.lc }

/-- The unit's cycles in a span of LC ticks: by the RATE at placement, or at the nominal 1.41 GHz. -/
def Seq.cyclesIn (q : Seq) (u : SeqUnit) (lc : Nat) : Nat := if u.isIris then lc * 1410 / 1000 else lc * q.lcRate / 4096

/-- A halted unit runs on (R551): the halt is counted in HALTCYC, and the cycles that follow lie later by its length. -/
def State.resumeUnit (s : State) (u : SeqUnit) : State :=
  if !(s.seq u).dbgHalted then s
  else
    let s := s.pmuSync (unitDie u)
    let q := s.seq u
    let d := s.lc - q.dbgHaltLc
    s.setSeq u { q with dbgHalted := false, dbgCause := 0, dbgIndex := 0, dbgHaltCyc := q.dbgHaltCyc + q.cyclesIn u d,
                        lcStart := q.lcStart + d }

/-- A global stop (R558): the cause recorded, every unit frozen, a record on each die. The device drives DBG_STOP_N low. -/
def State.globalStop (s : State) (cause : Nat) : State :=
  if s.gstopped then s
  else
    let s := (List.range 32).foldl (fun s d => if s.dieOn d then s.pmuSync d else s) s
    let s := (s.setFld R.prmDbgStat 31 [] 1 1 1).setFld R.prmDbgStat 31 [] 4 2 cause
    let s := { s with gstopLc := s.lc, gresume := none }
    let s := allUnits.foldl (fun s u => if (s.seq u).active then s.haltUnit u 5 0 else s) s
    (List.range 32).foldl (fun s d => if s.dieOn d then s.trace d none 0xFE 0xFFFF 0 (leBytes 1 cause) else s) s

/-! Accesses seen: memory counters and watchpoints. -/

/-- The 64-B units of a memory access counted by its die's counters (R565). -/
def State.countAccess (s : State) (m : Master) (off n : Nat) (wr : Bool) : State :=
  match regionOf off with
  | .hbm d _ => s.pmuAt d (if wr then 0x09 else 0x08) (match m with
      | .unit (.cluster c) => if c / 8 = d then some (c % 8) else none
      | _ => none) (cdiv n 64)
  | .lpddr _ => s.pmuAt 30 (if wr then 0x82 else 0x81) none (cdiv n 64)
  | _ => s

/-- The die whose watchpoints cover a node offset (R556): the interleaved scratchpad, the exchange region, or the Iris
SRAM. -/
def watchDie (off : Nat) : Option Nat :=
  match regionOf off with
  | .sp d _ => some d
  | .xch d _ => some d
  | .iris i _ => some (16 + i)
  | _ => none

/-- Whether watchpoint w of a die matches an access (R556): LEN 0 stands for 262,144 words. -/
def State.watchHits (s : State) (die w off n : Nat) (wr : Bool) : Bool :=
  let b := s.fld R.wpW0 die [w] 47 0
  let l := s.fld R.wpW1 die [w] 17 0
  let len := 64 * (if l = 0 then 262144 else l)
  s.fld R.wpW1 die [w] 20 20 == 1 && s.fld R.wpW1 die [w] (if wr then 19 else 18) (if wr then 19 else 18) == 1 &&
  decide (off < b + len) && decide (b < off + n) && decide (0 < n)

/-- The action of a watchpoint on a match (R556): a unit of the die that issued the access (`own`) halts after one further cycle
of issue; the access of any other master is traced instead. -/
def State.watchAct (s : State) (m : Master) (own : Bool) (die w off : Nat) (wr : Bool) : State :=
  let s := s.bumpFld R.wpW1 die [w] 63 32 1
  let rec_ (s : State) : State := s.trace die (some 2) 0x05 (match m with
      | .unit u => if own && unitDie u == die then localUnit u else 0xFFFF
      | _ => 0xFFFF) (s.masterPart m)
    (leBytes 1 w ++ leBytes 1 (b2n wr) ++ leBytes 2 (s.masterCode m) ++ leBytes 4 0 ++ leBytes 8 off)
  match s.fld R.wpW1 die [w] 22 21, m with
  | 0, .unit u =>
    if own && unitDie u == die then
      let q := s.seq u
      if q.dbgHalted || q.dbgWatch.isSome || !q.active || q.stopped then s else s.setSeq u { q with dbgWatch := some w }
    else rec_ s
  | 1, _ => s.globalStop 2
  | _, _ => rec_ s

/-- An access to [off, off + n) by a master, as counters and watchpoints see it (R556, R565). -/
def State.accessBy (s : State) (m : Master) (own : Bool) (off n : Nat) (wr : Bool) : State :=
  let s := s.countAccess m off n wr
  match watchDie off with
  | none => s
  | some d => (List.range 4).foldl (fun s w => if s.watchHits d w off n wr then s.watchAct m own d w off wr else s) s

/-- An access by a master for itself. -/
def State.access (s : State) (m : Master) (off n : Nat) (wr : Bool) : State := s.accessBy m true off n wr

/-- A list of accesses of one direction. -/
def State.accessAll (s : State) (m : Master) (l : List (Nat × Nat)) (wr : Bool) : State :=
  l.foldl (fun s e => s.access m e.1 e.2 wr) s

/-- A watch halt that falls due on a unit whose running context would not issue in the next cycle (R556): it halts at once. -/
def State.watchHalt (s : State) (u : SeqUnit) (t : Nat) : State :=
  let q := s.seq u
  match q.dbgWatch with
  | none => s
  | some w =>
    if !q.active || q.stopped then s.setSeq u { q with dbgWatch := none }
    else if q.run.isSome && decide (q.next ≤ t + 1) then s
    else s.haltUnit u 3 w

end Sys2Proof.Machine
end

