-- ==== Sys2Proof/Machine/Float.lean ====
section
/-! DEFINITION. The number formats and the exact arithmetic of the lane rows: decoding of elements (R46 to R48),
exact sums rounded once to FP32 (R68 to R74), and narrowing (R76 to R78). -/
namespace Sys2Proof.Machine

/-- A decoded number: NaN, an infinity, or (−1)^neg · m · 2^e with m = 0 for a signed zero (R47). -/
inductive FNum where
  | nan
  | inf (neg : Bool)
  | fin (neg : Bool) (m : Nat) (e : Int)
  deriving DecidableEq, Repr

/-- The canonical NaN (R71). -/
def canonNaN : BitVec 32 := 0x7FC00000

/-- A number of a binary format with `eb` exponent and `mb` mantissa bits, IEEE infinities and NaNs (R47). -/
def ieeeNum (eb mb : Nat) (bias : Int) (x : Nat) : FNum :=
  let f := x % 2 ^ mb
  let ex := (x / 2 ^ mb) % 2 ^ eb
  let neg := bitOf x (eb + mb)
  if ex = 2 ^ eb - 1 then (if f = 0 then .inf neg else .nan)
  else if ex = 0 then .fin neg f (1 - bias - (mb : Int))
  else .fin neg (2 ^ mb + f) ((ex : Int) - bias - (mb : Int))

/-- A number of a binary format without infinities (E4M3 and E2M1, R47). -/
def plainNum (eb mb : Nat) (bias : Int) (x : Nat) : FNum :=
  let f := x % 2 ^ mb
  let ex := (x / 2 ^ mb) % 2 ^ eb
  let neg := bitOf x (eb + mb)
  if ex = 0 then .fin neg f (1 - bias - (mb : Int))
  else .fin neg (2 ^ mb + f) ((ex : Int) - bias - (mb : Int))

/-- The value of FP32 bits (R47). -/
def fp32Num (x : BitVec 32) : FNum := ieeeNum 8 23 127 x.toNat

/-- The value of a signed integer as an exact number. -/
def intNum (i : Int) : FNum := .fin (decide (i < 0)) i.natAbs 0

/-- The width in bits of an element of a format code (R46); 0 for a reserved code. -/
def fmtBits : Nat → Nat
  | 0x0 => 32 | 0x1 => 16 | 0x2 => 8 | 0x3 => 8 | 0x4 => 4 | 0x5 => 8 | 0x6 => 4 | 0x7 => 32
  | 0x8 => 8 | 0x9 => 8 | 0xA => 4 | 0xB => 8
  | _ => 0

/-- Whether a format code takes block scales (R46). -/
def fmtIsMX (f : Nat) : Bool := decide (8 ≤ f ∧ f ≤ 11)

/-- The value of an element of a floating format code or MXINT8 (R46, R47). -/
def elemNum (fmt x : Nat) : FNum :=
  match fmt with
  | 0x0 => ieeeNum 8 23 127 x
  | 0x1 => ieeeNum 8 7 127 x
  | 0x2 | 0x8 => if x % 128 = 127 then .nan else plainNum 4 3 7 x
  | 0x3 | 0x9 => ieeeNum 5 2 15 x
  | 0x4 | 0xA => plainNum 2 1 1 x
  | 0xB => let i := sext 8 x; .fin (decide (i < 0)) i.natAbs (-6)
  | 0x5 => intNum (sext 8 x)
  | 0x6 => intNum (sext 4 x)
  | _ => intNum (sext 16 x)

/-- Whether an element encodes zero, for zero-skip (R69, R186). -/
def elemZero (fmt x : Nat) : Bool :=
  match fmt with
  | 0x0 => x % 2 ^ 31 == 0
  | 0x1 => x % 2 ^ 15 == 0
  | 0x2 | 0x3 | 0x8 | 0x9 => x % 128 == 0
  | 0x4 | 0xA => x % 8 == 0
  | _ => x == 0

/-- Whether a number is NaN. -/
def FNum.isNaN : FNum → Bool
  | .nan => true
  | _ => false

/-- Whether a number is zero of either sign. -/
def FNum.isZero : FNum → Bool
  | .fin _ 0 _ => true
  | _ => false

/-- The sign of a number; false for NaN. -/
def FNum.neg : FNum → Bool
  | .nan => false
  | .inf s => s
  | .fin s _ _ => s

/-- The exact product (R70): zero times infinity is NaN. -/
def FNum.mul : FNum → FNum → FNum
  | .nan, _ => .nan
  | _, .nan => .nan
  | .inf a, .inf b => .inf (a ^^ b)
  | .inf a, .fin b m _ => if m = 0 then .nan else .inf (a ^^ b)
  | .fin a m _, .inf b => if m = 0 then .nan else .inf (a ^^ b)
  | .fin a m e, .fin b n f => .fin (a ^^ b) (m * n) (e + f)

/-- A number times 2^k. -/
def FNum.scale (k : Int) : FNum → FNum
  | .fin s m e => .fin s m (e + k)
  | x => x

/-- The sign and magnitude of a finite number at exponent `q ≤ e`. -/
def FNum.at (q : Int) : FNum → Int
  | .fin s m e =>
    let v : Int := (m : Int) * 2 ^ (e - q).toNat
    if s then -v else v
  | _ => 0

/-- The least exponent of a list of finite numbers. -/
def minExp : List FNum → Int → Int
  | [], q => q
  | .fin _ _ e :: t, q => minExp t (if e < q then e else q)
  | _ :: t, q => minExp t q

/-- The exact sum of numbers (R68, R71): NaN if any is NaN or if infinities of both signs meet; −0 only if every addend
is −0. -/
def FNum.sum (l : List FNum) : FNum :=
  if l.any FNum.isNaN then .nan
  else
    let p := l.any (fun x => x == .inf false)
    let n := l.any (fun x => x == .inf true)
    if p && n then .nan
    else if p then .inf false
    else if n then .inf true
    else
      let q := minExp l 0
      let v := (l.map (FNum.at q)).foldl (· + ·) 0
      if v = 0 then .fin (!l.isEmpty && l.all FNum.neg) 0 q
      else .fin (decide (v < 0)) v.natAbs q

/-- m · 2^e rounded to nearest, ties to even, with lsb 2^q for q ≥ e: the integer multiple of 2^q. -/
def roundShift (m s : Nat) : Nat :=
  let f := m / 2 ^ s
  let r := m % 2 ^ s
  if s = 0 then m
  else if 2 * r > 2 ^ s || (2 * r == 2 ^ s && f % 2 == 1) then f + 1 else f

/-- Stochastic rounding of m / 2^s: the discarded bits cut to their 16 most significant, plus a 16-bit draw, truncated
(R77). -/
def stochShift (draw m s : Nat) : Nat :=
  let r := m % 2 ^ s
  let top := if s ≥ 16 then r / 2 ^ (s - 16) else r * 2 ^ (16 - s)
  if s = 0 then m else m / 2 ^ s + (if top + draw % 65536 ≥ 65536 then 1 else 0)

/-- How a narrowing rounds: to nearest even, or stochastically with a drawn value (R76, R77). -/
inductive RoundMode where
  | nearest
  | stoch (draw : Nat)
  deriving DecidableEq, Repr

/-- The rounding of m / 2^s. -/
def RoundMode.shift : RoundMode → Nat → Nat → Nat
  | .nearest, m, s => roundShift m s
  | .stoch d, m, s => stochShift d m s

/-- The encoding, without sign, of a finite magnitude m · 2^e in a format with `mb` mantissa bits and least exponent
`emin` (of the subnormal lsb), before the range check: one rounding, subnormals kept (R68, R76). -/
def magBits (r : RoundMode) (mb : Nat) (emin : Int) (m : Nat) (e : Int) : Nat :=
  if m = 0 then 0 else
    let top := e + (m.log2 : Int)
    let q := if top - (mb : Int) < emin then emin else top - (mb : Int)
    let v := if q ≤ e then m * 2 ^ (e - q).toNat else r.shift m (q - e).toNat
    (q - emin).toNat * 2 ^ mb + v

/-- A number rounded once to FP32, with the flags the rounding sets: OVF on overflow to infinity (R68, R71, R75). -/
def toFP32 (x : FNum) : BitVec 32 × AFlags :=
  match x with
  | .nan => (canonNaN, 0)
  | .inf s => (BitVec.ofNat 32 (b2n s * 2 ^ 31 + 0x7F800000), 0)
  | .fin s m e =>
    let b := magBits .nearest 23 (-149) m e
    if b ≥ 0x7F800000 then (BitVec.ofNat 32 (b2n s * 2 ^ 31 + 0x7F800000), fOVF)
    else (BitVec.ofNat 32 (b2n s * 2 ^ 31 + b), 0)

/-- The floor of log2 of a positive finite magnitude. -/
def floorLog2 (m : Nat) (e : Int) : Int := e + (m.log2 : Int)

/-- Comparison of two numbers that are not NaN: whether a < b, with +0 equal to −0 (R142). -/
def FNum.lt : FNum → FNum → Bool
  | .inf a, .inf b => a && !b
  | .inf a, .fin .. => a
  | .fin .., .inf b => !b
  | .fin s m e, .fin t n f =>
    let q := if e < f then e else f
    decide (FNum.at q (.fin s m e) < FNum.at q (.fin t n f))
  | _, _ => false

/-- Equality of two numbers that are not NaN, with +0 equal to −0 (R142). -/
def FNum.eqv (a b : FNum) : Bool := !a.isNaN && !b.isNaN && !(a.lt b) && !(b.lt a)

/-- a ≥ b; false with a NaN. -/
def FNum.ge (a b : FNum) : Bool := !a.isNaN && !b.isNaN && !(a.lt b)

/-- The magnitude of a number. -/
def FNum.abs : FNum → FNum
  | .inf _ => .inf false
  | .fin _ m e => .fin false m e
  | .nan => .nan

/-- An integer saturated to a signed width, and whether it was out of range (R73). -/
def satInt (w : Nat) (i : Int) : Int × Bool :=
  if i > 2 ^ (w - 1) - 1 then (2 ^ (w - 1) - 1, true)
  else if i < -(2 ^ (w - 1) : Int) then (-(2 ^ (w - 1) : Int), true)
  else (i, false)

/-- The policy bits of DHL_CTX_ARITH that narrowing reads (R78, R79). -/
structure NarrowPolicy where
  e4m3Ovf : Bool
  e5m2Ovf : Bool
  round : RoundMode
  deriving DecidableEq, Repr

/-- A finite or infinite number narrowed to an integer width (R76, R78): a NaN gives 0 with INV. -/
def narrowInt (w : Nat) (r : RoundMode) : FNum → Nat × AFlags
  | .nan => (0, fINV)
  | .inf s => (wrapInt w (if s then -(2 ^ (w - 1) : Int) else 2 ^ (w - 1) - 1), fINV ||| fNSAT)
  | .fin s m e =>
    let v := if 0 ≤ e then m * 2 ^ e.toNat else r.shift m (-e).toNat
    let i : Int := if s then -(v : Int) else v
    let (j, sat) := satInt w i
    (wrapInt w j, flagIf sat fNSAT)

/-- A number narrowed to a floating storage format (R76 to R78). `topv` is the encoding of the largest finite
magnitude; the range is checked on the rounded value. -/
def narrowFloat (eb mb : Nat) (emin : Int) (topv : Nat) (r : RoundMode) (onNaN : Nat × AFlags)
    (onBig : Bool → Nat × AFlags) (onInf : Bool → Nat × AFlags) : FNum → Nat × AFlags
  | .nan => onNaN
  | .inf s => onInf s
  | .fin s m e =>
    let b := magBits r mb emin m e
    if b > topv then onBig s else (b2n s * 2 ^ (eb + mb) + b, 0)

/-- A number narrowed to a DFMT code's element format: FP32, BF16, E4M3, E5M2, E2M1, INT8 or INT4, or an MX element
(R76, R78, R162). -/
def narrowTo (fmt : Nat) (p : NarrowPolicy) (x : FNum) : Nat × AFlags :=
  let sgn (w : Nat) (s : Bool) (v : Nat) : Nat := b2n s * 2 ^ (w - 1) + v
  match fmt with
  | 0x0 => let (b, f) := toFP32 x; (b.toNat, f)
  | 0x1 => narrowFloat 8 7 (-133) 0x7F7F p.round (0x7FC0, 0)
      (fun s => (sgn 16 s 0x7F80, fOVF)) (fun s => (sgn 16 s 0x7F80, 0)) x
  | 0x2 | 0x8 => narrowFloat 4 3 (-9) 0x7E p.round (0x7F, 0)
      (fun s => if p.e4m3Ovf then (0x7F, fOVF) else (sgn 8 s 0x7E, fNSAT))
      (fun s => if p.e4m3Ovf then (0x7F, fINV) else (sgn 8 s 0x7E, fINV ||| fNSAT)) x
  | 0x3 | 0x9 => narrowFloat 5 2 (-16) 0x7B p.round (0x7E, 0)
      (fun s => if p.e5m2Ovf then (sgn 8 s 0x7B, fNSAT) else (sgn 8 s 0x7C, fOVF))
      (fun s => if p.e5m2Ovf then (sgn 8 s 0x7B, fNSAT) else (sgn 8 s 0x7C, 0)) x
  | 0x4 | 0xA => narrowFloat 2 1 (-1) 0x7 p.round (0, fINV)
      (fun s => (sgn 4 s 7, fNSAT)) (fun s => (sgn 4 s 7, fINV ||| fNSAT)) x
  | 0x5 => narrowInt 8 p.round x
  | 0x6 => narrowInt 4 p.round x
  | 0xB => narrowInt 8 p.round (x.scale 6)
  | _ => let (b, f) := toFP32 x; (b.toNat, f)

/-- An INT32 value as FP32, round-to-nearest-even (R160). -/
def intToFP32 (i : Int) : BitVec 32 := (toFP32 (intNum i)).1

/-- ACT(x) with the flag it sets (R160, R161). A NaN gives the canonical NaN for every code; the plain functions and
the special values of the table activations are fixed here, every other table value is the device's own. -/
def activate (act : Nat) (x : BitVec 32) : BitVec 32 × AFlags :=
  let v := fp32Num x
  if act = 0 then (if v.isNaN then canonNaN else x, 0)
  else if v.isNaN then (canonNaN, 0)
  else
    let pInf : BitVec 32 := 0x7F800000
    let nInf : BitVec 32 := 0xFF800000
    let one : BitVec 32 := 0x3F800000
    let six : BitVec 32 := 0x40C00000
    let isP := v == .inf false
    let isN := v == .inf true
    let table := Config.actTable act x
    match act with
    | 0x1 => (if v.neg then 0 else x, 0)
    | 0x2 => (if v.neg then 0 else if (fp32Num six).lt v then six else x, 0)
    | 0x3 | 0x4 => (if isN then 0x80000000 else if isP then pInf else table, 0)
    | 0x5 => (if isN then 0 else if isP then pInf else table, 0)
    | 0x6 => (if v.isZero then (if v.neg then nInf else pInf)
              else if isP then 0 else if isN then 0x80000000 else table, 0)
    | 0x7 => (if isN then 0 else if isP then one else table, 0)
    | 0x8 => (if isP then one else if isN then 0xBF800000 else table, 0)
    | _ => if v.isZero then (if v.neg then nInf else pInf, 0)
           else if isP then (0, 0)
           else if v.neg then (canonNaN, fINV)
           else (table, 0)

/-- Whether an ACT code is a table activation (R161). -/
def actIsTable (act : Nat) : Bool := decide (3 ≤ act ∧ act ≤ 9)

end Sys2Proof.Machine
end

