-- ==== Sys2Proof/Machine/TwOps.lean ====
section
/-! DEFINITION. Tensor watch (R566 to R569): what a hit adds to the fields of its watch point. -/
namespace Sys2Proof.Machine

/-- A CRC-64 with the ECMA-182 polynomial after one more byte, most significant bit first (R568). -/
def crc64Byte (crc : Nat) (b : Byte) : Nat :=
  (List.range 8).foldl (fun c i =>
    let top := bitOf c 63 ^^ bitOf b.toNat (7 - i)
    let c := c * 2 % 2 ^ 64
    if top then c ^^^ 0x42F0E1EBA9EA3693 else c) crc

/-- The CRC-64 of a list of bytes, from 0 (R568). -/
def crc64 (bs : List Byte) : Nat := bs.foldl crc64Byte 0

/-- The order of FP32 values in MIN and MAX, with −0 below +0 (R567): a key that rises with the value. -/
def fp32Key (x : BitVec 32) : Nat :=
  if x.getLsbD 31 then 0xFFFFFFFF - x.toNat else x.toNat + 0x80000000

/-- The value of binary64 bits. -/
def fp64Num (x : Nat) : FNum := ieeeNum 11 52 1023 x

/-- The binary64 encoding of a finite number, rounded to nearest even (R567). -/
def toFP64 : FNum → Nat
  | .nan => 0x7FF8000000000000
  | .inf s => 0x7FF0000000000000 + b2n s * 2 ^ 63
  | .fin s m e =>
    let v := magBits .nearest 52 (-1022) m e
    min v 0x7FF0000000000000 + b2n s * 2 ^ 63

/-- SUM after a hit's finite values (R567). Where every partial sum is exact in binary64 whatever the order, it is the exact
sum; otherwise the order is not specified and it is a free value `w`. -/
def twSum (old : Nat) (vs : List (BitVec 32)) (w : Nat) : Nat :=
  let ns := fp64Num old :: vs.map fp32Num
  let q := minExp ns 0
  let total := (ns.map (fun x => (x.at q).natAbs)).sum
  if total < 2 ^ 53 then toFP64 (FNum.sum ns) else w % 2 ^ 64

/-- MIN and MAX after a value; nothing has taken part while no value has been finite. -/
def twMinMax (fresh : Bool) (lo hi x : BitVec 32) : BitVec 32 × BitVec 32 :=
  if fresh then (x, x)
  else (if fp32Key x < fp32Key lo then x else lo, if fp32Key hi < fp32Key x then x else hi)

/-- The 32 counts of the histogram with the values of one hit added (R567): bin (biased exponent >> 3). -/
def State.twBins (s : State) (part w : Nat) (vs : List (BitVec 32)) : State :=
  (List.range 32).foldl (fun s b =>
    let n := (vs.filter (fun x => getField x 30 23 / 8 == b)).length
    if n = 0 then s else s.bumpFld R.twHist part [w, b / 2] (32 * (b % 2) + 31) (32 * (b % 2)) n) s

/-- A hit of a watch point that is still armed (R566 to R569): `cmd` is the CMD_ID of its step, `at_` the LC tick at which its
last result is visible and `cl` its logical cluster, by which the later of two hits is told. -/
def State.twHit (s : State) (h : TwHit) (cmd at_ cl : Nat) : State :=
  let p := h.part
  let w := h.point
  if s.fld R.twCfg p [w] 0 0 = 0 then s
  else
    let nums := h.vals.map fp32Num
    let nans := (nums.filter FNum.isNaN).length
    let infs := (nums.filter (fun x => match x with
      | .inf _ => true
      | _ => false)).length
    let zeros := (nums.filter FNum.isZero).length
    let fin := h.vals.filter (fun x => getField x 30 23 != 255)
    let taken := s.fld R.twCount p [w] 63 0 - s.fld R.twSpecial p [w] 31 0 - s.fld R.twSpecial p [w] 63 32
    let mm := fin.foldl (fun (a : Bool × BitVec 32 × BitVec 32) x => (false, twMinMax a.1 a.2.1 a.2.2 x))
      (decide (taken = 0), BitVec.ofNat 32 (s.fld R.twMinmax p [w] 31 0), BitVec.ofNat 32 (s.fld R.twMinmax p [w] 63 32))
    let d := s.draw
    let s := d.2
    let key := R.twCfg.at p [w]
    let newest := match s.twLast.find key with
      | none => true
      | some x => decide (x.1 < at_) || (x.1 == at_ && decide (x.2 ≤ cl))
    let s := (s.bumpFld R.twCount p [w] 63 0 h.vals.length).bumpFld R.twHits p [w] 31 0 1
    let s := ((s.bumpFld R.twSpecial p [w] 31 0 nans).bumpFld R.twSpecial p [w] 63 32 infs).bumpFld R.twZero p [w] 31 0 zeros
    let s := s.setReg R.twMinmax p [w] (BitVec.ofNat 64 (mm.2.1.toNat + mm.2.2.toNat * 2 ^ 32))
    let s := s.setReg R.twSum p [w] (BitVec.ofNat 64 (twSum (s.reg R.twSum p [w]).toNat fin d.1))
    let s := s.twBins p w fin
    let s : State := if newest then
        let s := { s with twLast := s.twLast.put key (at_, cl) }
        let s := s.setFld R.twHits p [w] 63 32 cmd
        if s.fld R.twCfg p [w] 1 1 = 1 then s.setReg R.twDigest p [w] (BitVec.ofNat 64 (crc64 h.bytes)) else s
      else s
    if s.fld R.twCfg p [w] 2 2 = 1 then s.setFld R.twCfg p [w] 0 0 0 else s

end Sys2Proof.Machine
end

