-- ==== Sys2Proof/Machine/SeqOps.lean ====
section
/-! DEFINITION. The shared operations of the sequencers: results becoming visible (R95, R96), tokens (R110, R111),
selection of a context (R86, R87), exceptions (R131 to R135), freezes (R115) and the registers of a context (R93). -/
namespace Sys2Proof.Machine

/-! Registers of a context. -/

/-- Scalar register n. -/
def Ctx.rs (c : Ctx) (n : BitVec 5) : BitVec 64 := c.s.getD n.toNat 0
/-- Address register n. -/
def Ctx.ra (c : Ctx) (n : BitVec 4) : BitVec 64 := c.a.getD n.toNat 0
/-- Modifier register n. -/
def Ctx.rm (c : Ctx) (n : BitVec 4) : BitVec 64 := c.m.getD n.toNat 0
/-- Window register n. -/
def Ctx.rw (c : Ctx) (n : Nat) : BitVec 128 := c.w.getD n 0
/-- Loop register n. -/
def Ctx.rl (c : Ctx) (n : Nat) : BitVec 128 := c.l.getD n 0
/-- Tile register n. -/
def Ctx.rt (c : Ctx) (n : Nat) : BitVec 128 := c.t.getD n 0
/-- Predicate n; P0 always reads 1 (R93). -/
def Ctx.rp (c : Ctx) (n : Nat) : Bool := if n = 0 then true else c.p.getD n false

/-- The window descriptor as stored: BASE [5:0] and the reserved bits are 0 (R93). -/
def storeW (v : BitVec 128) : BitVec 128 := v &&& 0x000000000007FFFF0000FFFFFFFFFFC0
/-- The loop register as stored: the reserved bits are 0 (R93). -/
def storeL (v : BitVec 128) : BitVec 128 := v &&& 0x0000000000011FFF00001FFFFFFFFFFF

/-- A predicate field of a bundle or branch: bits [2:0] name a predicate, bit [3] inverts it (R88, R139). -/
def Ctx.pred (c : Ctx) (f : BitVec 4) : Bool := (c.rp (f.toNat % 8)) ^^ f.getLsbD 3

/-- BASE of a window descriptor (R93). -/
def winBaseOf (w : BitVec 128) : Nat := getField w 47 0
/-- LEN of a window descriptor, in units of 64 B (R93). -/
def winLenOf (w : BitVec 128) : Nat := getField w 82 64
/-- COUNT of a loop register (R93). -/
def loopCount (l : BitVec 128) : Nat := getField l 31 0
/-- START of a loop register (R93). -/
def loopStart (l : BitVec 128) : Nat := getField l 44 32
/-- END of a loop register (R93). -/
def loopEnd (l : BitVec 128) : Nat := getField l 76 64
/-- ACTIVE of a loop register (R93). -/
def loopActive (l : BitVec 128) : Bool := l.getLsbD 80

/-- The number of contexts of a unit: 8, or 4 on an Iris core (R121). -/
def numCtx (u : SeqUnit) : Nat := if u.isIris then 4 else 8

/-- An effect inserted after every effect due in the same cycle or earlier: results of one cycle land in the order in
which they were issued, so a later-issued result is kept (R96). -/
def insertPend (p : Pend) : List Pend → List Pend
  | [] => [p]
  | x :: t => if p.due < x.due then p :: x :: t else x :: insertPend p t

/-- An effect put on its way, after every effect already due in the same cycle (R96). -/
def Seq.push (q : Seq) (due ctx : Nat) (e : Effect) : Seq := { q with pend := insertPend ⟨due, ctx, e⟩ q.pend }

/-- An effect of unit u put on its way. -/
def State.push (s : State) (u : SeqUnit) (due ctx : Nat) (e : Effect) : State :=
  s.setSeq u ((s.seq u).push due ctx e)

/-- The step placed on a unit, if any. -/
def State.stepOf (s : State) (u : SeqUnit) : Option StepRec :=
  match u with
  | .cluster n => s.steps.find? (fun r => r.id == (s.seq u).step && r.clusters.contains n)
  | .iris _ => none

/-- The partition whose ring receives a unit's events: the step's, or partition 0 for an Iris core (R137, R138). -/
def State.unitPart (s : State) (u : SeqUnit) : Nat := if u.isIris then 0 else (s.seq u).part

/-- The CMD_ID of the step on a unit; 0 when there is none. -/
def State.unitCmd (s : State) (u : SeqUnit) : Nat := ((s.stepOf u).map StepRec.cmdId).getD 0

/-- The logical cluster number of an event record, or the master form for an Iris core (R498). -/
def State.unitLogical (s : State) (u : SeqUnit) : Nat :=
  match u with
  | .cluster n => s.logCluster n
  | .iris n => 0x8000 + n

/-! Tokens. -/

/-- The token target in the layout of R171. -/
def TokenTarget.word (t : TokenTarget) : Nat := t.token % 64 + t.kind % 4 * 64 + t.unit % 256 * 256

/-- A token target read from a word; none for the reserved kind or a non-zero reserved bit (R171). -/
def tokenTargetOf (v : Nat) : Option TokenTarget :=
  if bitsOf v 7 6 = 3 ∨ v / 65536 ≠ 0 then none
  else some { kind := bitsOf v 7 6, unit := bitsOf v 15 8, token := bitsOf v 5 0 }

/-- A token sent: it is on its way until it arrives (R110, R112). -/
def State.sendToken (s : State) (t : TokenTarget) (fromUnit part : Nat) (radio : Bool) : State :=
  { s with tokens := s.tokens ++ [{ target := t, fromUnit := fromUnit, part := part, radio := radio }] }

/-- A TOKEN event in the ring of a partition (R111, R498): cause 0 discarded, 1 saturated. -/
def State.tokenEvent (s : State) (part : Nat) (t : TokenTarget) (sender cause : Nat) : State :=
  s.emit part evToken 0xFF (leBytes 8 t.word ++ leBytes 2 sender ++ leBytes 1 cause)

/-- The lowest-numbered context that waits on a token (R110). -/
def Seq.waiterOn (q : Seq) (n : Nat) : Option Nat :=
  (List.range 8).find? (fun k => (q.ctx k).st == .waitToken && (q.ctx k).waitTok == n)

/-- A context made READY at a cycle, its wait counted (R84, R126). -/
def Seq.wake (q : Seq) (k t : Nat) : Seq :=
  let c := q.ctx k
  let n := t - c.waitFrom
  q.setCtx k { c with
    st := .ready, readyAt := t,
    waitRemote := if c.st = .waitRemote then c.waitRemote + n else c.waitRemote,
    waitToken := if c.st = .waitToken then c.waitToken + n else c.waitToken }

/-- A context granted a token: it takes 1 from the count as it leaves WAIT_TOKEN (R85). -/
def Seq.grant (q : Seq) (n t : Nat) : Seq :=
  match q.waiterOn n with
  | none => q
  | some k => ({ q with tokens := q.tokens.put n (q.tokens.getD n 0 - 1) }).wake k t

/-- A token's arrival in a unit's sequencer at a cycle: the count rises by 1, or SAT is set at 65,535 (R110, R111). -/
def Seq.addToken (q : Seq) (n t : Nat) : Seq :=
  let c := q.tokens.getD n 0
  if c ≥ 65535 then { q with tokSat := q.tokSat.put n true }
  else ({ q with tokens := q.tokens.put n (c + 1) }).grant n t

/-- The kind and number that name a sequencer in a token target (R171): a logical cluster number, or an Iris core. -/
def State.targetOfUnit (s : State) (u : SeqUnit) (n : Nat) : TokenTarget :=
  match u with
  | .cluster c => { kind := 0, unit := s.logCluster c, token := n }
  | .iris c => { kind := 1, unit := c, token := n }

/-- A token's arrival at a unit, with the TOKEN event of a count already at 65,535 (R111). -/
def State.arriveToken (s : State) (u : SeqUnit) (n t sender : Nat) : State :=
  let q := s.seq u
  let s' := s.setSeq u (q.addToken n t)
  if q.tokens.getD n 0 ≥ 65535 then s'.tokenEvent (s.unitPart u) (s.targetOfUnit u n) sender 1 else s'

/-! Exceptions. -/

/-- ILLEGAL_OPERATION (R131). -/
def exIllegal : Nat := 0x01
/-- ADDRESS_RANGE (R131). -/
def exRange : Nat := 0x02
/-- ADDRESS_MAP (R131). -/
def exMap : Nat := 0x03
/-- MEMORY_ERROR (R131). -/
def exMemory : Nat := 0x04

/-- The step status of an exception (R131). -/
def exStatus (code : Nat) : Nat := if code = exMemory then stUncorr else stNoUnit

/-- DHL_SEQ_FAULT or IRS_SEQ_FAULT for an exception (R137, R138). -/
def faultWord (u : SeqUnit) (code ctx pc slot : Nat) (precise : Bool) : BitVec 64 :=
  BitVec.ofNat 64 (code + ctx * 2 ^ 8 + pc % (if u.isIris then 2048 else 8192) * 2 ^ 11 + slot * 2 ^ 24 + 2 ^ 27 + b2n precise * 2 ^ 28)

/-- Every cluster of a unit's step stops issuing (R133). -/
def State.stopStep (s : State) (u : SeqUnit) : State :=
  match s.stepOf u with
  | none => s.setSeq u { s.seq u with stopped := true, run := none }
  | some r => r.clusters.foldl
      (fun s n => s.setSeq (.cluster n) { s.seq (.cluster n) with stopped := true, run := none }) s

/-- An exception recorded: the registers of R137, the context FAULTED, an EXCEPTION event, the step stopped and its
completion status fixed (R131, R133, R135). A unit that has recorded one records no other. -/
def State.raise (s : State) (u : SeqUnit) (k code slot addr : Nat) (precise : Bool) : State :=
  let q := s.seq u
  if q.fault.getLsbD 27 then s
  else
    let fw := faultWord u code k (q.ctx k).pc slot precise
    let fa : BitVec 64 := if code = exIllegal then 0 else BitVec.ofNat 64 addr
    let q := { q with fault := fw, faddr := fa }
    let q := q.setCtx k { q.ctx k with st := .faulted }
    let s := s.setSeq u q
    let s := { s with steps := s.steps.map (fun (r : StepRec) =>
      if r.id = q.step ∧ u.isIris = false then
        { r with st := .draining, clusters := r.clusters.filter (fun c => !(r.aborted.contains c)), status := stFirst (exStatus code) (if r.status = 0 then stOK else r.status),
                 detail := code }
      else r) }
    let s := s.stopStep u
    s.emit (s.unitPart u) evException (unitDie u) (leBytes 8 fw.toNat ++ leBytes 8 fa.toNat ++
      leBytes 4 (s.unitCmd u) ++ leBytes 2 (s.unitLogical u))

/-! Results becoming visible. -/

/-- A change of the context that issued an effect. -/
def State.onCtx (s : State) (u : SeqUnit) (k : Nat) (f : Ctx → Ctx) : State :=
  s.setSeq u ((s.seq u).setCtx k (f ((s.seq u).ctx k)))

/-- The running context, or context 0 when none runs: the one whose next bundle an imprecise exception names (R135). -/
def Seq.curCtx (q : Seq) : Nat := q.run.getD 0

/-- A store of a step that becomes visible: a store that covers only part of a word in error fails and leaves the word
unchanged (R242, R243). -/
def State.stepStore (s : State) (u : SeqUnit) (off : Nat) (bs : List Byte) : State :=
  let w := eccWidth (regionOf off)
  let partial_ := (eccWords off bs.length).find? (fun a =>
    s.badWords.contains a && !(decide (off ≤ a) && decide (a + w ≤ off + bs.length)))
  match partial_ with
  | none => s.store off bs
  | some a => ((s.memError a (s.unitPart u)).raise u (s.seq u).curCtx exMemory 0 (s.globalAddr a) false)

/-- The slices of die d's sealed region that a wipe holds (R229). -/
def State.wiped (s : State) (d : Nat) : Nat :=
  if s.fld R.dhlSealedStatus d [] 0 0 = 1 then s.fld R.dhlSealedStatus d [] 15 8 else 0

/-- Whether a byte lies in a sealed slice that a wipe holds. -/
def State.inWipe (s : State) (a : Nat) : Bool :=
  match regionOf a with
  | .sealed d o => bitOf (s.wiped d) (o / 0x100000)
  | _ => false

/-- A DMA as a wipe leaves it (R229): one that touches the wiped range is held, what it read there becomes zeros, and what
it would write there is discarded. -/
def State.holdDma (s : State) (d : Dma) : Dma :=
  let rd := d.srcs.any (fun p => (words64 p.1 p.2).any s.inWipe)
  let wr := d.writes.any (fun w => (words64 w.1 w.2.length).any s.inWipe)
  if !rd && !wr then d
  else
    let addrs := (d.srcs.map (fun p => (List.range p.2).map (fun i => p.1 + i))).flatten
    let zero (w : Nat × List Byte) : Nat × List Byte :=
      (w.1, (w.2.zip addrs).map (fun e => if s.inWipe e.2 then 0 else e.1))
    let ws := if rd then d.writes.map zero else d.writes
    let words (w : Nat × List Byte) : List (Nat × List Byte) := (List.range (w.2.length / 64)).filterMap (fun i =>
      if s.inWipe (w.1 + 64 * i) then none else some (w.1 + 64 * i, (w.2.drop (64 * i)).take 64))
    { d with held := true, writes := if wr then (ws.map words).flatten else ws }

/-- The end of a DMA or list operation: its writes land, it leaves the outstanding list and its token is signalled
(R105, R113, R171, R174). One that read an uncorrectable word raises MEMORY_ERROR instead (R135). -/
def State.endDma (s : State) (u : SeqUnit) (d : Dma) : State :=
  let q := s.seq u
  let s := s.setSeq u { q with dmas := q.dmas.filter (fun x => x.id != d.id) }
  match d.bad with
  | some a => (s.memError a (s.unitPart u)).raise u q.curCtx exMemory 0 (s.globalAddr a) false
  | none =>
    let s := d.writes.foldl (fun s e => s.stepStore u e.1 e.2) s
    let m := Master.unit u
    let s := (s.accessAll m d.srcs false).accessAll m (d.writes.map (fun w => (w.1, w.2.length))) true
    let s := s.watchHalt u q.cyc
    match d.token with
    | none => s
    | some t => s.sendToken t (s.masterCode (.unit u)) q.part q.radio

/-- The LC tick of a unit's cycle: by the RATE at placement for a cluster, by the nominal 1.41 GHz for an Iris core
(R9, R268). -/
def State.cycleLc (s : State) (u : SeqUnit) (t : Nat) : Nat :=
  let q := s.seq u
  let n := t + q.frzUnsched + q.frzOwn
  if u.isIris then q.lcStart + cdiv (n * 1000) 1410 else q.lcStart + cdiv (n * 4096) (max q.lcRate 1)

/-- One effect lands (R95). -/
def State.land (s : State) (u : SeqUnit) (p : Pend) : State :=
  let q := s.seq u
  match p.what with
  | .regS n v => s.onCtx u p.ctx (fun c => { c with s := c.s.put n v })
  | .regA n v => s.onCtx u p.ctx (fun c => { c with a := c.a.put n v })
  | .regM n v => s.onCtx u p.ctx (fun c => { c with m := c.m.put n v })
  | .regW n v => s.onCtx u p.ctx (fun c => { c with w := c.w.put n (storeW v) })
  | .regL n v => s.onCtx u p.ctx (fun c => { c with l := c.l.put n (storeL v) })
  | .regT n v => s.onCtx u p.ctx (fun c => { c with t := c.t.put n v })
  | .regP n v => s.onCtx u p.ctx (fun c => { c with p := c.p.put n v })
  | .flags f => s.onCtx u p.ctx (fun c => { c with aflags := AFlags.stick c.aflags f })
  | .acc cells => s.setSeq u { q with acc := cells.foldl (fun a e => a.put e.1 e.2) q.acc }
  | .bias cells => s.setSeq u { q with bias := cells.foldl (fun a e => a.put e.1 e.2) q.bias }
  | .mem off bs => s.stepStore u off bs
  | .memList ws => ws.foldl (fun s e => s.stepStore u e.1 e.2) s
  | .mac cells f count =>
    let s := s.setSeq u { q with acc := cells.foldl (fun a e => a.put e.1 e.2) q.acc }
    let s := s.onCtx u p.ctx (fun c => { c with aflags := AFlags.stick c.aflags f })
    if count then s.arriveToken u 63 p.due (s.masterCode (.unit u)) else s
  | .signal t => s.sendToken t (s.masterCode (.unit u)) q.part q.radio
  | .dmaEnd id =>
    match q.dmas.find? (fun d => d.id == id) with
    | none => s
    | some d => if d.held then s.setSeq u { q with dmas := q.dmas.map (fun x => if x.id = id then { x with late := true } else x) }
      else s.endDma u d
  | .memError off => (s.memError off (s.unitPart u)).raise u q.curCtx exMemory 0 (s.globalAddr off) false
  | .tensor h => s.twHit h (s.unitCmd u) (s.cycleLc u p.due) (s.unitLogical u)
  | .stepDone => s.setSeq u { q with
      done := true, active := false, committing := false, run := none, doneC := p.due + 1 + q.frzUnsched + q.frzOwn }

/-- The effects due by a cycle land, in the order in which they become visible (R95, R96); the cycle is then the
unit's present one. -/
def State.settle (s : State) (u : SeqUnit) (t : Nat) : State :=
  let q := s.seq u
  let now := q.pend.filter (fun p => decide (p.due ≤ t))
  let later := q.pend.filter (fun p => !(decide (p.due ≤ t)))
  let s := s.setSeq u { q with pend := later, cyc := max q.cyc t }
  now.foldl (fun s p => s.land u p) s

/-! Selection of a context. -/

/-- The first READY context after k, in the order k + 1, …, k (R86). -/
def Seq.readyAfter (q : Seq) (k n : Nat) : Option Nat :=
  ((List.range n).map (fun i => (k + 1 + i) % n)).find? (fun j => (q.ctx j).st == .ready)

/-- A context selected to issue at a cycle (R86, R87, R126). -/
def Seq.select (q : Seq) (j at_ : Nat) : Seq :=
  { q.setCtx j { q.ctx j with st := .running } with
    run := some j, last := j, next := at_, switches := q.switches + 1 }

/-- The switch point of cycle t in which context k stops running (R86, R87): the next READY context issues at t + 3, or
the sequencer waits for one. -/
def Seq.switchAt (q : Seq) (k n t : Nat) : Seq :=
  match q.readyAfter k n with
  | some j => q.select j (t + 3)
  | none => { q with run := none, idleFrom := t }

/-- Whether a debug STEP lets a unit run in cycle t (R553): its end counts freezes too. -/
def Seq.inStep (q : Seq) (t : Nat) : Bool :=
  match q.dbgStep with
  | none => true
  | some e => decide (t + q.frzUnsched + q.frzOwn < e)

/-- Whether the sequencer may issue: a step is active on it, it has not stopped, and no debug halt holds it. -/
def Seq.canIssue (q : Seq) : Bool := q.active && !q.stopped && !q.committing && !q.dbgHalted && q.inStep q.next

/-- A freeze of one cycle, counted; every relative timing within the cluster stays as it was, but a weight stream keeps
filling its halves (R115). -/
def Seq.freeze (q : Seq) (own : Bool) (n : Nat) : Seq :=
  if own then { q with frzOwn := q.frzOwn + n } else { q with frzUnsched := q.frzUnsched + n }

/-- DHL_SEQ_CYCLES: cycles since step cycle 0, freezes included (R126). -/
def Seq.cycles (q : Seq) : Nat := q.cyc + q.frzUnsched + q.frzOwn

end Sys2Proof.Machine
end

