-- ==== Sys2Proof/Machine/Operands.lean ====
section
/-! DEFINITION. The operand forms of the slot operations: addresses with post-modification and windows (R97 to R100,
R130, R149), scalar pairs (R129), conditions (R142, R145) and the fields of tile descriptors (R93). -/
namespace Sys2Proof.Machine

/-- An exception that an operation would raise: its code and the address at fault (R131, R137). -/
abbrev Exc := Nat × Nat

/-- The exception of code 0x01. -/
def illegal : Exc := (exIllegal, 0)

/-- The first of two checks that raises. -/
def Exc.orElse : Option Exc → Option Exc → Option Exc
  | some e, _ => some e
  | none, f => f

/-- A check that raises when a condition holds. -/
def raiseIf (c : Bool) (e : Exc) : Option Exc := if c then some e else none

/-- Of several checks of one slot, the one with the lowest code (R132). -/
def lowestExc : List (Option Exc) → Option Exc
  | [] => none
  | none :: t => lowestExc t
  | some e :: t =>
    match lowestExc t with
    | none => some e
    | some f => if f.1 < e.1 then some f else some e

/-- The offset field of an address register (R10). -/
def offOf (a : BitVec 64) : Nat := getField a 47 0
/-- The node field of an address register (R10). -/
def nodeOf (a : BitVec 64) : Nat := getField a 63 48

/-- The window that an operation's Ww field names: base and length in bytes; length 0 means no window in force
(R93, R130). -/
structure Window where
  base : Nat
  len : Nat
  deriving DecidableEq, Repr

/-- The window of a window register (R93). -/
def windowOf (w : BitVec 128) : Window := { base := winBaseOf w, len := winLenOf w * 64 }

/-- The i-th byte's offset of an access that begins at an offset: it continues at the base at the window's end (R99). -/
def Window.at (w : Window) (off i : Nat) : Nat :=
  if w.len = 0 then off + i else w.base + (off - w.base + i) % w.len

/-- The value an address register receives after its use: A + M, wrapped in the window's bytes, the node field kept
(R97, R98). -/
def postModify (a m : BitVec 64) (w : Window) : BitVec 64 :=
  if w.len = 0 then a + m
  else
    let o : Int := (offOf a : Int) + m.toInt - (w.base : Int)
    setField a 47 0 (w.base + (o % (w.len : Int)).toNat)

/-- The checks of a named window (R99): a length above 262,144 units is illegal, an offset outside it is out of
range. -/
def windowExc (w : BitVec 128) (a : BitVec 64) : Option Exc :=
  let win := windowOf w
  if winLenOf w > 262144 then some illegal
  else if win.len ≠ 0 ∧ ¬(win.base ≤ offOf a ∧ offOf a < win.base + win.len) then some (exRange, a.toNat)
  else none

/-- Whether an address names this node: its number, or 0xFFFF (R100, R149). -/
def State.isLocal (s : State) (a : BitVec 64) : Bool := nodeOf a == 0xFFFF || nodeOf a == s.nodeId

/-- Whether a range lies where a unit's own scheduled accesses reach: a cluster's BANK_SLICE and exchange slots, or the
own die's Iris SRAM (R121, R149, R216). -/
def State.unitReach (s : State) (u : SeqUnit) (off n : Nat) : Bool :=
  match u with
  | .cluster c => s.stepReach (c / 8) (s.seq u).slice (s.seq u).part off n
  | .iris c => (words64 off n).all (fun a => match regionOf a with
    | .iris i _ => i == c / 48
    | _ => false)

/-- The checks of an AGU access of a size at A (R99, R149): window, then alignment, then map, in code order. -/
def State.accessExc (s : State) (u : SeqUnit) (a : BitVec 64) (w : BitVec 128) (size : Nat) : Option Exc :=
  lowestExc [windowExc w a, raiseIf (offOf a % size != 0) (exRange, a.toNat),
    raiseIf (!(s.isLocal a) || !(s.unitReach u (offOf a) size)) (exMap, a.toNat)]

/-- The latency of an AGU load: 6 from the interleaved array, 8 from the exchange region, 5 on an Iris core
(R105, R121). -/
def loadLatency (u : SeqUnit) (off : Nat) : Nat :=
  if u.isIris then 5 else match regionOf off with
    | .xch _ _ => 8
    | _ => 6

/-- Whether a scalar register number may begin a pair (R129). -/
def pairOk (n : BitVec 5) : Bool := n.toNat % 2 == 0

/-- The next scalar register. -/
def nextReg (n : BitVec 5) : BitVec 5 := n + 1

/-- The 128-bit value of the scalar pair that begins at an even register; Sn is the less significant half (R129). -/
def Ctx.pair (c : Ctx) (n : BitVec 5) : BitVec 128 := c.rs (nextReg n) ++ c.rs n

/-- The integer conditions of CMP and CMPI (R142). -/
def intCond (cond : Nat) (a b : BitVec 64) : Bool :=
  match cond with
  | 0 => a == b
  | 1 => a != b
  | 2 => a.slt b
  | 3 => !(a.slt b)
  | 4 => a.ult b
  | _ => !(a.ult b)

/-- The FP32 conditions of CMPF (R142). -/
def fpCond (cond : Nat) (a b : BitVec 32) : Bool :=
  let x := fp32Num a
  let y := fp32Num b
  let un := x.isNaN || y.isNaN
  match cond with
  | 0 => x.eqv y
  | 1 => !(x.eqv y)
  | 2 => !un && x.lt y
  | 3 => !un && !(x.lt y)
  | 4 => un
  | _ => !un

/-- A scalar operation of the RR format (R140, R141). -/
def aluEval (k : Alu) (a b : BitVec 64) : BitVec 64 :=
  match k with
  | .add => a + b
  | .sub => a - b
  | .and => a &&& b
  | .or => a ||| b
  | .xor => a ^^^ b
  | .shl => a <<< (b.toNat % 64)
  | .shr => a >>> (b.toNat % 64)
  | .sra => a.sshiftRight (b.toNat % 64)
  | .mul => a * b
  | .min => if a.slt b then a else b
  | .max => if a.slt b then b else a
  | .minu => if a.ult b then a else b
  | .maxu => if a.ult b then b else a

/-- The latency of an RR operation: 3 for the 64-bit multiply, else 1 (R105). -/
def aluLatency : Alu → Nat
  | .mul => 3
  | _ => 1

/-- A scalar operation of the RI format: ADDI extends the immediate by its sign, the logic operations by zeros
(R140). -/
def aluIEval (k : AluI) (a : BitVec 64) (imm : BitVec 12) : BitVec 64 :=
  match k with
  | .addi => a + imm.signExtend 64
  | .andi => a &&& imm.zeroExtend 64
  | .ori => a ||| imm.zeroExtend 64
  | .xori => a ^^^ imm.zeroExtend 64

/-- An immediate shift (R140, R141). -/
def shiftEval (k : ShiftI) (a : BitVec 64) (sh : BitVec 6) : BitVec 64 :=
  match k with
  | .shli => a <<< sh.toNat
  | .shri => a >>> sh.toNat
  | .srai => a.sshiftRight sh.toNat

/-! Tile descriptors (R93). -/

/-- The fields of a tile descriptor (R93). -/
structure Tile where
  k : Nat
  n : Nat
  m : Nat
  e : Nat
  fa : Nat
  fb : Nat
  init : Nat
  conj : Bool
  wide : Bool
  rows : Nat
  senc : Nat
  resv : Nat
  deriving DecidableEq, Repr

/-- The tile that a tile register holds (R93). -/
def tileOf (t : BitVec 128) : Tile :=
  { k := getField t 23 0, n := getField t 36 24, m := getField t 42 37, e := getField t 47 43,
    fa := getField t 51 48, fb := getField t 55 52, init := getField t 57 56, conj := t.getLsbD 58,
    wide := t.getLsbD 59, rows := getField t 67 60, senc := getField t 71 68, resv := getField t 127 72 }

/-- Whether a tile's accumulators are complex (format code 0x7, R46). -/
def Tile.complex (t : Tile) : Bool := t.fa == 7

/-- How many accumulator entries a tile names (R51, R56). -/
def Tile.entries (t : Tile) : Nat := if t.complex then 2 * t.m else t.m

/-- Whether an accumulator of a tile's format is an integer: INT8 and INT4 pairs and complex (R50). -/
def Tile.intAcc (t : Tile) : Bool := t.fa == 5 || t.fa == 6 || t.fa == 7

/-- The kinds of format that may stand on one side of a pair (R50). -/
def fmtClass (f : Nat) : Nat :=
  match f with
  | 2 | 3 => 2
  | 8 | 9 => 8
  | x => x

/-- K elements per lane cycle and the B vector's bytes of a format pair (R50); none where the pair is illegal. -/
def pairRate (fa fb : Nat) : Option (Nat × Nat) :=
  match fmtClass fa, fmtClass fb with
  | 2, 2 => some (8, 8)
  | 2, 4 => some (8, 4)
  | 4, 4 => some (16, 8)
  | 8, 8 => some (8, 8)
  | 8, 10 => some (8, 4)
  | 10, 10 => some (16, 8)
  | 11, 11 => some (8, 8)
  | 5, 5 => some (8, 8)
  | 5, 6 => some (8, 4)
  | 6, 6 => some (16, 8)
  | 1, 1 => some (4, 8)
  | 7, 7 => some (2, 8)
  | 0, 0 => some (1, 4)
  | _, _ => none

/-- The logical rows a tile's operation uses: its mask in deep form, all eight when joined (R51, R56). -/
def Tile.rowMask (t : Tile) : Nat := if t.wide then 255 else t.rows

/-- The checks of R94: the form in force, each field within its range, the reserved bits 0, a row named in deep form. On
an Iris core one row of 16 lanes, complex INT16 or INT16 and no sparse encoding (R121, R175, R207). -/
def tileBad (iris form : Bool) (t : Tile) : Bool :=
  let entries := t.entries
  let common := t.resv != 0 || t.init == 3 || t.m == 0 || t.n == 0 || t.fa ≥ 12 || t.fb ≥ 12 || t.senc ≥ 4 ||
    (t.conj && !t.complex)
  if iris then
    common || t.wide || t.rows != 1 || t.n > 16 || t.senc != 0 || t.fa != 7 || t.fb != 7 ||
      t.m > 16 || t.e + entries > 32
  else
    common || t.wide != form ||
    (if t.wide then t.n > 4096 || t.e + entries > 4
     else t.rows == 0 || t.n > 512 * popCount t.rows 8 || t.m > 32 || t.e + entries > 32)

/-- The active lanes of a tile, by their number in the joined row of 4,096: the first N lanes of the masked rows, rows
ascending (R51, R56). -/
def Tile.lanes (t : Tile) : List Nat :=
  if t.wide then List.range t.n
  else (((maskList t.rows 8).map (fun r => (List.range 512).map (fun i => 512 * r + i))).flatten).take t.n

/-- The key of an accumulator entry of a lane. -/
def accKey (lane entry : Nat) : Nat := lane * 32 + entry

end Sys2Proof.Machine
end

