-- ==== Sys2Proof/Machine/AguOps.lean ====
section
/-! DEFINITION. The AGU slots: addresses, loads and stores (R97 to R99, R148, R149), and the bank conflict of two
accesses of one bundle (R117). -/
namespace Sys2Proof.Machine

/-- The size of a load in bytes (R148). -/
def loadSize : LoadKind → Nat
  | .b8 => 1 | .b16 => 2 | .b32 => 4 | .b64 => 8 | _ => 16

/-- The size of a store in bytes (R148). -/
def storeSize : StoreKind → Nat
  | .b8 => 1 | .b16 => 2 | .b32 => 4 | .b64 => 8 | .qs => 16

/-- Whether a load's register field is legal: an even pair, a register its kind has, an L register not active
(R129, R148). -/
def loadRegBad (c : Ctx) : LoadKind → BitVec 5 → Bool
  | .qs, r => !pairOk r
  | .qw, r => r.toNat ≥ 16
  | .qt, r => r.toNat ≥ 8
  | .ql, r => r.toNat ≥ 8 || loopActive (c.rl r.toNat)
  | _, _ => false

/-- What an AGU operation raises (R129, R131, R148, R149). -/
def State.aguExc (s : State) (u : SeqUnit) (c : Ctx) : AguOp → Option Exc
  | .nop => none
  | .amod a _ w => windowExc (c.rw w.toNat) (c.ra a)
  | .load k r a _ w =>
    lowestExc [raiseIf (loadRegBad c k r) illegal, s.accessExc u (c.ra a) (c.rw w.toNat) (loadSize k)]
  | .store k r a _ w =>
    lowestExc [raiseIf (k == .qs && !pairOk r) illegal, s.accessExc u (c.ra a) (c.rw w.toNat) (storeSize k)]

/-- The registers that a load of a value writes (R148). -/
def loadEffects (k : LoadKind) (r : BitVec 5) (v : Nat) : List Effect :=
  match k with
  | .qs => [.regS r.toNat (BitVec.ofNat 64 v), .regS (nextReg r).toNat (BitVec.ofNat 64 (v / 2 ^ 64))]
  | .qw => [.regW r.toNat (BitVec.ofNat 128 v)]
  | .qt => [.regT r.toNat (BitVec.ofNat 128 v)]
  | .ql => [.regL r.toNat (BitVec.ofNat 128 v &&& ~~~ (1#128 <<< 80))]
  | _ => [.regS r.toNat (BitVec.ofNat 64 v)]

/-- The bytes that a store writes (R148). -/
def storeBytes (c : Ctx) (k : StoreKind) (r : BitVec 5) : List Byte :=
  match k with
  | .qs => leBytes 16 (c.pair r).toNat
  | k => leBytes (storeSize k) (c.rs r).toNat

/-- The post-modification of an address register, visible after 1 cycle (R97). -/
def postEffect (c : Ctx) (a m w : BitVec 4) : Nat × Effect :=
  (1, .regA a.toNat (postModify (c.ra a) (c.rm m) (windowOf (c.rw w.toNat))))

/-- The results of an AGU operation with their latencies (R105, R148): a load that meets an uncorrectable word raises
MEMORY_ERROR when its result would become visible (R135). -/
def State.aguEffects (s : State) (u : SeqUnit) (c : Ctx) : AguOp → List (Nat × Effect)
  | .nop => []
  | .amod a m w => [postEffect c a m w]
  | .load k r a m w =>
    let off := offOf (c.ra a)
    let lat := loadLatency u off
    postEffect c a m w ::
      (match s.badIn off (loadSize k) with
       | some bad => [(lat, .memError bad)]
       | none => (loadEffects k r (s.num off (loadSize k))).map (fun e => (lat, e)))
  | .store k r a m w => [postEffect c a m w, (4, .mem (offOf (c.ra a)) (storeBytes c k r))]

/-- The word that an AGU operation accesses, and whether it writes. -/
def aguAccess (c : Ctx) : AguOp → Option (Nat × Bool)
  | .load _ _ a _ _ => some (offOf (c.ra a) / 64 * 64, false)
  | .store _ _ a _ _ => some (offOf (c.ra a) / 64 * 64, true)
  | _ => none

/-- Whether two accesses of one bundle meet in one bank of the interleaved array: different words, or one that writes
(R117). -/
def State.bankClash (s : State) (x y : Option (Nat × Bool)) : Bool :=
  match x, y with
  | some (a, wa), some (b, wb) =>
    match regionOf a, regionOf b with
    | .sp d o, .sp e p =>
      d == e && bankOf (s.groupWide d) o == bankOf (s.groupWide d) p && (a != b || wa || wb)
    | _, _ => false
  | _, _ => false

end Sys2Proof.Machine
end

