-- ==== Sys2Proof/Machine/CtlOps.lean ====
section
/-! DEFINITION. The CTL slot: what each operation raises and does (R101 to R103, R119, R139 to R147, R206). -/
namespace Sys2Proof.Machine

/-- Where the sequencer goes after a bundle (R86, R101, R105). -/
inductive Flow where
  | next
  | jump (target : Nat)
  | idle (n : Nat)
  | yield
  | halt
  | commit
  deriving DecidableEq, Repr

/-- The register count of a MOV kind: S 32; A, M and W 16; L, T and P 8 (R143). -/
def kindCount (k : Nat) : Nat := if k = 0 then 32 else if k ≤ 3 then 16 else 8

/-- Whether MOV allows a pair of kinds (R143). -/
def movAllowed (dk sk : Nat) : Bool :=
  match dk, sk with
  | 0, 0 | 1, 1 | 2, 2 | 1, 0 | 2, 0 | 0, 1 | 0, 2 => true
  | 3, 0 | 4, 0 | 5, 0 | 0, 3 | 0, 4 | 0, 5 => true
  | 0, 6 | 6, 0 | 6, 6 => true
  | _, _ => false

/-- Whether a MOV operand pair is legal: the kinds, the numbers, the pairs and P0 (R129, R143). -/
def movBad (c : Ctx) (dk dn sk sn : Nat) : Bool :=
  !movAllowed dk sk || dn ≥ kindCount dk || sn ≥ kindCount sk ||
  (3 ≤ dk && dk ≤ 5 && sn % 2 == 1) || (3 ≤ sk && sk ≤ 5 && dn % 2 == 1) ||
  (dk == 4 && loopActive (c.rl dn)) || (dk == 6 && dn == 0)

/-- The loop registers that are active, with their numbers, innermost first: of the loops of one context, the one that
starts last is the innermost (R102). -/
def Ctx.activeLoops (c : Ctx) : List (Nat × BitVec 128) :=
  ((List.range 8).map (fun i => (i, c.rl i))).filter (fun e => loopActive e.2)

/-- The checks of LOOP and LOOPI (R102, R146). -/
def loopBad (q : Seq) (c : Ctx) (lk stop pc : Nat) : Bool :=
  stop ≤ pc || stop ≥ q.codeLen || loopActive (c.rl lk) || c.activeLoops.any (fun e => loopEnd e.2 < stop)

/-- Whether an RDSR code reads a value that depends on when the bundle issues (R144). -/
def srTiming (sr : Nat) : Bool := sr == 2 || sr == 4 || (0x40 ≤ sr && sr < 0x80)

/-- What a CTL operation raises (R92, R119, R128, R129, R142 to R147); `none` when its encoding is undefined is the
caller's case. -/
def ctlExc (q : Seq) (c : Ctx) (k : Nat) : CtlOp → Option Exc
  | .cmp pd cond _ _ => raiseIf (pd == 0 || cond.toNat ≥ 6) illegal
  | .cmpi pd cond _ _ => raiseIf (pd == 0 || cond.toNat ≥ 6) illegal
  | .cmpf pd cond _ _ => raiseIf (pd == 0 || cond.toNat ≥ 6) illegal
  | .plog pd op _ _ _ _ => raiseIf (pd == 0 || op == 3) illegal
  | .mov dk dn sk sn => raiseIf (movBad c dk.toNat dn.toNat sk.toNat sn.toNat) illegal
  | .rdsr _ sr =>
    let n := sr.toNat
    raiseIf (!(n ≤ 4 || (0x40 ≤ n && n < 0x80)) || (q.exact && srTiming n)) illegal
  | .br _ t => raiseIf (t.toNat ≥ q.codeLen) illegal
  | .call _ t => raiseIf (t.toNat ≥ q.codeLen) illegal
  | .jr _ a => raiseIf ((c.rs a).toNat % 8192 ≥ q.codeLen) illegal
  | .bskip _ t => raiseIf (t.toNat ≥ q.codeLen || t.toNat ≤ c.pc) illegal
  | .loop lk stop _ => raiseIf (loopBad q c lk.toNat stop.toNat c.pc) illegal
  | .loopi lk stop _ => raiseIf (loopBad q c lk.toNat stop.toNat c.pc) illegal
  | .halt => raiseIf (c.outst != 0) illegal
  | .commit => raiseIf (k != 0 || c.outst != 0 ||
      !((List.range 8).all (fun j => j == 0 || (q.ctx j).st == .halted || (q.ctx j).st == .idle))) illegal
  | _ => none

/-- The special value that RDSR reads (R144); `cyc` is the issue cycle. -/
def srValue (q : Seq) (c : Ctx) (cyc sr : Nat) : BitVec 64 :=
  match sr with
  | 0 => c.aflags.zeroExtend 64
  | 1 => BitVec.ofNat 64 c.fstat
  | 2 => BitVec.ofNat 64 c.outst
  | 3 => c.arith
  | 4 => BitVec.ofNat 64 (cyc + q.frzUnsched + q.frzOwn)
  | n => BitVec.ofNat 64 (q.tokens.getD (n - 0x40) 0)

/-- The results of MOV (R143). -/
def movEffects (c : Ctx) (dk dn sk sn : Nat) : List Effect :=
  let s5 := BitVec.ofNat 5 sn
  let s4 := BitVec.ofNat 4 sn
  let quad (v : BitVec 128) : List Effect := [.regS dn (v.extractLsb' 0 64), .regS (dn + 1) (v.extractLsb' 64 64)]
  match dk, sk with
  | 0, 0 => [.regS dn (c.rs s5)]
  | 1, 1 => [.regA dn (c.ra s4)]
  | 2, 2 => [.regM dn (c.rm s4)]
  | 1, 0 => [.regA dn (c.rs s5)]
  | 2, 0 => [.regM dn (c.rs s5)]
  | 0, 1 => [.regS dn (c.ra s4)]
  | 0, 2 => [.regS dn (c.rm s4)]
  | 3, 0 => [.regW dn (c.pair s5)]
  | 4, 0 => [.regL dn (c.pair s5 &&& ~~~ (1#128 <<< 80))]
  | 5, 0 => [.regT dn (c.pair s5)]
  | 0, 3 => quad (c.rw sn)
  | 0, 4 => quad (c.rl sn)
  | 0, 5 => quad (c.rt sn)
  | 0, 6 => [.regS dn (if c.rp sn then 1 else 0)]
  | 6, 0 => [.regP dn (c.rs s5 != 0)]
  | 6, 6 => [.regP dn (c.rp sn)]
  | _, _ => []

/-- The loop register that LOOP writes: COUNT, START, END and ACTIVE (R101). -/
def loopWord (count start stop : Nat) (active : Bool) : BitVec 128 :=
  BitVec.ofNat 128 (count % 2 ^ 32 + start % 8192 * 2 ^ 32 + stop % 8192 * 2 ^ 64 + b2n active * 2 ^ 80)

/-- The results of a CTL operation, each with its latency (R105, R140); a register of a loop is written at once, since
the end of this very bundle is judged by it. -/
def ctlEffects (q : Seq) (c : Ctx) (t : Nat) : CtlOp → List (Nat × Effect)
  | .rr k d a b => [(aluLatency k, .regS d.toNat (aluEval k (c.rs a) (c.rs b)))]
  | .ri k d a imm => [(1, .regS d.toNat (aluIEval k (c.rs a) imm))]
  | .rs k d a sh => [(1, .regS d.toNat (shiftEval k (c.rs a) sh))]
  | .li d imm => [(1, .regS d.toNat (imm.signExtend 64))]
  | .lis d imm => [(1, .regS d.toNat ((c.rs d) <<< 16 ||| imm.zeroExtend 64))]
  | .cmp pd cond a b => [(1, .regP pd.toNat (intCond cond.toNat (c.rs a) (c.rs b)))]
  | .cmpi pd cond a imm => [(1, .regP pd.toNat (intCond cond.toNat (c.rs a) (imm.signExtend 64)))]
  | .cmpf pd cond a b =>
    [(1, .regP pd.toNat (fpCond cond.toNat ((c.rs a).extractLsb' 0 32) ((c.rs b).extractLsb' 0 32)))]
  | .plog pd op pa ia pb ib =>
    let x := c.rp pa.toNat ^^ ia
    let y := c.rp pb.toNat ^^ ib
    [(1, .regP pd.toNat (if op = 0 then x && y else if op = 1 then x || y else x ^^ y))]
  | .mov dk dn sk sn => (movEffects c dk.toNat dn.toNat sk.toNat sn.toNat).map (fun e => (1, e))
  | .rdsr d sr => [(1, .regS d.toNat (srValue q c t sr.toNat))]
  | .call cp _ => if c.pred cp then [(1, .regS 31 (BitVec.ofNat 64 (c.pc + 1)))] else []
  | _ => []

/-- Where the sequencer goes after a CTL operation (R101, R105, R145). -/
def ctlFlow (c : Ctx) : CtlOp → Flow
  | .br cp t => if c.pred cp then .jump t.toNat else .next
  | .call cp t => if c.pred cp then .jump t.toNat else .next
  | .jr cp a => if c.pred cp then .jump ((c.rs a).toNat % 8192) else .next
  | .bskip cp t => if c.pred cp then .jump t.toNat else .next
  | .loop _ stop sc => if (c.rs sc).toNat % 2 ^ 32 = 0 then .jump (stop.toNat + 1) else .next
  | .loopi _ stop cnt => if cnt = 0 then .jump (stop.toNat + 1) else .next
  | .idle n1 => .idle (n1.toNat + 1)
  | .yield => .yield
  | .halt => .halt
  | .commit => .commit
  | _ => .next

/-- The loop that a LOOP or LOOPI starts: its register and value; with count 0 the loop is set inactive (R101). -/
def ctlLoop (c : Ctx) : CtlOp → Option (Nat × BitVec 128)
  | .loop lk stop sc =>
    let n := (c.rs sc).toNat % 2 ^ 32
    some (lk.toNat, loopWord n (c.pc + 1) stop.toNat (n != 0))
  | .loopi lk stop cnt => some (lk.toNat, loopWord cnt.toNat (c.pc + 1) stop.toNat (cnt != 0))
  | _ => none

/-- The active loop of a list that starts last. -/
def innermost : List (Nat × BitVec 128) → Option (Nat × BitVec 128)
  | [] => none
  | e :: t =>
    match innermost t with
    | none => some e
    | some f => if loopStart f.2 ≥ loopStart e.2 then some f else some e

/-- The end of a bundle at a loop's end: the innermost loop decides first; one that has passes left returns to its start,
a finished one becomes inactive and the next outer one decides (R101, R102). `fuel` bounds the nesting of eight. -/
def Ctx.loopEndAt (c : Ctx) (pc : Nat) : Nat → Ctx × Option Nat
  | 0 => (c, none)
  | fuel + 1 =>
    match innermost c.activeLoops with
    | none => (c, none)
    | some (i, l) =>
      if loopEnd l ≠ pc then (c, none)
      else if loopCount l > 1 then
        ({ c with l := c.l.put i (loopWord (loopCount l - 1) (loopStart l) pc true) }, some (loopStart l))
      else Ctx.loopEndAt { c with l := c.l.put i (loopWord 0 (loopStart l) pc false) } pc fuel

/-- A taken branch makes inactive every loop whose body its target leaves (R103). -/
def Ctx.leaveLoops (c : Ctx) (target : Nat) : Ctx :=
  c.activeLoops.foldl (fun c e =>
    if loopStart e.2 ≤ target ∧ target ≤ loopEnd e.2 then c
    else { c with l := c.l.put e.1 (e.2 &&& ~~~ (1#128 <<< 80)) }) c

/-- The counters a CTL operation advances: a taken BSKIP (R206) and a timing RDSR in throughput mode (R460). -/
def ctlCounts (q : Seq) (c : Ctx) : CtlOp → Seq
  | .bskip cp t =>
    if c.pred cp then
      { q with bskipTaken := q.bskipTaken + 1, bskipBundles := q.bskipBundles + (t.toNat - c.pc - 1) }
    else q
  | .rdsr _ sr => if srTiming sr.toNat && !q.exact then { q with ndTiming := satAdd q.ndTiming 1 65535 } else q
  | _ => q

end Sys2Proof.Machine
end

