-- ==== Sys2Proof/Machine/FabOps.lean ====
section
/-! DEFINITION. The requester side of the fabric: routes and peers (R413, R414, R428), the issue of a remote operation and
its attempts (R394, R399, R401, R402), and the meters, shapers and queues through which requests leave (R368, R376, R379,
R426). -/
namespace Sys2Proof.Machine

/-- Whether the lock is committed, so that the fabric serves requests (R393). -/
def State.fabricUp (s : State) : Bool := s.fld R.lpnNode 22 [] 24 24 == 1

/-- The home of an offset (R397). -/
def homeDie (off : Nat) : Nat := 22 + bitsOf off 22 21

/-- The route entry of a node (R428): PAIR [1:0], LINK [4:2], VALID [15]. -/
def State.routeOf (s : State) (n : Nat) : Nat :=
  getField (s.reg R.lpnRoute 22 [n / 4]) (16 * (n % 4) + 15) (16 * (n % 4))

/-- The peer entry of a node (R413): INCARN [7:0], DOWN [8]. -/
def State.peerOf (s : State) (n : Nat) : Nat :=
  getField (s.reg R.lpnPeer 22 [n / 4]) (16 * (n % 4) + 15) (16 * (n % 4))

/-- Whether a node's peer entry reads DOWN. -/
def State.peerDown (s : State) (n : Nat) : Bool := bitOf (s.peerOf n) 8

/-- The context number of an issuer (R394); a mirror copy has none that the spec gives. -/
def State.ctxNumber (s : State) : Issuer → Option Nat
  | .ctx (.cluster c) k => some (s.logCluster c * 8 + k)
  | .ctx (.iris _) _ => none
  | .ring r _ => some (1056 + r % 32)
  | .core n => some (1024 + n)
  | .lockstep => some 1048
  | .mirror _ => none

/-! Links. -/

/-- The state of a link of a Lupin die: 0 DOWN, 1 TRAINING, 2 UP, 3 SPARING (R428). -/
def State.linkSt (s : State) (die j : Nat) : Nat := s.fld R.lpnLink die [j] 9 8

/-- A link's queue and replay buffer. -/
def State.link (s : State) (die j : Nat) : FabLink := s.links.getD (8 * (die - 22) + j) {}

/-- The state with a link's queue and replay buffer replaced. -/
def State.setLink (s : State) (die j : Nat) (l : FabLink) : State :=
  { s with links := s.links.put (8 * (die - 22) + j) l }

/-- A unit enters its link's queue; a DOWN link discards it (R425). -/
def State.linkPush (s : State) (die : Nat) (u : FabUnit) : State :=
  if s.linkSt die u.link = 0 then s
  else
    let l := s.link die u.link
    s.setLink die u.link { l with
      queue := l.queue ++ [u]
      progressLc := if l.queue.isEmpty && l.buf.isEmpty then s.lc else l.progressLc }

/-! Egress meters and shapers. -/

/-- The payload of a request (R368): what it stores, or an atomic's operand and comparison value. -/
def fabPayload (r : FabReq) : Nat :=
  match r.kind with
  | .rst => r.data.length
  | .put => r.data.length
  | .copy => r.data.length
  | .rat => if r.akind = 4 ∨ r.akind = 0xA then 2 * r.size else r.size
  | _ => 0

/-- The bytes that wait in a die's yellow queue. -/
def State.yellowBytes (s : State) (die : Nat) : Nat := ((s.yellowQ.getD (die - 22) []).map (·.cost)).foldl (· + ·) 0

/-- The colour of a unit at the head of its queue (R376): met for the first time, or as a tick marked it; red holds it. -/
def State.colourUnit (s : State) (meter : Nat) (u : FabUnit) : FabUnit × State :=
  match u.mark with
  | some _ => (u, s)
  | none =>
    let by_ := HeldBy.fabric u.op u.pkt
    match s.held.find? (fun h => h.by_ == by_) with
    | some h =>
      match h.mark with
      | none => (u, s)
      | some m => ({ u with mark := some m.1 }, { s with held := s.held.filter (fun h => h.by_ != by_) })
    | none =>
      let r := s.meet meter u.cost
      match r.1 with
      | .red => (u, { r.2 with held := r.2.held ++ [{ by_ := by_, meter := meter, cost := u.cost }] })
      | c => ({ u with mark := some (c == .yellow) }, r.2)

/-- A coloured unit at the head of its queue tries to pass its shaper, and yellow the yellow queue (R376, R379, R380):
whether it passed, the unit as it stays, and the state. -/
def State.passUnit (s : State) (die meter shaper : Nat) (u : FabUnit) : Bool × FabUnit × State :=
  match u.mark with
  | none => (false, u, s)
  | some yellow =>
    if !(s.shapeOk shaper u.cost) then (false, u, s)
    else if yellow then
      if s.yellowBytes die + u.cost > s.fld R.lpnTcCfg die [] 15 0 * 1024 then
        (false, { u with idle := true }, if u.idle then s else s.countIdle meter)
      else
        let s := s.shapeSend shaper u.cost
        (true, u, { s with yellowQ := s.yellowQ.put (die - 22) (s.yellowQ.getD (die - 22) [] ++ [{ u with level := 5 }]) })
    else (true, u, (s.shapeSend shaper u.cost).linkPush die u)

/-- A queue of a partition and class at a Lupin die served as far as its meter and shaper let it (R376, R380). -/
def State.pumpQueue (s : State) (key : Nat) : List FabUnit → State
  | [] => { s with egress := s.egress.del key }
  | u :: t =>
    let die := 22 + key / 256
    let meter := R.lpnMtr.at die [key % 256]
    let a := s.colourUnit meter u
    let b := a.2.passUnit die meter (R.lpnShp.at die [key % 256]) a.1
    if b.1 then State.pumpQueue b.2.2 key t
    else { b.2.2 with egress := b.2.2.egress.put key (b.2.1 :: t) }

/-- Every egress queue served. -/
def State.pumpEgress (s : State) : State := s.egress.foldl (fun s e => s.pumpQueue e.1 (s.egress.getD e.1 [])) s

/-! Attempts. -/

/-- The length of packet j of a block operation, or of the one request of another (R399). -/
def RemoteOp.pktSize (o : RemoteOp) (j : Nat) : Nat :=
  match o.kind with
  | .put => min 4096 (o.size - 4096 * j)
  | .get => min 4096 (o.size - 4096 * j)
  | _ => o.size

/-- How many requests an operation has (R399). -/
def RemoteOp.numPkts (o : RemoteOp) : Nat :=
  match o.kind with
  | .put => cdiv o.size 4096
  | .get => cdiv o.size 4096
  | _ => 1

/-- The kind of a request. -/
def RemoteKind.fab : RemoteKind → FabKind
  | .rld => .rld
  | .rst => .rst
  | .rat => .rat
  | .put => .put
  | .get => .get
  | .copy => .copy
  | .release => .release

/-- An attempt of request j of an operation, sent at an instant of TB2 (R401, R403). -/
def RemoteOp.req (o : RemoteOp) (j : Nat) (sent : Int) : FabReq :=
  { tag := o.tag, stamp := o.stamp, sent := sent, incarn := o.incarn, kind := o.kind.fab, off := o.addr + 4096 * j,
    size := o.pktSize j, data := (o.data.drop (4096 * j)).take 4096, operand := o.operand, cmp := o.cmp,
    akind := o.akind, pkt := j, seq := if o.kind == .copy then o.seq else 0, resync := false }

/-- A remote operation by its number. -/
def State.opOf (s : State) (id : Nat) : Option RemoteOp := s.remote.find? (fun o => o.id == id)

/-- The state with a remote operation changed. -/
def State.onOp (s : State) (id : Nat) (f : RemoteOp → RemoteOp) : State :=
  { s with remote := s.remote.map (fun (o : RemoteOp) => if o.id = id then f o else o) }

/-- An operation with one of its requests changed. -/
def RemoteOp.onPkt (o : RemoteOp) (j : Nat) (f : FabPkt → FabPkt) : RemoteOp :=
  { o with pkts := o.pkts.zipIdx.map (fun e => if e.2 = j then f e.1 else e.1) }

/-- Whether a retry of an operation meets no meter and no shaper, or the operation never does (R379). -/
def RemoteOp.unmetered (o : RemoteOp) (retry : Bool) : Bool :=
  o.kind == .copy || o.kind == .release || (retry && o.kind == .rat)

/-- An attempt sent (R394, R402, R426): to this node's own home, straight into its link's queue, or through the meter and
shaper of its partition and class. -/
def State.sendReq (s : State) (o : RemoteOp) (j : Nat) (sent : Int) (retry : Bool) : State :=
  let r := o.req j sent
  if o.local_ then { s with localReqs := s.localReqs ++ [r] }
  else
    let n := fabPayload r + 32
    let u : FabUnit := { msg := .req r, level := if retry || o.kind == .copy || o.kind == .release then 3 else 4,
                         link := o.link, left := n, cost := n, op := o.id, pkt := j }
    if o.unmetered retry then s.linkPush o.die u
    else
      let key := 256 * (o.die - 22) + 4 * o.part + o.cls
      s.pumpQueue key (s.egress.getD key [] ++ [u])

/-- A further attempt of request j, sent now (R402). -/
def State.resend (s : State) (o : RemoteOp) (j : Nat) (loss : Bool) : State :=
  let s := s.onOp o.id (fun o => o.onPkt j (fun p => { p with
    sent := p.sent + 1, lastLc := s.lc, losses := if loss then p.losses + 1 else p.losses, answered := false,
    hotDue := none }))
  let s := if loss then s.bumpFld R.lpnReqstat o.die [] 31 0 1 else s
  s.sendReq o j (s.tbNs 2) true

/-! Issue. -/

/-- The value of TB2 in nanoseconds at an LC tick from now on, at the present rate. -/
def State.tb2At (s : State) (lc : Nat) : Int := ((s.base 2).val + s.tickOf 2 * (lc - s.lc : Nat)) / 2 ^ 40

/-- What completes an operation as it issues (R29, R393, R414, R428, R520, R528), in the order of R18. -/
def State.issueFail (s : State) (o : RemoteOp) : Option Nat :=
  let l0 := match s.ctxNumber o.issuer with
    | some n => s.fenced 0 n
    | none => false
  let replay := match o.issuer with
    | .ctx (.cluster _) _ => s.steps.any (fun r => r.replay && r.id == o.step)
    | _ => false
  if !s.fabricUp || !(s.pdOn (44 + (o.die - 22))) || (!o.local_ && !(bitOf (s.routeOf o.dst) 15)) then some stNoUnit
  else if l0 || replay || s.chipFenced then some stFenced
  else if !o.local_ && s.peerDown o.dst then some stPeerReset
  else none

/-- A remote operation issues at an LC tick (R394, R399, R401): it takes its tag and stamp and sends its first attempts,
or completes at once. -/
def State.fabIssue (s : State) (o : RemoteOp) (t0 : Nat) : State :=
  let cn := s.ctxNumber o.issuer
  let d := s.draw
  let key := cn.getD 0
  let seq := s.fabSeq.getD key 0
  let s := match cn with
    | some k => { s with fabSeq := s.fabSeq.put k ((seq + 1) % 2 ^ 20) }
    | none => d.2
  let loc := o.dst == s.nodeId
  let route := s.routeOf o.dst
  let stamp := s.tb2At t0
  let o := { o with
    id := s.nextOp
    tag := s.nodeId % 2 ^ 16 + (match cn with
      | some k => k * 2 ^ 16 + seq * 2 ^ 28
      | none => d.1 % 2 ^ 32 * 2 ^ 16)
    stamp := stamp
    incarn := if loc then s.fld R.lpnNode 22 [] 23 16 else bitsOf (s.peerOf o.dst) 7 0
    t0 := t0, local_ := loc
    die := if loc then homeDie o.addr else 22 + bitsOf route 1 0
    link := bitsOf route 4 2
    pkts := List.replicate o.numPkts { sent := 1, lastLc := t0 } }
  let o := { o with status := s.issueFail o }
  let s := { s with remote := s.remote ++ [o], nextOp := s.nextOp + 1 }
  if o.status.isSome then s
  else (List.range o.numPkts).foldl (fun s j => s.sendReq o j stamp false) s

end Sys2Proof.Machine
end

