-- ==== Sys2Proof/Machine/StreamOps.lean ====
section
/-! DEFINITION. The BCST and STRM slots: streams from scratchpad, weight streams and bias values (R58 to R63, R150 to
R155). -/
namespace Sys2Proof.Machine

/-- The lanes of one row of a unit: 512, or 16 on an Iris core (R37, R121). -/
def rowLanes (u : SeqUnit) : Nat := if u.isIris then 16 else 512

/-- The pieces of node offsets that n bytes of a windowed range cover (R99, R151). -/
def windowPieces (w : Window) (ptr n : Nat) : List (Nat × Nat) :=
  if w.len = 0 then [(ptr, n)]
  else
    let a := min n (w.base + w.len - ptr)
    if n ≤ a then [(ptr, a)] else [(ptr, a), (w.base, min (n - a) w.len)]

/-- Whether every byte of a windowed range lies where the unit reaches (R151, R235). -/
def State.reachPieces (s : State) (u : SeqUnit) (w : Window) (ptr n : Nat) : Bool :=
  (windowPieces w ptr n).all (fun e => s.unitReach u e.1 e.2)

/-- The window a stream holds. -/
def Stream.win (x : Stream) : Window := { base := x.winBase, len := x.winLen }

/-- The stream's pointer after n bytes are delivered (R98, R151). -/
def Stream.advance (x : Stream) (n : Nat) : Stream := { x with ptr := x.win.at x.ptr n }

/-- The open stream of a kind with exactly a mask. -/
def Seq.stream (q : Seq) (k : StreamKind) (mask : Nat) : Option Stream :=
  q.streams.find? (fun x => x.kind == k && x.mask == mask)

/-- Whether an open stream of a kind overlaps a mask (R152). -/
def Seq.overlap (q : Seq) (k : StreamKind) (mask : Nat) : Bool :=
  q.streams.any (fun x => x.kind == k && (x.mask &&& mask) != 0)

/-- The K positions of a chunk over the dense chunk's: the expansion factor of a stream encoding (R176). -/
def sencX (senc : Nat) : Nat := if senc = 1 then 2 else if senc = 2 then 4 else 1

/-- Metadata bytes per lane per chunk (R176). -/
def metaBytes (senc k : Nat) : Nat := if senc = 1 ∨ senc = 2 then k / 4 else 0

/-- The chunks of a reduction length (R52, R179). -/
def chunkCount (t : Tile) (kk k : Nat) : Nat := cdiv kk (sencX t.senc * k)

/-- The bytes of a weight stream with every block present (R60, R182, R184). -/
def wstreamBytes (t : Tile) : Nat :=
  match pairRate t.fa t.fb with
  | none => 0
  | some (k, b) =>
    let data := chunkCount t t.k k * t.n * (b + metaBytes t.senc k)
    if t.senc = 3 then t.k / 64 * 64 + data else data

/-- The checks of an opening operation on a mask: non-zero; in wide-shallow form 0xFF; no open stream of its kind
overlaps (R152). -/
def openMaskBad (q : Seq) (kind : Option StreamKind) (mask : Nat) : Bool :=
  mask == 0 || (q.form && mask != 255) ||
  (match kind with
   | some k => q.overlap k mask
   | none => false)

/-- The checks of a stream's source address (R99, R151): window, alignment to 64 B, map. -/
def State.sourceExc (s : State) (u : SeqUnit) (c : Ctx) (a w : BitVec 4) (n : Nat) : Option Exc :=
  let av := c.ra a
  let wv := c.rw w.toNat
  lowestExc [windowExc wv av, raiseIf (offOf av % 64 != 0) (exRange, av.toNat),
    raiseIf (!(s.isLocal av) || !(s.reachPieces u (windowOf wv) (offOf av) n)) (exMap, av.toNat)]

/-- What a BCST operation raises (R150 to R152). -/
def State.bcstExc (s : State) (u : SeqUnit) (q : Seq) (c : Ctx) : BcstOp → Option Exc
  | .nop => none
  | .bopen mask a _ w =>
    lowestExc [raiseIf (openMaskBad q (some .bcast) mask.toNat) illegal, s.sourceExc u c a w 1]
  | .bscale mask a _ w =>
    lowestExc [raiseIf (openMaskBad q (some .bscale) mask.toNat) illegal, s.sourceExc u c a w 1]
  | .bclose mask => raiseIf (mask == 0) illegal

/-- The bytes that LDBIAS reads: 4 B per lane of the mask (R155). -/
def biasBytes (u : SeqUnit) (mask : Nat) : Nat := popCount mask 8 * rowLanes u * 4

/-- What a STRM operation raises (R63, R150 to R155). -/
def State.strmExc (s : State) (u : SeqUnit) (q : Seq) (c : Ctx) : StrmOp → Option Exc
  | .nop => none
  | .sopen mask a _ w =>
    lowestExc [raiseIf (q.form || openMaskBad q (some .b) mask.toNat) illegal, s.sourceExc u c a w 1]
  | .sscale mask a _ w =>
    lowestExc [raiseIf (q.form || openMaskBad q (some .bscl) mask.toNat) illegal, s.sourceExc u c a w 1]
  | .sclose mask => raiseIf (q.form || mask == 0) illegal
  | .wopen t a _ =>
    let av := c.ra a
    let n := wstreamBytes (tileOf (c.rt t.toNat))
    let inStack := match regionOf (offOf av) with
      | .hbm d o => d == unitDie u && o + n ≤ 0x1000000000
      | _ => false
    lowestExc [raiseIf (u.isIris || !q.form || q.rate == 0 || q.wpend.isSome) illegal,
      raiseIf (offOf av % 64 != 0) (exRange, av.toNat),
      raiseIf (!(s.isLocal av) || !inStack) (exMap, av.toNat)]
  | .wclose => raiseIf (u.isIris || !q.form) illegal
  | .ldbias mask a _ w =>
    lowestExc [raiseIf (openMaskBad q none mask.toNat) illegal, s.sourceExc u c a w (biasBytes u mask.toNat)]

/-- A stream opened at cycle t on the address and window of its operands; data ready 8 cycles later, or 10 on an Iris
core (R105, R121, R151). -/
def openStream (u : SeqUnit) (c : Ctx) (kind : StreamKind) (mask : BitVec 8) (a w : BitVec 4) (t : Nat) : Stream :=
  let win := windowOf (c.rw w.toNat)
  { kind := kind, mask := mask.toNat, ptr := offOf (c.ra a), winBase := win.base, winLen := win.len,
    ready := t + (if u.isIris then 10 else 8) }

/-- The streams of the given kinds that overlap a mask, closed whole (R152). -/
def Seq.closeStreams (q : Seq) (k1 k2 : StreamKind) (mask : Nat) : Seq :=
  { q with streams := q.streams.filter (fun x => !((x.kind == k1 || x.kind == k2) && (x.mask &&& mask) != 0)) }

/-- The post-modification effect of an opening operation (R97, R151). -/
def openPost (c : Ctx) (a m w : BitVec 4) : Nat × Effect :=
  (1, .regA a.toNat (postModify (c.ra a) (c.rm m) (windowOf (c.rw w.toNat))))

/-- A BCST operation's effects with their latencies. -/
def bcstEffects (c : Ctx) : BcstOp → List (Nat × Effect)
  | .bopen _ a m w => [openPost c a m w]
  | .bscale _ a m w => [openPost c a m w]
  | _ => []

/-- A BCST operation's change of the cluster's streams. -/
def bcstUnit (u : SeqUnit) (c : Ctx) (t : Nat) (q : Seq) : BcstOp → Seq
  | .nop => q
  | .bopen mask a _ w => { q with streams := q.streams ++ [openStream u c .bcast mask a w t] }
  | .bscale mask a _ w => { q with streams := q.streams ++ [openStream u c .bscale mask a w t] }
  | .bclose mask => q.closeStreams .bcast .bscale mask.toNat

/-- The bias values that LDBIAS loads, by lane of the joined row (R155). -/
def State.biasCells (s : State) (u : SeqUnit) (c : Ctx) (mask : Nat) (a w : BitVec 4) : List (Nat × BitVec 32) :=
  let win := windowOf (c.rw w.toNat)
  let off := offOf (c.ra a)
  let n := rowLanes u
  (((maskList mask 8).zipIdx).map (fun e => (List.range n).map (fun i =>
    (n * e.1 + i, BitVec.ofNat 32 (leNat ((List.range 4).map (fun b => s.byte (win.at off ((e.2 * n + i) * 4 + b))))))))).flatten

/-- The first word in error of a windowed range. -/
def State.badPieces (s : State) (w : Window) (ptr n : Nat) : Option Nat :=
  (windowPieces w ptr n).findSome? (fun e => s.badIn e.1 e.2)

/-- A STRM operation's effects with their latencies: a bias load that meets an uncorrectable word raises MEMORY_ERROR in
the cycle its values would become visible (R105, R135). -/
def State.strmEffects (s : State) (u : SeqUnit) (c : Ctx) : StrmOp → List (Nat × Effect)
  | .sopen _ a m w => [openPost c a m w]
  | .sscale _ a m w => [openPost c a m w]
  | .wopen _ a m => [(1, .regA a.toNat (c.ra a + c.rm m))]
  | .ldbias mask a m w =>
    let win := windowOf (c.rw w.toNat)
    [openPost c a m w,
     (6, match s.badPieces win (offOf (c.ra a)) (biasBytes u mask.toNat) with
         | some bad => .memError bad
         | none => .bias (s.biasCells u c mask.toNat a w))]
  | _ => []

/-- The reservation F in bytes per lane cycle (R59). -/
def Seq.bytesPerCycle (q : Seq) : Nat := 64 * q.rate

/-- A STRM operation's change of the cluster: a weight stream's first 64 B reach staging 240 cycles after t0, the later
of its issue and the last byte of the port's previous transfer (R61, R106); the port is then busy to the stream's last
byte, as the stream bound gives it until a MAC fixes it. -/
def strmUnit (u : SeqUnit) (c : Ctx) (t : Nat) (q : Seq) : StrmOp → Seq
  | .nop => q
  | .sopen mask a _ w => { q with streams := q.streams ++ [openStream u c .b mask a w t] }
  | .sscale mask a _ w => { q with streams := q.streams ++ [openStream u c .bscl mask a w t] }
  | .sclose mask => q.closeStreams .b .bscl mask.toNat
  | .wopen tt a _ =>
    let tile := c.rt tt.toNat
    let first := max t q.portFree + 240
    { q with
      wpend := some { tile := tile, addr := offOf (c.ra a), first := first, staged := false }
      portFree := first + cdiv (wstreamBytes (tileOf tile)) q.bytesPerCycle - 1 }
  | .wclose => if q.wpend.isSome then { q with wpend := none, portFree := min q.portFree t } else q
  | .ldbias _ _ _ _ => { q with biasReady := t + 6 }

end Sys2Proof.Machine
end

