-- ==== Sys2Proof/Machine/MacOps.lean ====
section
/-! DEFINITION. The MAC slot: lane-row operations in deep and wide-shallow form, their arithmetic, their cycle counts and
the form switch (R51 to R74, R156, R157, R176 to R191). -/
namespace Sys2Proof.Machine

/-! Rates, with the signal profile's own (R50, R121). -/

/-- K elements per lane cycle and B vector bytes for a unit: the pair table, and one complex element of 4 B per signal
cycle on an Iris core. -/
def unitRate (u : SeqUnit) (t : Tile) : Option (Nat × Nat) :=
  if u.isIris then (if t.fa = 7 ∧ t.fb = 7 then some (1, 4) else none) else pairRate t.fa t.fb

/-- The bytes of one broadcast delivery of a dense chunk (R153). -/
def bcastBytes (u : SeqUnit) (t : Tile) : Nat := if u.isIris || t.fa == 0 then 4 else 8

/-- The bytes of one broadcast row of a chunk: x deliveries' worth for a structured encoding (R180). -/
def rowBytes (u : SeqUnit) (t : Tile) : Nat := sencX t.senc * bcastBytes u t

/-- Elements packed little-endian: element i of a byte source (R48). -/
def elemAt (rd : Nat → Byte) (w i : Nat) : Nat :=
  if w = 4 then (if i % 2 = 0 then (rd (i / 2)).toNat % 16 else (rd (i / 2)).toNat / 16)
  else leNat ((List.range (w / 8)).map (fun j => rd (i * (w / 8) + j)))

/-- A chunk that an operation consumes (R186's list Q): its number, where its data begins in the B source, and the column
blocks present (R183). -/
structure Chunk where
  j : Nat
  base : Nat
  present : Option Nat
  deriving DecidableEq, Repr

/-- Where an operation's B operand comes from. -/
structure BSource where
  win : Window
  ptr : Nat
  wide : Bool
  deriving DecidableEq, Repr

/-- A byte of the B source. -/
def State.bByte (s : State) (b : BSource) (pos : Nat) : Byte := s.byte (b.win.at b.ptr pos)

/-- The width of column block c (R183). -/
def colWidth (n c : Nat) : Nat := min 64 (n - 64 * c)

/-- The bytes of one lane cycle's B delivery for every row of a mask (R153). -/
def deliveryBytes (u : SeqUnit) (t : Tile) : Nat := popCount t.rowMask (if u.isIris then 1 else 8) * rowLanes u

/-- The lanes that the present column blocks of a record cover, below a column block (R183, R184). -/
def presentLanes (n mask upto : Nat) : Nat :=
  ((List.range upto).filter (fun c => bitOf mask c)).foldl (fun a c => a + colWidth n c) 0

/-- The chunks of a block-sparse operand, K-block by K-block (R183, R184): empty K-blocks give none. -/
def State.blockChunks (s : State) (u : SeqUnit) (t : Tile) (kk k b : Nat) (src : BSource) : List Chunk :=
  let nb := kk / 64
  let per := 64 / k
  let cols := cdiv t.n 64
  let go := (List.range nb).foldl (fun (acc : List Chunk × Nat) kb =>
    let rec_ := leNat ((List.range 8).map (fun i => s.bByte src (kb * 64 + i))) % 2 ^ cols
    if rec_ = 0 then acc
    else
      let size := if src.wide then presentLanes t.n rec_ cols * b else b * deliveryBytes u t
      (acc.1 ++ (List.range per).map (fun i => Chunk.mk (kb * per + i) (acc.2 + i * size) (some rec_)),
       acc.2 + per * size)) (([] : List Chunk), nb * 64)
  go.1

/-- The chunks that an operation consumes, in ascending order (R52, R186). -/
def State.chunks (s : State) (u : SeqUnit) (t : Tile) (kk k b : Nat) (src : BSource) : List Chunk :=
  if t.senc = 3 then s.blockChunks u t kk k b src
  else
    let size := if src.wide then t.n * (b + metaBytes t.senc k) else (b + metaBytes t.senc k) * deliveryBytes u t
    (List.range (chunkCount t kk k)).map (fun j => Chunk.mk j (j * size) none)

/-- How many K-blocks of a block-sparse operand are empty (R186). -/
def emptyBlocks (t : Tile) (kk k : Nat) (q : List Chunk) : Nat :=
  if t.senc = 3 then kk / 64 - q.length / (64 / k) else 0

/-- A byte of a lane's B vector for a chunk (R153, R154, R182, R184): `n` is the lane's place among the active lanes,
`lane` its place in the joined row, `jr` its row's place in the mask. -/
def bPos (u : SeqUnit) (t : Tile) (b k : Nat) (wide : Bool) (c : Chunk) (n jr i byte_ : Nat) (meta_ : Bool) : Nat :=
  if wide then
    match c.present with
    | some mask => c.base + presentLanes t.n mask (n / 64) * b + n % 64 * b + byte_
    | none => if meta_ then c.base + t.n * b + n * (k / 4) + byte_ else c.base + n * b + byte_
  else c.base + ((if meta_ then b else 0) + byte_) * deliveryBytes u t + jr * rowLanes u + i

/-- Whether a lane's elements are present in a chunk (R183). -/
def lanePresent (c : Chunk) (n : Nat) : Bool :=
  match c.present with
  | none => true
  | some mask => bitOf mask (n / 64)

/-- The K position, within its chunk, of stored value v of a lane (R179). -/
def storedPos (senc v idx : Nat) : Nat :=
  if senc = 1 then 4 * (v / 2) + idx else if senc = 2 then 4 * v + idx else v

/-! One lane cycle of one accumulator entry. -/

/-- The terms of one lane cycle: the pairs of a broadcast element and a stored element, as (K index, a, b); padded
positions carry zeros (R52, R153). -/
abbrev Terms := List (Nat × Nat × Nat)

/-- The scale exponents of a block, by the unbiased E8M0 value; none for 0xFF (R47, R72). -/
def e8m0 (b : Byte) : Option Int := if b = 0xFF then none else some ((b.toNat : Int) - 127)

/-- The scale exponent of one side of a product; an unscaled operand has factor 1. -/
def scaleOf (f : Option (Nat → Byte)) (kIndex : Nat) : Option Int :=
  match f with
  | none => some 0
  | some g => e8m0 (g (kIndex / 32))

/-- A product that is not a zero product, with the flags its operands and scales set (R69 to R72, R75). -/
def product (fa fb : Nat) (ea eb : Option Int) (a b : Nat) : FNum × AFlags :=
  let x := elemNum fa a
  let y := elemNum fb b
  match ea, eb with
  | some p, some q =>
    let r := (x.mul y).scale (p + q)
    (r, flagIf (x.isNaN || y.isNaN) fNANIN ||| flagIf (r.isNaN && !x.isNaN && !y.isNaN) fINV)
  | _, _ => (.nan, fNANIN ||| fMXNAN)

/-- One lane cycle of an FP32 entry: the exact sum of the entry and every product that is not a zero product, rounded
once (R68, R69, R71). -/
def fpCycle (t : Tile) (zskip : Bool) (sa sb : Option (Nat → Byte)) (acc : BitVec 32) (terms : Terms) :
    BitVec 32 × AFlags :=
  let live := terms.filter (fun e => !(zskip && (elemZero t.fa e.2.1 || elemZero t.fb e.2.2)))
  if live.isEmpty then (acc, 0)
  else
    let ps := live.map (fun e => product t.fa t.fb (scaleOf sa e.1) (scaleOf sb e.1) e.2.1 e.2.2)
    let fl := ps.foldl (fun f p => f ||| p.2) (0 : AFlags)
    let accN := fp32Num acc
    let all := accN :: ps.map (·.1)
    let total := FNum.sum all
    if total.isNaN then
      (canonNaN, fl ||| flagIf (!(all.any FNum.isNaN)) fINV)
    else
      let (r, f) := toFP32 total
      (r, fl ||| f)

/-- One lane cycle of an INT32 entry: exact products summed with the entry, saturated (R73). -/
def intCycle (t : Tile) (acc : BitVec 32) (terms : Terms) : BitVec 32 × AFlags :=
  let w (f : Nat) : Nat := fmtBits f
  let v := terms.foldl (fun (a : Int) e => a + sext (w t.fa) e.2.1 * sext (w t.fb) e.2.2) acc.toInt
  let (r, sat) := satInt 32 v
  (BitVec.ofInt 32 r, flagIf sat fISAT)

/-- One lane cycle of a complex pair of entries (R74). -/
def cplxCycle (conj : Bool) (acc : BitVec 32 × BitVec 32) (terms : Terms) : (BitVec 32 × BitVec 32) × AFlags :=
  let go := terms.foldl (fun (p : Int × Int) e =>
    let ar := sext 16 e.2.1
    let ai := if conj then - sext 16 (e.2.1 / 65536) else sext 16 (e.2.1 / 65536)
    let br := sext 16 e.2.2
    let bi := sext 16 (e.2.2 / 65536)
    (p.1 + (ar * br - ai * bi), p.2 + (ar * bi + ai * br))) (acc.1.toInt, acc.2.toInt)
  let (r, f1) := satInt 32 go.1
  let (i, f2) := satInt 32 go.2
  ((BitVec.ofInt 32 r, BitVec.ofInt 32 i), flagIf (f1 || f2) fISAT)

/-! The whole operation. -/

/-- Everything a MAC operation reads at its issue. -/
structure MacCtx where
  u : SeqUnit
  t : Tile
  kk : Nat
  k : Nat
  b : Nat
  src : BSource
  bc : Stream
  bsc : Option Stream
  bs : Option Stream
  q : List Chunk

/-- The broadcast elements of row m of a chunk (R153, R180). -/
def State.bcastElem (s : State) (x : MacCtx) (j m i : Nat) : Nat :=
  let per := rowBytes x.u x.t
  let xk := sencX x.t.senc * x.k
  if j * xk + i ≥ x.kk then 0
  else elemAt (fun p => s.byte (x.bc.win.at x.bc.ptr ((j * x.t.m + m) * per + p))) (fmtBits x.t.fa) i

/-- Whether row m of chunk j is skippable (R186). -/
def State.skippable (s : State) (x : MacCtx) (zskip : Bool) (j m : Nat) : Bool :=
  zskip && (List.range (sencX x.t.senc * x.k)).all (fun i => elemZero x.t.fa (s.bcastElem x j m i))

/-- z_j, the skippable rows of chunk j (R186). -/
def State.zOf (s : State) (x : MacCtx) (zskip : Bool) (j : Nat) : Nat :=
  ((List.range x.t.m).filter (fun m => s.skippable x zskip j m)).length

/-- The terms of a lane for row m of a chunk: every stored value with the broadcast element at its K position
(R52, R179). -/
def State.terms (s : State) (x : MacCtx) (c : Chunk) (n jr i m : Nat) : Terms :=
  let xk := sencX x.t.senc * x.k
  let mb := metaBytes x.t.senc x.k
  let pos (v : Nat) : Nat :=
    if mb = 0 then v
    else
      let byte_ := (s.bByte x.src (bPos x.u x.t x.b x.k x.src.wide c n jr i (v / 4) true)).toNat
      storedPos x.t.senc v (byte_ / 4 ^ (v % 4) % 4)
  (List.range x.k).map (fun v =>
    let p := pos v
    let kIndex := c.j * xk + p
    let bv := if kIndex ≥ x.kk then 0
      else elemAt (fun q => s.bByte x.src (bPos x.u x.t x.b x.k x.src.wide c n jr i q false)) (fmtBits x.t.fb) v
    (kIndex, s.bcastElem x c.j m p, bv))

/-- The initial value of an entry: +0, the lane's bias value (its imaginary part 0 when complex), or what it held
(R66, R155). -/
def initEntry (q : Seq) (t : Tile) (lane entry : Nat) (imag : Bool) : BitVec 32 :=
  match t.init with
  | 0 => 0
  | 1 => if imag then 0 else q.bias.getD lane 0
  | _ => q.acc.getD (accKey lane entry) 0

/-- The scale reader of the broadcast operand for row m: M bytes per block of 32 K elements, in row order (R153). -/
def State.bcastScale (s : State) (x : MacCtx) (m : Nat) : Option (Nat → Byte) :=
  x.bsc.map (fun st => fun blk => s.byte (st.win.at st.ptr (blk * x.t.m + m)))

/-- The scale reader of a lane's stream operand (R153). -/
def State.laneScale (s : State) (x : MacCtx) (jr i : Nat) : Option (Nat → Byte) :=
  x.bs.map (fun st => fun blk => s.byte (st.win.at st.ptr (blk * deliveryBytes x.u x.t + jr * rowLanes x.u + i)))

/-- The values a MAC operation leaves in one lane's entries, with the flags set (R38, R52, R66 to R74). -/
def State.macLane (s : State) (q : Seq) (x : MacCtx) (zskip : Bool) (n lane : Nat) :
    List (Nat × BitVec 32) × AFlags :=
  let per := rowLanes x.u
  let row := lane / per
  let jr := (maskList x.t.rowMask row).length
  let i := lane % per
  let use := x.q.filter (fun c => lanePresent c n)
  (List.range x.t.m).foldl (fun (acc : List (Nat × BitVec 32) × AFlags) m =>
    if x.t.complex then
      let e := x.t.e + 2 * m
      let v0 := (initEntry q x.t lane e false, initEntry q x.t lane (e + 1) true)
      let r := use.foldl (fun (p : (BitVec 32 × BitVec 32) × AFlags) c =>
        let y := cplxCycle x.t.conj p.1 (s.terms x c n jr i m)
        (y.1, p.2 ||| y.2)) (v0, 0)
      (acc.1 ++ [(accKey lane e, r.1.1), (accKey lane (e + 1), r.1.2)], acc.2 ||| r.2)
    else
      let e := x.t.e + m
      let r := use.foldl (fun (p : BitVec 32 × AFlags) c =>
        let ts := s.terms x c n jr i m
        let y := if x.t.intAcc then intCycle x.t p.1 ts
          else fpCycle x.t zskip (s.bcastScale x m) (s.laneScale x jr i) p.1 ts
        (y.1, p.2 ||| y.2)) (initEntry q x.t lane e false, 0)
      (acc.1 ++ [(accKey lane e, r.1)], acc.2 ||| r.2)) ([], 0)

/-- The accumulator cells and flags of a whole operation, over its active lanes (R51, R56, R67). -/
def State.macAll (s : State) (q : Seq) (x : MacCtx) (zskip : Bool) : List (Nat × BitVec 32) × AFlags :=
  (x.t.lanes.zipIdx).foldl (fun acc e =>
    let r := s.macLane q x zskip e.2 e.1
    (acc.1 ++ r.1, acc.2 ||| r.2)) ([], 0)

/-! Cycle counts. -/

/-- u_j of every chunk consumed (R186). -/
def State.uList (s : State) (x : MacCtx) (zskip : Bool) : List Nat := x.q.map (fun c => x.t.m - s.zOf x zskip c.j)

/-- The deep-form occupancy (R188); 2 + K × M on an Iris core (R121). -/
def deepCount (iris : Bool) (kk m r : Nat) (us : List Nat) (empty : Nat) : Nat :=
  if iris then 2 + kk * m
  else if us.isEmpty then 2 + empty else r + (us.map (fun u => max u r)).sum + empty

/-- The dense deep-form count of the same shape (R53). -/
def deepDense (m r kc : Nat) : Nat := r + kc * max m r

/-- The wide-shallow occupancy counted from first staging (R189); `v` and `v1` are the stream bytes in all and to the end
of the first chunk. -/
def wideCount (v v1 f : Nat) (us : List Nat) (empty : Nat) : Nat :=
  if us.isEmpty then 2 + empty else max (cdiv v f + us.getLastD 0) (cdiv v1 f + us.sum + empty)

/-- The dense wide-shallow count of the same shape (R60). -/
def wideDense (kc n b m f : Nat) : Nat := max (cdiv (kc * n * b) f + m) (cdiv (n * b) f + kc * m)

/-- One chunk of the staging and consumption order of R60: what the fold over the chunks carries. `byteT` is the stream's
position in byte-times from first staging, `fin` the lane cycle in which the lanes finished the last chunk, `rel` the
cycles in which the two halves are released. -/
structure WsOrder where
  byteT : Nat
  staged : Nat
  fin : Nat
  rel : Nat × Nat
  deriving DecidableEq, Repr

/-- One chunk staged and consumed (R57, R58, R60): its half is filled once released, `h` chunks to a half; the lanes take
it in the latest of t + 1, the cycle after it is wholly staged, and the cycle after they finished the last one. -/
def wsChunk (s t f h : Nat) (o : WsOrder) (c : Nat × Nat × Nat) : WsOrder :=
  let (i, size, u) := c
  let half := i / h % 2
  let relc := if half = 0 then o.rel.1 else o.rel.2
  let start := if i % h = 0 then max o.byteT ((relc + 1 - s) * f) else o.byteT
  let byteT := start + size
  let staged := s + cdiv byteT f - 1
  let begin_ := max (t + 1) (max (staged + 1) (o.fin + 1))
  let fin := begin_ + u - 1
  { byteT := byteT, staged := staged, fin := fin,
    rel := if half = 0 then (fin, o.rel.2) else (o.rel.1, fin) }

/-- The order of R60 over every chunk, from first staging s, for an operation that issued at t; the sizes of the chunks
and their u_j are given. -/
def wsOrder (s t f h : Nat) (rel : Nat × Nat) (sizes us : List Nat) : WsOrder :=
  ((sizes.zip us).zipIdx.map (fun e => (e.2, e.1.1, e.1.2))).foldl (wsChunk s t f h)
    { byteT := 0, staged := s, fin := 0, rel := rel }

/-- The stream bytes of a chunk that count against F (R189). -/
def chunkBytes (t : Tile) (k b : Nat) (c : Chunk) : Nat :=
  match c.present with
  | some mask => presentLanes t.n mask (cdiv t.n 64) * b
  | none => t.n * (b + metaBytes t.senc k)

/-- The chunks of a staging half (R57, R182). -/
def halfChunks (t : Tile) (k b : Nat) : Nat := 56 / (b + metaBytes t.senc k)

/-! What a MAC operation raises. -/

/-- Whether rows are occupied in cycle t (R55, R104). -/
def Seq.rowsBusy (q : Seq) (rows t : Nat) : Bool :=
  q.macs.any (fun m => t < m.until_ && (m.rows &&& rows) != 0)

/-- Whether two ranges of entries meet. -/
def entriesMeet (a0 a1 b0 b1 : Nat) : Bool := decide (a0 < b1) && decide (b0 < a1)

/-- Whether an entry of the given rows is still being written or read in cycle t: by a MAC until its accumulators are
readable, by a VEC operation until it has read or written them (R55, R157, R159). -/
def Seq.entriesBusy (q : Seq) (rows e0 e1 t : Nat) : Bool :=
  q.macs.any (fun m => t < m.readable && (m.rows &&& rows) != 0 && entriesMeet m.firstEntry m.lastEntry e0 e1) ||
  q.vecs.any (fun v => t < v.visible && (v.rows &&& rows) != 0 && entriesMeet v.firstEntry v.lastEntry e0 e1)

/-- The broadcast bytes per lane cycle of the operations in flight (R181). -/
def Seq.bcastInUse (q : Seq) (t : Nat) : Nat :=
  (q.macs.filter (fun m => t < m.until_)).foldl (fun a m => a + m.bcastBytes) 0

/-- The stream's open stream with the tile's mask, and whether its data is not ready in cycle t (R107). -/
def streamLate (x : Option Stream) (t : Nat) : Bool :=
  match x with
  | none => true
  | some st => t < st.ready

/-- Whether the pending weight stream agrees with the MAC's tile (R154). -/
def wTileAgrees (w : WStream) (t : Tile) (kk : Nat) : Bool :=
  let o := tileOf w.tile
  o.k == kk && o.n == t.n && o.fb == t.fb && o.senc == t.senc

/-- The reading context of a MAC operation with K elements, where its streams are open. -/
def State.macCtx (s : State) (u : SeqUnit) (q : Seq) (t : Tile) (kk : Nat) : Option MacCtx :=
  match unitRate u t, q.stream .bcast t.rowMask with
  | some (k, b), some bc =>
    let src : BSource :=
      if t.wide then
        match q.wpend with
        | some w => { win := { base := 0, len := 0 }, ptr := w.addr, wide := true }
        | none => { win := { base := 0, len := 0 }, ptr := 0, wide := true }
      else
        match q.stream .b t.rowMask with
        | some st => { win := st.win, ptr := st.ptr, wide := false }
        | none => { win := { base := 0, len := 0 }, ptr := 0, wide := false }
    some { u := u, t := t, kk := kk, k := k, b := b, src := src, bc := bc,
           bsc := if fmtIsMX t.fa then q.stream .bscale t.rowMask else none,
           bs := if fmtIsMX t.fb then q.stream .bscl t.rowMask else none,
           q := if kk = 0 then [] else s.chunks u t kk k b src }
  | _, _ => none

/-- The bytes of the B stream that a deep-form operation consumes, with every K-block present when `full` (R151). -/
def bStreamBytes (u : SeqUnit) (t : Tile) (kk k b : Nat) (full : Bool) (chunks : Nat) : Nat :=
  let per := (b + metaBytes t.senc k) * deliveryBytes u t
  let n := if full then chunkCount t kk k else chunks
  (if t.senc = 3 then kk / 64 * 64 else 0) + n * per

/-- The bytes of the broadcast stream that an operation consumes (R153, R187). -/
def bcastStreamBytes (u : SeqUnit) (t : Tile) (kk k : Nat) : Nat := chunkCount t kk k * t.m * rowBytes u t

/-- The rules of R157 that raise the illegal-operation exception for a MAC operation with K elements issued in cycle
t. -/
def macIllegal (u : SeqUnit) (q : Seq) (t : Tile) (kk cyc : Nat) : Bool :=
  let rows := t.rowMask
  let mx := fmtIsMX t.fa || fmtIsMX t.fb
  tileBad u.isIris q.form t || (unitRate u t).isNone ||
  (kk != 0 && t.senc != 0 && (t.fa == 0 || t.fa == 7)) ||
  (match unitRate u t with
   | some (k, _) => kk != 0 && (if t.senc = 3 then kk % 64 != 0 else t.senc != 0 && kk % (sencX t.senc * k) != 0)
   | none => false) ||
  decide (cyc < q.formUntil) ||
  q.rowsBusy rows cyc || q.entriesBusy rows t.e (t.e + t.entries) cyc ||
  (t.wide && q.macs.any (fun m => cyc < m.until_)) ||
  (kk != 0 && q.bcastInUse cyc + rowBytes u t > 64) ||
  (q.stream .bcast rows).isNone ||
  (kk != 0 && streamLate (q.stream .bcast rows) cyc) ||
  (t.init == 1 && decide (cyc < q.biasReady)) ||
  (kk != 0 && !t.wide && streamLate (q.stream .b rows) cyc) ||
  (kk != 0 && fmtIsMX t.fa && streamLate (q.stream .bscale rows) cyc) ||
  (kk != 0 && fmtIsMX t.fb && streamLate (q.stream .bscl rows) cyc) ||
  (kk == 0 && mx && ((fmtIsMX t.fa && (q.stream .bscale rows).isNone) ||
    (fmtIsMX t.fb && (q.stream .bscl rows).isNone))) ||
  (kk != 0 && t.wide && (q.rate == 0 ||
    (match q.wpend with
     | none => true
     | some w => !(wTileAgrees w t kk))))

/-- What a MAC operation with K elements raises: R157's list, then ADDRESS_MAP for a delivery outside the regions its
streams may reach (R151). -/
def State.macExc (s : State) (u : SeqUnit) (q : Seq) (t : Tile) (kk cyc : Nat) : Option Exc :=
  if macIllegal u q t kk cyc then some illegal
  else if kk = 0 then none
  else
    match unitRate u t with
    | none => some illegal
    | some (k, b) =>
      let chk (st : Option Stream) (n : Nat) : Option Exc :=
        match st with
        | none => none
        | some x => raiseIf (!(s.reachPieces u x.win x.ptr n)) (exMap, s.globalAddr x.ptr)
      let blocks := cdiv kk 32
      lowestExc [chk (q.stream .bcast t.rowMask) (bcastStreamBytes u t kk k),
        if t.wide then none else chk (q.stream .b t.rowMask) (bStreamBytes u t kk k b true 0),
        if fmtIsMX t.fa then chk (q.stream .bscale t.rowMask) (blocks * t.m) else none,
        if fmtIsMX t.fb then chk (q.stream .bscl t.rowMask) (blocks * deliveryBytes u t) else none]

/-- The tile and K of a MAC operation (R156): MMAK takes K from Sk. -/
def macTile (c : Ctx) : MacOp → Option (Tile × Nat)
  | .mma t => let x := tileOf (c.rt t.toNat); some (x, x.k)
  | .mmak t sk => some (tileOf (c.rt t.toNat), (c.rs sk).toNat % 2 ^ 24)
  | _ => none

/-- What a MAC slot operation raises (R64, R94, R156, R157, R175). -/
def State.macSlotExc (s : State) (u : SeqUnit) (q : Seq) (c : Ctx) (cyc : Nat) : MacOp → Option Exc
  | .nop => none
  | .formsw _ => raiseIf (u.isIris || q.macs.any (fun m => decide (cyc < m.readable)) ||
      decide (cyc < q.formUntil)) illegal
  | .mma t => let x := tileOf (c.rt t.toNat); s.macExc u q x x.k cyc
  | .mmak t sk =>
    if (c.rs sk).toNat ≥ 2 ^ 24 then some illegal
    else s.macExc u q (tileOf (c.rt t.toNat)) ((c.rs sk).toNat % 2 ^ 24) cyc

/-! What a MAC operation does. -/

/-- The end of a MAC operation's occupancy, the dense count and the actual one, and for a wide operation the order that
fixes when its stream ends and its halves come free (R53, R60, R66, R121, R188, R189). -/
structure MacTiming where
  until_ : Nat
  count : Nat
  dense : Nat
  order : Option WsOrder
  starts : List Nat
  deriving DecidableEq, Repr

/-- The first lane cycles of the chunks of a deep-form operation (R53). -/
def deepStarts (first r : Nat) : List Nat → List Nat
  | [] => []
  | u :: t => first :: deepStarts (first + max u r) r t

/-- The timing of an operation that issues in cycle t. -/
def State.macTiming (s : State) (q : Seq) (x : MacCtx) (zskip : Bool) (t : Nat) : MacTiming :=
  if x.kk = 0 then { until_ := t + 2, count := 2, dense := 2, order := none, starts := [] }
  else
    let us := s.uList x zskip
    let empty := emptyBlocks x.t x.kk x.k x.q
    let kcDense := cdiv x.kk x.k
    if x.t.wide then
      let f := q.bytesPerCycle
      let first := (q.wpend.map (·.first)).getD t
      let sizes := x.q.map (chunkBytes x.t x.k x.b)
      let o := wsOrder first t f (halfChunks x.t x.k x.b) q.halfFree sizes us
      let dense := wideDense kcDense x.t.n x.b x.t.m f
      let c := wideCount sizes.sum (sizes.headD 0) f us empty
      let until_ := if t < first || us.isEmpty then max (first + c - 1) (t + 1) else o.fin + empty
      { until_ := until_, count := until_ + 1 - first, dense := dense, order := some o, starts := [] }
    else
      let c := deepCount x.u.isIris x.kk x.t.m x.b us empty
      { until_ := t + c, count := c, dense := if x.u.isIris then c else deepDense x.t.m x.b kcDense, order := none,
        starts := deepStarts (t + 1 + x.b) x.b us }

/-- The first uncorrectable word an operation would consume, and the cycle of its use: its chunk's first lane cycle
(R135). -/
def State.macBad (s : State) (x : MacCtx) (tm : MacTiming) (t : Nat) : Option (Nat × Nat) :=
  if x.kk = 0 then none
  else
    let per := x.t.m * rowBytes x.u x.t
    let startOf (i : Nat) : Nat := tm.starts.getD i (max (t + 1) (min tm.until_ (t + 1 + i)))
    let bc := (x.q.zipIdx).findSome? (fun e =>
      (s.badPieces x.bc.win (x.bc.win.at x.bc.ptr (e.1.j * per)) per).map (fun w => (startOf e.2, w)))
    let bb := (x.q.zipIdx).findSome? (fun e =>
      let n := if x.src.wide then chunkBytes x.t x.k x.b e.1
        else (x.b + metaBytes x.t.senc x.k) * deliveryBytes x.u x.t
      (s.badPieces x.src.win (x.src.win.at x.src.ptr e.1.base) n).map (fun w => (startOf e.2, w)))
    match bc, bb with
    | some a, some b => if b.1 < a.1 then some b else some a
    | some a, none => some a
    | none, y => y

/-- The cycles from the end of occupancy to readable accumulators: 5, or 4 on an Iris core; 5 for K = 0 gives t + 7
(R54, R105, R121). -/
def readLag (u : SeqUnit) : Nat := if u.isIris then 4 else 5

/-- The effects of a lane-row operation with their latencies (R105, R191): the entries and flags, and the completion
counted on token 63, in the cycle in which the accumulators become readable; a word in error instead raises MEMORY_ERROR
where a row would consume it. -/
def State.macEffects (s : State) (q : Seq) (c : Ctx) (x : MacCtx) (t : Nat) : List (Nat × Effect) :=
  let zskip := c.arith.getLsbD 0 && !x.u.isIris
  let tm := s.macTiming q x zskip t
  let lat := tm.until_ + readLag x.u - t
  match s.macBad x tm t with
  | some (at_, w) => [(at_ - t, .memError w)]
  | none =>
    let r := s.macAll q x zskip
    [(lat, .mac r.1 r.2 (!x.u.isIris))]

/-- The cluster after a lane-row operation issues: its rows and entries are held, its streams have advanced, the weight
stream is bound, and the sparsity counters have counted (R54, R55, R151, R154, R209). -/
def State.macUnit (s : State) (q0 : Seq) (c : Ctx) (x : MacCtx) (t : Nat) (q : Seq) : Seq :=
  let zskip := c.arith.getLsbD 0 && !x.u.isIris
  let tm := s.macTiming q0 x zskip t
  let z := ((x.q.map (fun ch => s.zOf x zskip ch.j))).sum
  let live := q.macs.filter (fun m => decide (t < m.readable))
  let busy : MacBusy :=
    { rows := x.t.rowMask, firstEntry := x.t.e, lastEntry := x.t.e + x.t.entries,
      bcastBytes := if x.kk = 0 then 0 else rowBytes x.u x.t, until_ := tm.until_,
      readable := tm.until_ + readLag x.u }
  let nb := if x.kk = 0 then 0 else bcastStreamBytes x.u x.t x.kk x.k
  let blocks := if x.kk = 0 then 0 else cdiv x.kk 32
  let adv (st : Stream) : Stream :=
    if st.mask ≠ x.t.rowMask then st
    else match st.kind with
      | .bcast => st.advance nb
      | .bscale => if fmtIsMX x.t.fa then st.advance (blocks * x.t.m) else st
      | .b => if x.t.wide || x.kk == 0 then st
          else st.advance (bStreamBytes x.u x.t x.kk x.k x.b false x.q.length)
      | .bscl => if fmtIsMX x.t.fb then st.advance (blocks * deliveryBytes x.u x.t) else st
  let q := { q with
    macs := live ++ [busy], streams := q.streams.map adv,
    zskipRows := q.zskipRows + z, savedCyc := q.savedCyc + (tm.dense - tm.count) }
  match tm.order with
  | none => q
  | some o => { q with
      wpend := none, halfFree := o.rel,
      portFree := if x.q.isEmpty then q.portFree else max q.portFree o.staged }

/-- The most words of one bank among a list of words of the interleaved array, less one (R214). -/
def State.bankExtra (s : State) (ws : List Nat) : Nat :=
  let bs := ws.filterMap (fun a => match regionOf a with
    | .sp d o => some (bankOf (s.groupWide d) o)
    | _ => none)
  (bs.foldl (fun m b => max m (bs.count b)) 0) - 1

/-- The lane cycles that the B and scale deliveries of an operation freeze the cluster by meeting themselves in a bank
(R117, R214). -/
def State.macFreeze (s : State) (x : MacCtx) : Nat :=
  if x.src.wide then 0
  else
    let n := deliveryBytes x.u x.t
    let wordsOf (w : Window) (ptr pos : Nat) : List Nat :=
      ((windowPieces w (w.at ptr pos) n).map (fun p => words64 p.1 p.2)).flatten
    let per := x.b + metaBytes x.t.senc x.k
    let bd := (x.q.map (fun c => ((List.range per).map (fun p =>
      s.bankExtra (wordsOf x.src.win x.src.ptr (c.base + p * n)))).sum)).sum
    let sd := match x.bs with
      | none => 0
      | some st => ((List.range (cdiv x.kk 32)).map (fun b => s.bankExtra (wordsOf st.win st.ptr (b * n)))).sum
    bd + sd

/-- A form switch (R64): it takes 4 cycles; on entering wide-shallow form the values of entries 4 to 31 are discarded, on
leaving it the weight stream is closed and those entries read +0. -/
def formSwitch (q : Seq) (wide : Bool) (t : Nat) : Seq :=
  if q.form = wide then { q with formUntil := t + 4 }
  else { q with
    form := wide, formUntil := t + 4, halfFree := (0, 0), wpend := none,
    acc := q.acc.keep (fun k => decide (k % 32 < 4)) }

end Sys2Proof.Machine
end

