-- ==== Sys2Proof/Machine/VecOps.lean ====
section
/-! DEFINITION. The VEC slot: scaling, bias, activation and narrowing, block normalisation and exponents, predicate
reductions and their stores (R75 to R78, R158 to R168, R205). -/
namespace Sys2Proof.Machine

/-- The 32-bit value of an entry of a lane. -/
def Seq.entry (q : Seq) (lane e : Nat) : BitVec 32 := q.acc.getD (accKey lane e) 0

/-- The tile of a VEC operation. -/
def vecTile (c : Ctx) : VecOp → Option Tile
  | .nop => none
  | .vpost t .. => some (tileOf (c.rt t.toNat))
  | .vnorm t .. => some (tileOf (c.rt t.toNat))
  | .vbfp t .. => some (tileOf (c.rt t.toNat))
  | .vmaxe t .. => some (tileOf (c.rt t.toNat))
  | .vred t .. => some (tileOf (c.rt t.toNat))

/-- The latency of a VEC operation after its last entry (R105, R158). -/
def vecLatency : VecOp → Nat
  | .vpost _ _ _ _ act _ _ _ _ _ => if actIsTable act.toNat then 8 else 4
  | .vmaxe .. => 6
  | .vred .. => 6
  | _ => 4

/-- The element width in bits of a DFMT code, per stored value (R162). -/
def dfmtBits (cplx : Bool) (f : Nat) : Nat :=
  if f = 0xC then (if cplx then 64 else 32) else if f = 7 then 32 else fmtBits f

/-- Whether a DFMT code suits the accumulator (R162). -/
def dfmtOk (t : Tile) (f : Nat) (plain : Bool) : Bool :=
  if t.complex then f == 7 || (f == 0xC && plain)
  else if t.intAcc then decide (f ≤ 6) || (f == 0xC && plain)
  else decide (f ≤ 6) || decide (8 ≤ f ∧ f ≤ 0xB)

/-- The lanes of a block of active lanes. -/
def blocksOf (n : Nat) : Nat → List Nat → List (List Nat)
  | 0, _ => []
  | _, [] => []
  | f + 1, l => l.take n :: blocksOf n f (l.drop n)

/-- The active lanes in blocks of 16 (BLK 0) or 32 (BLK 1) (R165). -/
def laneBlocks (t : Tile) (blk : Bool) : List (List Nat) :=
  blocksOf (if blk then 32 else 16) t.lanes.length t.lanes

/-- Bits packed least significant first into whole bytes (R163, R166). -/
def packBits (w : Nat) (vs : List Nat) : List Byte :=
  let v := (vs.zipIdx).foldl (fun a e => a + e.1 % 2 ^ w * 2 ^ (w * e.2)) 0
  leBytes (cdiv (w * vs.length) 8) v

/-- The output rows of a tile: the first entry of each, and the entries it holds. -/
def Tile.outRows (t : Tile) : List (List Nat) :=
  (List.range t.m).map (fun m => if t.complex then [t.e + 2 * m, t.e + 2 * m + 1] else [t.e + m])

/-- The bytes of stored rows as writes through a window (R99, R163): each at a stride P, wrapped at the window's end. -/
def windowWrites (w : Window) (ptr : Nat) : Nat → Nat → List Byte → List (Nat × List Byte)
  | 0, _, _ => []
  | fuel + 1, pos, bs =>
    if bs.isEmpty then []
    else
      let off := w.at ptr pos
      if w.len = 0 then [(off, bs)]
      else
        let room := w.base + w.len - off
        (off, bs.take room) :: windowWrites w ptr fuel (pos + room) (bs.drop room)

/-- The stride P of stored rows of a byte count (R163). -/
def strideOf (n : Nat) : Nat := roundUp n 64

/-- Rows laid out at stride P from a pointer. -/
def rowWrites (w : Window) (ptr : Nat) (rows : List (List Byte)) : List (Nat × List Byte) :=
  ((rows.zipIdx).map (fun e => windowWrites w ptr (e.1.length + 1) (e.2 * strideOf e.1.length) e.1)).flatten

/-! VPOST (R160 to R164). -/

/-- The scale step: x × Ss, rounded to nearest even, with a product's flags (R160). -/
def scaleStep (x ss : BitVec 32) : BitVec 32 × AFlags :=
  let a := fp32Num x
  let b := fp32Num ss
  let p := a.mul b
  if a.isNaN || b.isNaN then (canonNaN, fNANIN)
  else if p.isNaN then (canonNaN, fINV)
  else toFP32 p

/-- The bias step: x + bias, rounded to nearest even, with a sum's flags (R160); the bias of an integer accumulator is
read as INT32 (R155). -/
def biasStep (int : Bool) (x b : BitVec 32) : BitVec 32 × AFlags :=
  let a := fp32Num x
  let c := if int then intNum b.toInt else fp32Num b
  let r := FNum.sum [a, c]
  if a.isNaN || c.isNaN then (canonNaN, fNANIN)
  else if r.isNaN then (canonNaN, fINV)
  else toFP32 r

/-- What VPOST does to one value before narrowing, in FP32 (R160). -/
def postValue (int imag : Bool) (sc : Bool) (ss : BitVec 32) (bias : Option (BitVec 32)) (act : Nat) (x : BitVec 32) :
    BitVec 32 × AFlags :=
  let x0 := if int then intToFP32 x.toInt else x
  let (x1, f1) := if sc then scaleStep x0 ss else (x0, 0)
  let (x2, f2) := match bias with
    | some b => biasStep int x1 (if imag then 0 else b)
    | none => (x1, 0)
  let (x3, f3) := if act = 0 then (x2, 0) else activate act x2
  (x3, f1 ||| f2 ||| f3)

/-- The operands of a VPOST. -/
structure Post where
  sc : Bool
  ss : BitVec 32
  bias : Bool
  act : Nat
  dfmt : Nat
  policy : Bool × Bool
  stoch : Bool
  draw0 : Nat

/-- Whether VPOST works on an integer accumulator without an FP32 step (R160, R162). -/
def Post.direct (p : Post) (t : Tile) : Bool := t.intAcc && !p.sc && !p.bias && p.act == 0 && (p.dfmt == 5 ||
  p.dfmt == 6 || p.dfmt == 7 || p.dfmt == 0xC)

/-- The rounding of the i-th value that a VPOST narrows (R76, R77). -/
def Post.round (p : Post) (i : Nat) : RoundMode := if p.stoch then .stoch (Config.freeValue (p.draw0 + i)) else .nearest

/-- One value through VPOST to the bits of its element, MX formats apart; `i` numbers the value among those of the
operation (R160, R162). -/
def Post.value (p : Post) (t : Tile) (q : Seq) (lane e i : Nat) : Nat × AFlags :=
  let x := q.entry lane e
  let imag := t.complex && (e - t.e) % 2 == 1
  if p.direct t then
    if p.dfmt = 0xC then (x.toNat, 0)
    else
      let w := if p.dfmt = 7 then 16 else fmtBits p.dfmt
      let (r, sat) := satInt w x.toInt
      (wrapInt w r, flagIf sat fNSAT)
  else
    let (y, f) := postValue t.intAcc imag p.sc p.ss (if p.bias then some (q.bias.getD lane 0) else none) p.act x
    if p.dfmt = 7 then
      let (v, g) := narrowInt 16 (p.round i) (fp32Num y)
      (v, f ||| g)
    else if p.dfmt = 0 then (y.toNat, f)
    else
      let (v, g) := narrowTo p.dfmt { e4m3Ovf := p.policy.1, e5m2Ovf := p.policy.2, round := p.round i } (fp32Num y)
      (v, f ||| g)

/-- emax of an MX element format (R164). -/
def mxEmax (f : Nat) : Int := if f = 8 then 8 else if f = 9 then 15 else if f = 10 then 2 else 0

/-- The scale byte and elements of one MX block (R164); `i0` numbers its first value. -/
def Post.mxBlock (p : Post) (t : Tile) (q : Seq) (e i0 : Nat) (lanes : List Nat) : Nat × List Nat × AFlags :=
  let ys := lanes.map (fun l => postValue t.intAcc false p.sc p.ss (if p.bias then some (q.bias.getD l 0) else none)
    p.act (q.entry l e))
  let fl := ys.foldl (fun f y => f ||| y.2) (0 : AFlags)
  let nums := ys.map (fun y => fp32Num y.1)
  let bad := nums.any (fun x => match x with
    | .fin _ _ _ => false
    | _ => true)
  let top := nums.foldl (fun (m : Option Int) x => match x with
    | .fin _ k ex => if k = 0 then m else
        let l := floorLog2 k ex
        match m with
        | none => some l
        | some b => some (if b < l then l else b)
    | _ => m) none
  if bad then (0xFF, lanes.map (fun _ => 0), fl)
  else match top with
    | none => (0x00, lanes.map (fun _ => 0), fl)
    | some l =>
      let x0 := l - mxEmax p.dfmt
      let sx : Int := if x0 < -127 then -127 else if 127 < x0 then 127 else x0
      let es := (nums.zipIdx).map (fun z =>
        narrowTo p.dfmt { e4m3Ovf := p.policy.1, e5m2Ovf := p.policy.2, round := p.round (i0 + z.2) } (z.1.scale (-sx)))
      ((sx + 127).toNat, es.map (·.1), es.foldl (fun f y => f ||| y.2) fl)

/-- The bytes of one stored output row, with its flags (R163, R164). -/
def Post.row (p : Post) (t : Tile) (q : Seq) (r : List Nat) (ri : Nat) : List Byte × AFlags :=
  let lanes := t.lanes
  let n := lanes.length
  if 8 ≤ p.dfmt ∧ p.dfmt ≤ 0xB then
    let bl := (blocksOf 32 n lanes).zipIdx.map (fun z => p.mxBlock t q (r.headD 0) (ri * n + 32 * z.2) z.1)
    (packBits (fmtBits p.dfmt) ((bl.map (fun b => b.2.1)).flatten) ++ bl.map (fun b => BitVec.ofNat 8 b.1),
     bl.foldl (fun f b => f ||| b.2.2) 0)
  else
    let w := dfmtBits t.complex p.dfmt / r.length
    let vs := ((lanes.zipIdx).map (fun z =>
      (r.zipIdx).map (fun y => p.value t q z.1 y.1 ((ri * n + z.2) * r.length + y.2)))).flatten
    (packBits w (vs.map (·.1)), vs.foldl (fun f v => f ||| v.2) 0)

/-- The entries that a VPOST with ST = 0 writes back, with its flags (R160). -/
def Post.back (p : Post) (t : Tile) (q : Seq) : List (Nat × BitVec 32) × AFlags :=
  let es := (t.outRows).flatten
  let vs := ((t.lanes.zipIdx).map (fun z => (es.zipIdx).map (fun y =>
    (accKey z.1 y.1, p.value t q z.1 y.1 (z.2 * es.length + y.2))))).flatten
  (vs.map (fun v => (v.1, BitVec.ofNat 32 v.2.1)), vs.foldl (fun f v => f ||| v.2.2) 0)

/-! Block operations (R165 to R167). -/

/-- The redundant sign bits of a 32-bit value, 0 to 31 (R165). -/
def redundantSign (x : BitVec 32) : Nat :=
  let v := if x.toInt < 0 then (~~~ x).toNat else x.toNat
  if v = 0 then 31 else 30 - v.log2

/-- s of a block of lanes over the entries of an output row (R165). -/
def blockShift (q : Seq) (r lanes : List Nat) : Nat :=
  ((lanes.map (fun l => r.map (fun e => redundantSign (q.entry l e)))).flatten).foldl min 31

/-- The mantissa width of a WC code (R166). -/
def wcWidth (wc : Nat) : Nat := if wc = 0 then 9 else if wc = 1 then 12 else if wc = 2 then 14 else 16

/-- The mantissa of x under an exponent: rounded, shifted and saturated to w signed bits (R166). -/
def bfpMantissa (w ex : Nat) (x : Int) : Nat :=
  let y := if ex = 0 then x else (x + 2 ^ (ex - 1)) / 2 ^ ex
  wrapInt w (satInt w y).1

/-- One stored block of VBFP: the exponent byte, then the mantissas (R166). -/
def bfpBlock (q : Seq) (w : Nat) (r lanes : List Nat) : List Byte :=
  let s := blockShift q r lanes
  let ex := 32 - s - w
  BitVec.ofNat 8 ex :: packBits w ((lanes.map (fun l => r.map (fun e => bfpMantissa w ex (q.entry l e).toInt))).flatten)

/-- The largest biased exponent field of a block of FP32 values (R167). -/
def maxExponent (q : Seq) (e : Nat) (lanes : List Nat) : Nat :=
  (lanes.map (fun l => getField (q.entry l e) 30 23)).foldl max 0

/-! VRED (R168, R205). -/

/-- The largest of a list of numbers that are not NaN. -/
def maxNum : List FNum → Option FNum
  | [] => none
  | x :: t => match maxNum t with
    | none => some x
    | some y => some (if x.lt y then y else x)

/-- A list without the first instance of a value equal to one given. -/
def dropOne (x : FNum) : List FNum → List FNum
  | [] => []
  | y :: t => if x.eqv y then t else y :: dropOne x t

/-- The early-exit tests on one entry of FP32 values (R205). -/
def earlyFp (kind : Nat) (ss : BitVec 64) (vs : List (BitVec 32)) : Bool :=
  let ns := vs.map fp32Num
  let lim := fp32Num (ss.extractLsb' 0 32)
  if ns.any FNum.isNaN then false
  else match maxNum ns with
    | none => false
    | some top =>
      match kind with
      | 4 => top.ge lim
      | 5 =>
        if lim.isNaN then false
        else match maxNum (dropOne top ns) with
          | none => true
          | some second =>
            match top, second with
            | .inf a, .inf b => if a == b then false else true
            | .inf _, _ => true
            | _, .inf _ => true
            | .fin s m e, .fin t n f => (FNum.sum [.fin s m e, .fin (!t) n f]).ge lim
            | _, _ => false
      | 6 => (ns.findIdx? (fun x => x.eqv top)) == some (getField ss 12 0)
      | _ =>
        let sum := vs.foldl (fun (a : Option (BitVec 32)) v => match a with
          | none => some v
          | some x => some (toFP32 (FNum.sum [fp32Num x, fp32Num v])).1) none
        match sum with
        | none => false
        | some x => (fp32Num x).ge lim

/-- The early-exit tests on one entry of INT32 values (R205). -/
def earlyInt (kind : Nat) (ss : BitVec 64) (vs : List (BitVec 32)) : Bool :=
  let ns := vs.map BitVec.toInt
  let lim := (ss.extractLsb' 0 32).toInt
  match ns.max? with
  | none => false
  | some top =>
    match kind with
    | 4 => decide (top ≥ lim)
    | 5 => match (ns.erase top).max? with
      | none => true
      | some second => decide ((satInt 32 (top - second)).1 ≥ lim)
    | _ => (ns.findIdx? (fun x => x == top)) == some (getField ss 12 0)

/-- The predicate that VRED writes (R168, R205). -/
def vredValue (q : Seq) (t : Tile) (kind : Nat) (ss : BitVec 64) : Bool :=
  let es := (t.outRows).flatten
  let vals (e : Nat) : List (BitVec 32) := t.lanes.map (fun l => q.entry l e)
  let all := (es.map vals).flatten
  let lim := fp32Num (ss.extractLsb' 0 32)
  let ilim := (ss.extractLsb' 0 32).toInt
  match kind with
  | 0 => if t.intAcc then all.any (fun x => x == 0) else all.any (fun x => (fp32Num x).isZero)
  | 1 => if t.intAcc then all.all (fun x => decide ((x.toInt.natAbs : Int) < ilim))
      else all.all (fun x => !(fp32Num x).isNaN && !lim.isNaN && (fp32Num x).abs.lt lim)
  | 2 => if t.intAcc then false else all.any (fun x => (fp32Num x).isNaN)
  | 3 => if t.intAcc then all.any (fun x => decide (x.toInt ≥ ilim)) else all.any (fun x => (fp32Num x).ge lim)
  | k => es.all (fun e => if t.intAcc then earlyInt k ss (vals e) else earlyFp k ss (vals e))

/-! What a VEC operation raises and does. -/

/-- The bytes that a storing operation reaches from its address: the last row ends it (R163). -/
def vecStoreBytes (t : Tile) : VecOp → Nat
  | .vpost _ _ _ _ _ dfmt _ _ _ _ =>
    let n := t.n
    let w := dfmtBits t.complex dfmt.toNat
    let per := cdiv (n * w) 8 + (if 8 ≤ dfmt.toNat ∧ dfmt.toNat ≤ 0xB then cdiv n 32 else 0)
    (t.m - 1) * strideOf per + per
  | .vnorm _ blk _ _ _ _ =>
    let per := cdiv t.n (if blk then 32 else 16)
    (t.m - 1) * strideOf per + per
  | .vbfp _ blk wc _ _ _ _ =>
    let w := wcWidth wc.toNat
    let per := ((laneBlocks t blk).map (fun l => 1 + cdiv (w * l.length * (if t.complex then 2 else 1)) 8)).sum
    (t.m - 1) * strideOf per + per
  | .vmaxe _ blk _ _ _ _ =>
    let per := cdiv t.n (if blk then 32 else 16)
    (t.m - 1) * strideOf per + per
  | _ => 0

/-- The address operands of a storing operation. -/
def vecStore : VecOp → Option (BitVec 4 × BitVec 4 × BitVec 4)
  | .vpost _ _ _ _ _ _ st a m w => if st then some (a, m, w) else none
  | .vnorm _ _ st a m w => if st then some (a, m, w) else none
  | .vbfp _ _ _ _ a m w => some (a, m, w)
  | .vmaxe _ _ _ a m w => some (a, m, w)
  | _ => none

/-- The rules of a VEC operation that raise the illegal-operation exception, apart from the unit's own state (R129, R158
to R168, R205). -/
def vecOpBad (t : Tile) : VecOp → Bool
  | .vpost _ sc _ bias act dfmt st _ _ _ =>
    decide (sc.toNat ≥ 2) || decide (act.toNat ≥ 0xA) ||
    !(dfmtOk t dfmt.toNat (sc == 0 && !bias && act == 0)) || (!st && dfmt != 0 && dfmt != 0xC)
  | .vnorm .. => !t.intAcc
  | .vbfp _ _ _ st _ _ _ => !st || !t.intAcc
  | .vmaxe _ _ st _ _ _ => !st || t.intAcc
  | .vred _ pd kind _ => pd == 0 || decide (kind.toNat ≥ 8) ||
    (kind == 7 && t.intAcc) || (decide (4 ≤ kind.toNat) && t.complex)
  | .nop => false

/-- What a VEC operation raises (R94, R131, R158 to R163). -/
def State.vecExc (s : State) (u : SeqUnit) (q : Seq) (c : Ctx) (cyc : Nat) (op : VecOp) : Option Exc :=
  match vecTile c op with
  | none => none
  | some t =>
    let unreadable := q.macs.any (fun m => decide (cyc < m.readable) && (m.rows &&& t.rowMask) != 0 &&
      entriesMeet m.firstEntry m.lastEntry t.e (t.e + t.entries))
    let ill := tileBad u.isIris q.form t || vecOpBad t op || decide (cyc < q.vecUntil) || unreadable
    let mem : List (Option Exc) := match vecStore op with
      | none => []
      | some (a, _, w) =>
        let av := c.ra a
        let wv := c.rw w.toNat
        [windowExc wv av, raiseIf (offOf av % 64 != 0) (exRange, av.toNat),
         raiseIf (!(s.isLocal av) || !(s.reachPieces u (windowOf wv) (offOf av) (vecStoreBytes t op))) (exMap, av.toNat)]
    lowestExc (raiseIf ill illegal :: mem)

/-- The VPOST operands as the context gives them (R76, R160). -/
def postOf (s : State) (q : Seq) (c : Ctx) (sc : BitVec 2) (ss : BitVec 5) (bias : Bool) (act dfmt : BitVec 4) : Post :=
  { sc := sc == 1, ss := (c.rs ss).extractLsb' 0 32, bias := bias, act := act.toNat, dfmt := dfmt.toNat,
    policy := (c.arith.getLsbD 3, c.arith.getLsbD 4),
    stoch := getField c.arith 2 1 == 1 && !q.exact, draw0 := s.free }

/-- Whether a VPOST narrows: its stored format is narrower than the value it has (R76, R460). -/
def Post.narrows (p : Post) (t : Tile) : Bool := !(p.direct t) && p.dfmt != 0 && p.dfmt != 0xC

/-- The effects of a VEC operation with their latencies (R105, R159). -/
def State.vecEffects (s : State) (q : Seq) (c : Ctx) (op : VecOp) : List (Nat × Effect) :=
  match vecTile c op with
  | none => []
  | some t =>
    let lat := t.entries + vecLatency op
    let store (a m w : BitVec 4) (rows : List (List Byte)) : List (Nat × Effect) :=
      [(1, .regA a.toNat (postModify (c.ra a) (c.rm m) (windowOf (c.rw w.toNat)))),
       (lat, .memList (rowWrites (windowOf (c.rw w.toNat)) (offOf (c.ra a)) rows))]
    match op with
    | .vpost _ sc ss bias act dfmt st a m w =>
      let p := postOf s q c sc ss bias act dfmt
      let srx := flagIf (getField c.arith 2 1 == 1 && q.exact && p.narrows t) fSRX
      if st then
        let rows := (t.outRows.zipIdx).map (fun r => p.row t q r.1 r.2)
        store a m w (rows.map (·.1)) ++ [(lat, .flags (rows.foldl (fun f r => f ||| r.2) srx))]
      else
        let b := p.back t q
        [(lat, .acc b.1), (lat, .flags (b.2 ||| srx))]
    | .vnorm _ blk st a m w =>
      let bl := laneBlocks t blk
      let shifts := t.outRows.map (fun r => (r, bl.map (fun l => (l, blockShift q r l))))
      let cells := (shifts.map (fun r => (r.2.map (fun b => (b.1.map (fun l => r.1.map (fun e =>
        (accKey l e, (q.entry l e) <<< b.2)))).flatten)).flatten)).flatten
      (lat, .acc cells) ::
        (if st then store a m w (shifts.map (fun r => r.2.map (fun b => BitVec.ofNat 8 b.2))) else [])
    | .vbfp _ blk wc _ a m w =>
      store a m w (t.outRows.map (fun r => ((laneBlocks t blk).map (fun l => bfpBlock q (wcWidth wc.toNat) r l)).flatten))
    | .vmaxe _ blk _ a m w =>
      store a m w (t.outRows.map (fun r => (laneBlocks t blk).map (fun l => BitVec.ofNat 8 (maxExponent q (r.headD 0) l))))
    | .vred _ pd kind ss => [(lat, .regP pd.toNat (vredValue q t kind.toNat (c.rs ss)))]
    | .nop => []

/-- Whether a VEC operation writes entries back (R160, R165). -/
def vecWritesBack : VecOp → Bool
  | .vpost _ _ _ _ _ _ st _ _ _ => !st
  | .vnorm .. => true
  | _ => false

/-- The cluster after a VEC operation issues: the unit and the entries are held, and stochastic narrowing is counted
(R104, R159, R460). -/
def State.vecUnit (s : State) (q0 : Seq) (c : Ctx) (t : Nat) (op : VecOp) (q : Seq) : Seq :=
  match vecTile c op with
  | none => q
  | some x =>
    let n := x.entries
    let vis := if vecWritesBack op then t + n + vecLatency op else t + n
    let live := q.vecs.filter (fun v => decide (t < v.visible))
    let q := { q with
      vecUntil := t + n,
      vecs := live ++ [{ rows := x.rowMask, firstEntry := x.e, lastEntry := x.e + n, until_ := t + n, visible := vis }] }
    match op with
    | .vpost _ sc ss bias act dfmt _ _ _ _ =>
      let p := postOf s q0 c sc ss bias act dfmt
      if p.stoch && p.narrows x then { q with ndStoch := satAdd q.ndStoch 1 65535 } else q
    | _ => q

/-- How many free values a VEC operation draws: one per value that it narrows stochastically (R77). -/
def State.vecDraws (s : State) (q : Seq) (c : Ctx) (op : VecOp) : Nat :=
  match vecTile c op, op with
  | some x, .vpost _ sc ss bias act dfmt _ _ _ _ =>
    let p := postOf s q c sc ss bias act dfmt
    if p.stoch && p.narrows x then x.n * x.entries else 0
  | _, _ => 0

end Sys2Proof.Machine
end

