-- ==== Sys2Proof/Machine/XferOps.lean ====
section
/-! DEFINITION. The XFER slot: DMA (R106, R170), tokens (R110, R171), remote operations (R109, R172, R173), the list
operations GATHER, COMPACT and ROUTE (R174, R195 to R204) and engine jobs (R175, R305). -/
namespace Sys2Proof.Machine

/-! DMA. -/

/-- Where one end of a DMA lies, as R170 sorts its pairs: the own die's array, exchange or sealed region, its own HBM3E
stack, the own Iris SRAM of an Iris core, any other region within reach, or none. -/
inductive DmaEnd where
  | array | sealed | ownHbm | ownIris | other | bad
  deriving DecidableEq, Repr

/-- Whether a step of a unit runs on die d. -/
def State.runsOnDie (s : State) (u : SeqUnit) (d : Nat) : Bool :=
  match s.stepOf u with
  | none => unitDie u == d
  | some r => r.clusters.any (fun c => c / 8 == d)

/-- Whether a DMA of a unit reaches one word off its own die's array (R170, R216). -/
def State.farReach (s : State) (u : SeqUnit) (a : Nat) : Bool :=
  let q := s.seq u
  s.memUp a && (match regionOf a with
  | .sp d o =>
    let g := groupOf (s.groupWide d) o
    if !u.isIris && s.runsOnDie u d then q.slice.getLsbD g else s.groupOwner d g == q.part
  | .xch d o => s.slotOwner d (o / 0x10000) == q.part
  | .hbm .. => true
  | .lpddr _ => true
  | .iris .. => q.radio || u.isIris
  | _ => false)

/-- The end that one word of a DMA makes (R170, R216, R227). -/
def State.dmaWord (s : State) (u : SeqUnit) (a : Nat) : DmaEnd :=
  let q := s.seq u
  let far : DmaEnd := if s.farReach u a then .other else .bad
  match u, regionOf a with
  | .cluster c, .sealed d o =>
    if d = c / 8 ∧ s.sliceOwner d (o / 0x100000) = q.part then .sealed else .bad
  | .cluster c, .hbm d _ => if d = c / 8 then (if s.memUp a then .ownHbm else .bad) else far
  | .cluster c, _ => if s.stepReach (c / 8) q.slice q.part a 64 then .array else far
  | .iris c, .iris i _ => if i = c / 48 then .ownIris else far
  | .iris _, _ => far

/-- The end that a whole range makes: the words' own when they agree, another region when all are within reach. -/
def State.dmaEnd (s : State) (u : SeqUnit) (off n : Nat) : DmaEnd :=
  let es := (words64 off n).map (fun a => s.dmaWord u a)
  match es with
  | [] => .bad
  | e :: t =>
    if t.all (fun x => x == e) then e
    else if es.any (fun x => x == .bad || x == .sealed) then .bad
    else .other

/-- The end of a list of pieces. -/
def State.dmaEndPieces (s : State) (u : SeqUnit) (ps : List (Nat × Nat)) : DmaEnd :=
  let es := ps.map (fun p => s.dmaEnd u p.1 p.2)
  match es with
  | [] => .bad
  | e :: t =>
    if t.all (fun x => x == e) then e
    else if es.any (fun x => x == .bad || x == .sealed) then .bad
    else .other

/-- The latency rows of a DMA (R105, R121, R170). -/
inductive DmaRow where
  | within | hbm | far | iris
  deriving DecidableEq, Repr

/-- The row of a pair of ends; none where the DMA names what it may not reach (R170, R227). -/
def dmaRow : DmaEnd → DmaEnd → Option DmaRow
  | .bad, _ => none
  | _, .bad => none
  | .array, .array => some .within
  | .array, .sealed => some .within
  | .sealed, .array => some .within
  | .array, .ownHbm => some .hbm
  | .ownHbm, .array => some .hbm
  | .sealed, .ownHbm => some .hbm
  | .ownHbm, .sealed => some .hbm
  | .sealed, _ => none
  | _, .sealed => none
  | .ownIris, .ownIris => some .iris
  | _, _ => some .far

/-- The size of a DMA, PUT or GET: a multiple of 64 B from 64 B to 64 MiB (R170). -/
def xferSize (v : BitVec 64) : Nat := getField v 31 0
/-- Whether a size is illegal (R170). -/
def sizeBad (n : Nat) : Bool := n % 64 != 0 || n < 64 || decide (n > 2 ^ 26)

/-- Whether a token target operand is one that raises: its reserved kind or a reserved bit (R171). -/
def targetBad (tok : Bool) (v : BitVec 64) : Bool := tok && (tokenTargetOf v.toNat).isNone

/-- What a DMA raises (R106, R107, R130, R131, R170). -/
def State.dmaExc (s : State) (u : SeqUnit) (q : Seq) (c : Ctx) (f : DForm) : Option Exc :=
  let n := xferSize (c.rs f.ss)
  let src := c.ra f.a
  let dst := c.ra f.b
  let w := c.rw f.w.toNat
  let ps := windowPieces (windowOf w) (offOf src) n
  let row := if sizeBad n || !(s.isLocal src) || !(s.isLocal dst) then none
    else dmaRow (s.dmaEndPieces u ps) (s.dmaEnd u (offOf dst) n)
  lowestExc [
    raiseIf (sizeBad n || f.c != 0 || targetBad f.tok (c.rs f.st) || decide (q.dmas.length ≥ 8) ||
      (decide (row = some .far) && !f.tok) || (decide (row = some .hbm) && q.rate == 0)) illegal,
    windowExc w src,
    raiseIf (offOf src % 64 != 0) (exRange, src.toNat), raiseIf (offOf dst % 64 != 0) (exRange, dst.toNat),
    raiseIf (!(s.isLocal src)) (exMap, src.toNat), raiseIf (!(s.isLocal dst)) (exMap, dst.toNat),
    raiseIf (!sizeBad n && row.isNone)
      (exMap, if s.dmaEndPieces u ps == .bad then src.toNat else dst.toNat)]

/-- The bytes of a list of pieces. -/
def State.pieceBytes (s : State) (ps : List (Nat × Nat)) : List Byte := (ps.map (fun p => s.bytes p.1 p.2)).flatten

/-- The first word in error of a list of pieces. -/
def State.badIn2 (s : State) (ps : List (Nat × Nat)) : Option Nat := ps.findSome? (fun p => s.badIn p.1 p.2)

/-- The DMA that issues in cycle t: its record and its completion cycle, none for a DMA to or from another die, whose
arrival is an event of its own (R105, R106, R113, R121). -/
def State.dmaIssue (s : State) (u : SeqUnit) (q : Seq) (c : Ctx) (k t : Nat) (f : DForm) : Dma × Option Nat × Nat :=
  let n := xferSize (c.rs f.ss)
  let src := offOf (c.ra f.a)
  let dst := offOf (c.ra f.b)
  let ps := windowPieces (windowOf (c.rw f.w.toNat)) src n
  let row := dmaRow (s.dmaEndPieces u ps) (s.dmaEnd u dst n)
  let t0 := max t q.portFree
  let d : Dma := s.holdDma {
    id := q.nextId, ctx := k, list := false, remote := decide (row = some .far),
    writes := [(dst, s.pieceBytes ps)], token := if f.tok then tokenTargetOf (c.rs f.st).toNat else none,
    bad := s.badIn2 ps, srcs := ps,
    wait := decide (row = some .far) && ps.any (fun p => s.exactHeld q.step p.1 p.2) }
  match row with
  | some .within => (d, some (t + 16 + cdiv n 512), q.portFree)
  | some .iris => (d, some (t + 20 + cdiv n 256), q.portFree)
  | some .hbm =>
    let e := t0 + 200 + cdiv n q.bytesPerCycle
    (d, some e, e)
  | _ => (d, none, q.portFree)

/-! The list operations. -/

/-- A list operation's three linear ranges, its bound S, the ranges it reads, what it writes, and what ROUTE counts. -/
structure ListOp where
  ranges : List (Nat × Nat)
  bound : Nat
  reads : List (Nat × Nat)
  writes : List (Nat × List Byte)
  placed : Nat := 0
  redirected : Nat := 0
  dropped : Nat := 0
  deriving DecidableEq, Repr

/-- n rounded up to a multiple of 64. -/
def up64 (n : Nat) : Nat := roundUp n 64

/-- GATHER's parameter word in range (R201). -/
def gatherBad (p : Nat) : Bool := bitsOf p 23 16 == 0 || bitsOf p 47 24 == 0 || bitsOf p 63 48 != 0

/-- GATHER's ranges: the table, the list, the result (R201). -/
def gatherRanges (p a b c : Nat) : List (Nat × Nat) :=
  let l := bitsOf p 15 0 + 1
  let rb := 64 * bitsOf p 23 16
  [(a, bitsOf p 47 24 * rb), (c, 4 * l), (b, l * rb)]

/-- GATHER (R201). -/
def State.gatherOp (s : State) (p a b c : Nat) : ListOp :=
  let l := bitsOf p 15 0 + 1
  let rb := 64 * bitsOf p 23 16
  let nsrc := bitsOf p 47 24
  let idx (i : Nat) : Nat := s.num (c + 4 * i) 4
  { ranges := gatherRanges p a b c, bound := l * rb + up64 (4 * l),
    reads := (c, 4 * l) :: ((List.range l).filter (fun i => decide (idx i < nsrc))).map (fun i => (a + idx i * rb, rb)),
    writes := (List.range l).map (fun i =>
      (b + i * rb, if idx i < nsrc then s.bytes (a + idx i * rb) rb else List.replicate rb 0)) }

/-- COMPACT's parameter word in range (R202). -/
def compactBad (p : Nat) : Bool := bitsOf p 23 16 == 0 || bitsOf p 63 25 != 0

/-- COMPACT's ranges: the rows, the mask, the output (R202). -/
def compactRanges (p a b c : Nat) : List (Nat × Nat) :=
  let l := bitsOf p 15 0 + 1
  let rb := 64 * bitsOf p 23 16
  [(a, l * rb), (c, cdiv l 8), (b, 64 + up64 (4 * l) + l * rb)]

/-- COMPACT (R202). -/
def State.compactOp (s : State) (p a b c : Nat) : ListOp :=
  let l := bitsOf p 15 0 + 1
  let rb := 64 * bitsOf p 23 16
  let inv := bitOf p 24
  let kept := (List.range l).filter (fun i => bitOf (s.byte (c + i / 8)).toNat (i % 8) != inv)
  let rows := b + 64 + up64 (4 * l)
  { ranges := compactRanges p a b c, bound := l * rb + 64 + up64 (4 * l) + cdiv l 512 * 64,
    reads := (c, cdiv l 8) :: kept.map (fun i => (a + i * rb, rb)),
    writes := [(b, leBytes 4 kept.length ++ List.replicate 60 0),
      (b + 64, (kept.map (leBytes 4)).flatten ++ List.replicate (4 * (l - kept.length)) 0xFF)] ++
      (kept.zipIdx).map (fun e => (rows + e.2 * rb, s.bytes (a + e.1 * rb) rb)) }

/-- ROUTE's parameter word (R196). -/
structure RouteP where
  t : Nat
  rb : Nat
  e : Nat
  n : Nat
  nl : Nat
  policy : Nat
  shared : Bool
  cap : Nat
  resv : Nat
  deriving DecidableEq, Repr

/-- The fields of ROUTE's parameter word (R196). -/
def routeP (p : Nat) : RouteP :=
  { t := bitsOf p 11 0 + 1, rb := 64 * bitsOf p 19 12, e := bitsOf p 27 20 + 1, n := bitsOf p 30 28 + 1,
    nl := bitsOf p 33 31 + 1, policy := bitsOf p 35 34, shared := bitOf p 36, cap := bitsOf p 48 37,
    resv := bitsOf p 63 49 }

/-- L_A of R195. -/
def RouteP.la (r : RouteP) : Nat := up64 (2 * r.t * r.nl)
/-- H of R195. -/
def RouteP.h (r : RouteP) : Nat := up64 (4 * (r.e + 1))
/-- The bound S of R200. -/
def RouteP.bound (r : RouteP) : Nat := r.t * r.n * r.rb + r.la + up64 (4 * r.t * r.n) + r.h
/-- ROUTE's ranges (R200). -/
def RouteP.ranges (r : RouteP) (a b c : Nat) : List (Nat × Nat) :=
  [(a, r.t * r.rb), (c, r.la + up64 (4 * r.t * r.n)),
   (b, r.h + (r.e + (if r.policy = 1 then 1 else 0)) * r.cap * r.rb)]
/-- Whether the parameter word is out of range (R196, R200). -/
def RouteP.bad (r : RouteP) : Bool :=
  r.rb == 0 || decide (r.t > 4096) || r.policy == 3 || r.cap == 0 || r.resv != 0 || decide (r.nl < r.n) ||
  decide (r.bound > 2 ^ 26)

/-- What ROUTE carries from choice to choice (R197, R198). -/
structure RouteSt where
  counts : Tab Nat := []
  slots : List Nat := []
  copies : List (Nat × Nat × Nat) := []
  placed : Nat := 0
  redirected : Nat := 0
  dropped : Nat := 0
  spare : Nat := 0
  inToken : List Nat := []
  deriving DecidableEq, Repr

/-- A slot-list entry (R198). -/
def slotEntry (placed : Bool) (expert pos : Nat) : Nat := pos % 4096 + expert % 512 * 4096 + b2n placed * 2 ^ 31

/-- A choice placed in expert e at its next row. -/
def RouteSt.place (st : RouteSt) (t e code : Nat) (redirected : Bool) : RouteSt :=
  let p := st.counts.getD e 0
  { st with counts := st.counts.put e (p + 1), slots := st.slots ++ [slotEntry true code p],
            copies := st.copies ++ [(t, e, p)], placed := st.placed + 1,
            redirected := st.redirected + b2n redirected, inToken := e :: st.inToken }

/-- A choice dropped after expert e was full. -/
def RouteSt.drop (st : RouteSt) (e : Nat) : RouteSt :=
  { st with slots := st.slots ++ [slotEntry false e 0xFFF], dropped := st.dropped + 1 }

/-- The spares of a token tried in order from the first not used (R198). -/
def RouteSt.next (st : RouteSt) (r : RouteP) (entry : Nat → Nat) (t e : Nat) : Nat → RouteSt
  | 0 => st.drop e
  | fuel + 1 =>
    let i := r.n + st.spare
    if i ≥ r.nl then st.drop e
    else
      let x := entry i
      let st := { st with spare := st.spare + 1 }
      if x ≥ r.e || ((List.range r.n).any (fun c => entry c == x)) || st.inToken.contains x ||
          decide (st.counts.getD x 0 ≥ r.cap) then st.next r entry t e fuel
      else st.place t x x true

/-- One choice of a token (R197, R198). -/
def RouteSt.choice (st : RouteSt) (r : RouteP) (entry : Nat → Nat) (t c : Nat) : RouteSt :=
  let e := entry c
  if e ≥ r.e then { st with slots := st.slots ++ [slotEntry false 0x1FF 0xFFF] }
  else if st.counts.getD e 0 < r.cap then st.place t e e false
  else if r.policy = 1 then
    if st.counts.getD r.e 0 < r.cap then st.place t r.e 0x100 true else st.drop e
  else if r.policy = 2 then st.next r entry t e 8
  else st.drop e

/-- The choices of every token in order (R197). -/
def State.routeRun (s : State) (r : RouteP) (b c : Nat) : RouteSt :=
  let init : RouteSt := { counts := (List.range (r.e + 1)).map (fun i => (i, s.num (b + 4 * i) 4)) }
  (List.range r.t).foldl (fun st t =>
    let entry (i : Nat) : Nat := s.num (c + 2 * r.nl * t + 2 * i) 2
    (List.range r.n).foldl (fun st ch => st.choice r entry t ch) { st with spare := 0, inToken := [] }) init

/-- ROUTE (R195 to R200). -/
def State.routeOp (s : State) (p a b c : Nat) : ListOp :=
  let r := routeP p
  let st := s.routeRun r b c
  { ranges := r.ranges a b c, bound := r.bound,
    reads := [(c, 2 * r.t * r.nl), (b, 4 * (r.e + 1))] ++ st.copies.map (fun x => (a + x.1 * r.rb, r.rb)),
    writes := st.copies.map (fun x => (b + r.h + (x.2.1 * r.cap + x.2.2) * r.rb, s.bytes (a + x.1 * r.rb) r.rb)) ++
      [(b, ((List.range (r.e + 1)).map (fun i => leBytes 4 (st.counts.getD i 0))).flatten),
       (c + r.la, (st.slots.map (leBytes 4)).flatten)],
    placed := st.placed, redirected := st.redirected, dropped := st.dropped }

/-- Whether two ranges of one operation overlap. -/
def rangesOverlap : List (Nat × Nat) → Bool
  | [] => false
  | x :: t => t.any (fun y => decide (x.1 < y.1 + y.2) && decide (y.1 < x.1 + x.2)) || rangesOverlap t

/-- The parameter check and ranges of a list operation, from its parameter word and addresses. -/
def listShape (op : XferOp) (p a b c : Nat) : Bool × List (Nat × Nat) :=
  match op with
  | .gather _ => (gatherBad p, gatherRanges p a b c)
  | .compact _ => (compactBad p, compactRanges p a b c)
  | _ => ((routeP p).bad, (routeP p).ranges a b c)

/-- What a list operation raises (R107, R174, R175, R196, R199, R203). -/
def State.listExc (s : State) (u : SeqUnit) (q : Seq) (c : Ctx) (op : XferOp) (f : DForm) : Option Exc :=
  let p := (c.rs f.ss).toNat
  let aa := c.ra f.a
  let ab := c.ra f.b
  let ac := c.ra f.c
  let sh := listShape op p (offOf aa) (offOf ab) (offOf ac)
  let shared := match op with
    | .route _ => (routeP p).shared
    | _ => false
  let out (r : Nat × Nat) : Bool := match u with
    | .cluster n => !(s.stepReach (n / 8) q.slice q.part r.1 r.2)
    | .iris _ => true
  lowestExc [
    raiseIf (u.isIris || f.m != 0 || f.w != 0 || targetBad f.tok (c.rs f.st) || decide (q.dmas.length ≥ 8) || sh.1 ||
      (shared && q.exact) || (!sh.1 && rangesOverlap sh.2)) illegal,
    raiseIf (offOf aa % 64 != 0) (exRange, aa.toNat), raiseIf (offOf ab % 64 != 0) (exRange, ab.toNat),
    raiseIf (offOf ac % 64 != 0) (exRange, ac.toNat),
    raiseIf (!(s.isLocal aa)) (exMap, aa.toNat), raiseIf (!(s.isLocal ab)) (exMap, ab.toNat),
    raiseIf (!(s.isLocal ac)) (exMap, ac.toNat),
    if sh.1 then none else (sh.2.find? out).map (fun r => (exMap, s.globalAddr r.1))]

/-- What a list operation does, from the state at its issue (R204). -/
def State.listRun (s : State) (c : Ctx) (op : XferOp) (f : DForm) : ListOp :=
  let p := (c.rs f.ss).toNat
  let a := offOf (c.ra f.a)
  let b := offOf (c.ra f.b)
  let x := offOf (c.ra f.c)
  match op with
  | .gather _ => s.gatherOp p a b x
  | .compact _ => s.compactOp p a b x
  | _ => s.routeOp p a b x

/-! Remote operations. -/

/-- The size of an atomic (R173). -/
def atomicSize (kind : Nat) : Nat := if kind = 1 ∨ kind = 2 ∨ kind = 9 ∨ kind = 10 then 4 else 8

/-- Whether the local range of a PUT or GET lies where the step reaches (R172, R216). -/
def State.localReach (s : State) (u : SeqUnit) (ps : List (Nat × Nat)) : Bool :=
  ps.all (fun p => (words64 p.1 p.2).all (fun a => s.unitReach u a 64 || (match regionOf a with
    | .sp d o => s.memUp a && s.runsOnDie u d && (s.seq u).slice.getLsbD (groupOf (s.groupWide d) o)
    | .xch d o => s.runsOnDie u d && s.slotOwner d (o / 0x10000) == (s.seq u).part
    | _ => false)))

/-- What a remote load, store or atomic raises (R107, R129, R172, R173). -/
def remoteExc (u : SeqUnit) (c : Ctx) (a : BitVec 64) (size : Nat) (pairReg : Option (BitVec 5)) (bad : Bool) :
    Option Exc :=
  lowestExc [
    raiseIf (u.isIris || decide (c.outst ≥ 64) || bad || (match pairReg with
      | some d => !pairOk d
      | none => false)) illegal,
    raiseIf (offOf a % size != 0) (exRange, a.toNat)]

/-- What a PUT or GET raises (R107, R130, R170, R172). -/
def State.blockExc (s : State) (u : SeqUnit) (c : Ctx) (f : DForm) (get : Bool) : Option Exc :=
  let n := xferSize (c.rs f.ss)
  let src := c.ra f.a
  let dst := c.ra f.b
  let w := c.rw f.w.toNat
  let loc := if get then dst else src
  let ps := if get then [(offOf dst, n)] else windowPieces (windowOf w) (offOf src) n
  lowestExc [
    raiseIf (u.isIris || decide (c.outst ≥ 64) || sizeBad n || f.c != 0 || targetBad f.tok (c.rs f.st) ||
      (get && f.w != 0)) illegal,
    if get then none else windowExc w src,
    raiseIf (offOf src % 64 != 0) (exRange, src.toNat), raiseIf (offOf dst % 64 != 0) (exRange, dst.toNat),
    raiseIf (!(s.isLocal loc) || (!sizeBad n && !(s.localReach u ps))) (exMap, loc.toNat)]

/-- The remote operation that an XFER operation issues, but for its number (R172, R173, R399). -/
def State.remoteOf (s : State) (u : SeqUnit) (q : Seq) (c : Ctx) (k : Nat) (op : XferOp) : Option RemoteOp :=
  let base : RemoteOp := {
    id := s.nextOp, issuer := .ctx u k, step := q.step, part := q.part, radio := q.radio, kind := .rld, dst := 0,
    addr := 0, size := 0, operand := 0, cmp := 0, akind := 0, res := false, data := [], loc := 0, token := none }
  let at_ (a : BitVec 64) (r : RemoteOp) : RemoteOp :=
    { r with dst := if nodeOf a = 0xFFFF then s.nodeId else nodeOf a, addr := offOf a }
  match op with
  | .rld a d sz => some (at_ (c.ra a) { base with size := 2 ^ sz.toNat, res := true, sd := some d.toNat })
  | .rst a d sz => some (at_ (c.ra a) { base with
      kind := .rst, size := 2 ^ sz.toNat, data := leBytes (2 ^ sz.toNat) (c.rs d).toNat })
  | .rat a d b cc kind res => some (at_ (c.ra a) { base with
      kind := .rat, size := atomicSize kind.toNat, operand := (c.rs b).toNat, cmp := (c.rs cc).toNat,
      akind := kind.toNat, res := res, sd := if res then some d.toNat else none })
  | .put f =>
    let n := xferSize (c.rs f.ss)
    let ps := windowPieces (windowOf (c.rw f.w.toNat)) (offOf (c.ra f.a)) n
    some (at_ (c.ra f.b) { base with
      kind := .put, size := n, data := s.pieceBytes ps, loc := offOf (c.ra f.a),
      token := if f.tok then tokenTargetOf (c.rs f.st).toNat else none })
  | .get f => some (at_ (c.ra f.a) { base with
      kind := .get, size := xferSize (c.rs f.ss), loc := offOf (c.ra f.b),
      token := if f.tok then tokenTargetOf (c.rs f.st).toNat else none })
  | _ => none

/-! What an XFER operation raises and does. -/

/-- The kind of an Iris engine queue (R304). -/
def queueKind (q : Nat) : Nat :=
  if q < 16 then 1 else if q < 24 then 2 else if q < 28 then 3 else if q = 28 then 4 else if q = 29 then 5
  else if 32 ≤ q ∧ q < 40 then 6 else 0

/-- KIND of an engine queue (R304): a queue that a timed-out L1 withdrew reads 0 (R523). -/
def State.kindOf (s : State) (iris q : Nat) : Nat := if s.deadUnits.contains (0x200 + 64 * iris + q) then 0 else queueKind q

/-- The jobs outstanding in an engine queue, queued and running (R304). -/
def EngQ.outstanding (q : EngQ) : Nat := q.jobs.length + b2n q.running.isSome

/-- The engine queue of an Iris die. -/
def State.engq (s : State) (iris q : Nat) : EngQ := s.eng.getD (64 * iris + q) {}

/-- The state with an engine queue replaced. -/
def State.setEngq (s : State) (iris q : Nat) (e : EngQ) : State := { s with eng := s.eng.put (64 * iris + q) e }

/-- The Iris number of a core; a cluster has none. -/
def irisOf : SeqUnit → Nat
  | .iris n => n / 48
  | .cluster _ => 0

/-- What an ENGJOB raises (R175, R305, R308). -/
def State.engjobExc (s : State) (u : SeqUnit) (c : Ctx) (a : BitVec 4) (st : BitVec 5) (q : BitVec 6) : Option Exc :=
  let av := c.ra a
  lowestExc [
    raiseIf (!u.isIris || s.kindOf (irisOf u) q.toNat == 0 || decide ((s.engq (irisOf u) q.toNat).outstanding ≥ 16) ||
      targetBad true (c.rs st)) illegal,
    raiseIf (offOf av % 64 != 0) (exRange, av.toNat),
    raiseIf (!(s.isLocal av) || !(s.unitReach u (offOf av) 64)) (exMap, av.toNat)]

/-- What an XFER operation raises (R128 to R133, R169 to R175). -/
def State.xferExc (s : State) (u : SeqUnit) (q : Seq) (c : Ctx) (op : XferOp) : Option Exc :=
  match op with
  | .nop => none
  | .dma f => s.dmaExc u q c f
  | .signal st => raiseIf (targetBad true (c.rs st)) illegal
  | .wait _ => none
  | .ttest pd _ => raiseIf (pd == 0 || q.exact) illegal
  | .rld a d sz => remoteExc u c (c.ra a) (2 ^ sz.toNat) (some d) false
  | .rst a _ sz => remoteExc u c (c.ra a) (2 ^ sz.toNat) none false
  | .rat a d _ _ kind res =>
    remoteExc u c (c.ra a) (atomicSize kind.toNat) (if res then some d else none) (decide (kind.toNat ≥ 0xB))
  | .put f => s.blockExc u c f false
  | .get f => s.blockExc u c f true
  | .fwait _ => raiseIf u.isIris illegal
  | .gather f => s.listExc u q c op f
  | .compact f => s.listExc u q c op f
  | .route f => s.listExc u q c op f
  | .engjob a st qn => s.engjobExc u c a st qn

/-- The results of an XFER operation with their latencies (R105, R169 to R174): a DMA or list operation's end, a token
on its way, TTEST's predicate and the post-modified address. -/
def State.xferEffects (s : State) (u : SeqUnit) (q : Seq) (c : Ctx) (k t : Nat) (op : XferOp) : List (Nat × Effect) :=
  let plain (f : DForm) : Nat × Effect := (1, .regA f.a.toNat (c.ra f.a + c.rm f.m))
  let wrapped (f : DForm) : Nat × Effect :=
    (1, .regA f.a.toNat (postModify (c.ra f.a) (c.rm f.m) (windowOf (c.rw f.w.toNat))))
  match op with
  | .dma f =>
    let d := s.dmaIssue u q c k t f
    wrapped f :: (match d.2.1 with
      | some e => [(e - t, .dmaEnd d.1.id)]
      | none => [])
  | .signal st => match tokenTargetOf (c.rs st).toNat with
    | some x => [(1, .signal x)]
    | none => []
  | .ttest pd n => [(1, .regP pd.toNat (q.tokens.getD n.toNat 0 != 0))]
  | .put f => [wrapped f]
  | .get f => [plain f]
  | .gather f => [(16 + cdiv (s.listRun c op f).bound 512, .dmaEnd q.nextId)]
  | .compact f => [(16 + cdiv (s.listRun c op f).bound 512, .dmaEnd q.nextId)]
  | .route f => [(16 + cdiv (s.listRun c op f).bound 512, .dmaEnd q.nextId)]
  | _ => []

/-- A list operation's record among the outstanding DMA operations (R174). -/
def State.listDma (s : State) (q : Seq) (c : Ctx) (k : Nat) (op : XferOp) (f : DForm) : Dma :=
  let l := s.listRun c op f
  { id := q.nextId, ctx := k, list := true, remote := false, writes := l.writes,
    token := if f.tok then tokenTargetOf (c.rs f.st).toNat else none, bad := s.badIn2 l.reads }

/-- The cluster after an XFER operation issues in cycle t: outstanding operations, the HBM3E port, a token taken, and the
counters (R85, R106, R209, R460). -/
def State.xferUnit (s : State) (u : SeqUnit) (q0 : Seq) (c : Ctx) (k t : Nat) (op : XferOp) (q : Seq) : Seq :=
  let list (f : DForm) (q : Seq) : Seq :=
    let l := s.listRun c op f
    { q with dmas := q.dmas ++ [s.listDma q0 c k op f], nextId := q.nextId + 1,
             placed := q.placed + l.placed, redirected := q.redirected + l.redirected,
             dropped := q.dropped + l.dropped }
  match op with
  | .dma f =>
    let d := s.dmaIssue u q0 c k t f
    { q with dmas := q.dmas ++ [d.1], nextId := q.nextId + 1, portFree := d.2.2 }
  | .wait n =>
    let x := q.tokens.getD n.toNat 0
    if x = 0 then q else { q with tokens := q.tokens.put n.toNat (x - 1) }
  | .ttest _ _ => if q.exact then q else { q with ndTiming := satAdd q.ndTiming 1 65535 }
  | .gather f => list f q
  | .compact f => list f q
  | .route f =>
    let q := list f q
    if (routeP (c.rs f.ss).toNat).shared then { q with ndRoute := satAdd q.ndRoute 1 65535 } else q
  | _ => q

/-- The wait that an XFER operation makes its context enter, if it is a switch point (R86, R109, R110). -/
inductive XWait where
  | none
  | token (n : Nat)
  | remote (ids : List Nat) (fwait : Option Nat)
  deriving DecidableEq, Repr

/-- The remote operations of a context that are not yet answered to it. -/
def State.outstanding (s : State) (u : SeqUnit) (k : Nat) : List Nat :=
  (s.remote.filter (fun r => r.issuer == .ctx u k)).map (·.id)

/-- The wait of an XFER operation, from the state before it issues. -/
def State.xferWait (s : State) (u : SeqUnit) (q : Seq) (k : Nat) (op : XferOp) : XWait :=
  match op with
  | .wait n => if q.tokens.getD n.toNat 0 = 0 then .token n.toNat else .none
  | .rld .. => .remote [s.nextOp] none
  | .rat _ _ _ _ _ res => if res then .remote [s.nextOp] none else .none
  | .fwait d => .remote (s.outstanding u k) (some d.toNat)
  | _ => .none

/-- What an XFER operation does beyond its cluster: a remote operation issued, or a job queued (R175, R306, R399). -/
def State.xferGlobal (s : State) (u : SeqUnit) (q : Seq) (c : Ctx) (k t : Nat) (op : XferOp) : State :=
  match op with
  | .engjob a st qn =>
    match tokenTargetOf (c.rs st).toNat with
    | none => s
    | some tok =>
      let e := s.engq (irisOf u) qn.toNat
      let job : EngJob := { desc := offOf (c.ra a), token := tok, startLc := s.cycleLc u t + 20, core := (match u with
        | .iris n => n
        | .cluster n => n) }
      s.setEngq (irisOf u) qn.toNat { e with jobs := e.jobs ++ [job] }
  | _ => match s.remoteOf u q c k op with
    | none => s
    | some r =>
      let cls := match s.stepOf u with
        | some st => s.fld R.prmRingCfg 31 [st.ring] 2 1
        | none => 0
      let s := s.fabIssue { r with cls := cls } (max s.lc (s.cycleLc u t))
      let s := if r.kind == .put then s.access (.unit u) r.loc r.size false else s
      s.onCtx u k (fun c => { c with outst := c.outst + 1 })

end Sys2Proof.Machine
end

