-- ==== Sys2Proof/Machine/Observe.lean ====
section
/-! DEFINITION. What counters, trace, tensor watch, watchpoints and breakpoints see of a bundle that issues (R555, R556,
R563, R565 to R568). -/
namespace Sys2Proof.Machine

/-! Counters and trace. -/

/-- What a sequencer's own counters gained since a state of it, counted by its die's counters (R565), and a context switch in
its trace (R563). -/
def State.observe (s : State) (u : SeqUnit) (old : Seq) : State :=
  let q := s.seq u
  let d := unitDie u
  let l := localUnit u
  let s := if u.isIris then s
    else (((s.pmu d 0x04 l (q.zskipRows - old.zskipRows)).pmu d 0x05 l (q.frzUnsched - old.frzUnsched)).pmu d 0x06 l
      (q.frzOwn - old.frzOwn)).pmu d 0x07 l (q.switches - old.switches)
  if q.switches = old.switches then s
  else s.trace d (some 1) 0x03 l q.part (leBytes 1 old.last ++ leBytes 1 q.last ++ leBytes 2 (q.ctx q.last).pc)

/-- The row cycles in which the lanes compute for a MAC operation (R186, R565). -/
def State.rowCycles (s : State) (x : MacCtx) (zskip : Bool) : Nat := popCount x.t.rowMask 8 * (s.uList x zskip).sum

/-- The bytes of a wide operation's weight stream. -/
def streamBytesOf (x : MacCtx) : Nat := (x.q.map (chunkBytes x.t x.k x.b)).sum

/-! Accesses. -/

/-- The ranges that an AGU operation reads. -/
def aguReads (c : Ctx) : AguOp → List (Nat × Nat)
  | .load k _ a _ _ => [(offOf (c.ra a), loadSize k)]
  | _ => []

/-- The ranges that a lane-row operation reads through its streams (R151, R153, R154). -/
def macReads (x : MacCtx) : List (Nat × Nat) :=
  if x.kk = 0 then []
  else
    let blocks := cdiv x.kk 32
    let of (st : Option Stream) (n : Nat) : List (Nat × Nat) := match st with
      | none => []
      | some y => windowPieces y.win y.ptr n
    windowPieces x.bc.win x.bc.ptr (bcastStreamBytes x.u x.t x.kk x.k) ++
    windowPieces x.src.win x.src.ptr (if x.src.wide then streamBytesOf x
      else bStreamBytes x.u x.t x.kk x.k x.b false x.q.length) ++
    of x.bsc (blocks * x.t.m) ++ of x.bs (blocks * deliveryBytes x.u x.t)

/-- The ranges that an operation of the STRM slot reads at once: the bias values (R155). -/
def strmReads (u : SeqUnit) (c : Ctx) : StrmOp → List (Nat × Nat)
  | .ldbias mask a _ w => windowPieces (windowOf (c.rw w.toNat)) (offOf (c.ra a)) (biasBytes u mask.toNat)
  | _ => []

/-- The ranges that the effects of a bundle store to. -/
def effectWrites (l : List (Nat × Effect)) : List (Nat × Nat) :=
  (l.map (fun e => match e.2 with
    | .mem off bs => [(off, bs.length)]
    | .memList ws => ws.map (fun w => (w.1, w.2.length))
    | _ => [])).flatten

/-! Tensor watch. -/

/-- Whether watch point w of a partition matches a VEC operation of a bundle (R566). RANK is compared with the S0 that the
step start gives the cluster. -/
def State.twMatch (s : State) (q : Seq) (pc w : Nat) : Bool :=
  let p := q.part
  s.fld R.twCfg p [w] 0 0 == 1 && s.fld R.twCfg p [w] 16 4 == pc &&
  (s.fld R.twCfg p [w] 3 3 == 1 || s.fld R.twCfg p [w] 23 17 == q.rank) &&
  (s.reg R.twImage p [w]).toNat == q.codeDigest % 2 ^ 64

/-- The values that a VEC operation reads, in the order in which it stores them (R163, R567). -/
def twValues (q : Seq) (t : Tile) : List (BitVec 32) :=
  (t.outRows.map (fun r => (t.lanes.map (fun l => r.map (fun e =>
    let x := q.entry l e
    if t.intAcc then intToFP32 x.toInt else x))).flatten)).flatten

/-- The bytes over which DIGEST is computed (R568): those stored, or else the written-back values in read order. -/
def twBytes (t : Tile) (op : VecOp) (effs : List (Nat × Effect)) : List Byte :=
  match vecStore op with
  | some _ => (effs.map (fun e => match e.2 with
      | .memList ws => (ws.map (fun w => w.2)).flatten
      | _ => [])).flatten
  | none =>
    let cells := (effs.map (fun e => match e.2 with
      | .acc cs => cs
      | _ => [])).flatten
    (t.outRows.map (fun r => (t.lanes.map (fun l => (r.map (fun e =>
      match cells.find? (fun x => x.1 == accKey l e) with
      | some x => leBytes 4 x.2.toNat
      | none => [])).flatten)).flatten)).flatten

/-- The hits of a bundle's VEC operation, taken as it issues and counted when its last result is visible (R566). -/
def State.tensorEffects (s : State) (u : SeqUnit) (q : Seq) (c : Ctx) (op : VecOp) : List (Nat × Effect) :=
  match u, vecTile c op with
  | .cluster _, some t =>
    let ws := (List.range 64).filter (fun w => s.twMatch q c.pc w)
    if ws.isEmpty then []
    else
      let vals := twValues q t
      let bytes := twBytes t op (s.vecEffects q c op)
      ws.map (fun w => (t.entries + vecLatency op, Effect.tensor { part := q.part, point := w, vals := vals, bytes := bytes }))
  | _, _ => []

/-! Breakpoints. -/

/-- The breakpoint register i of a unit (R571). -/
def State.bpReg (s : State) (u : SeqUnit) (i : Nat) : Word :=
  if u.isIris then s.reg R.irsDbgBp (unitDie u) [localUnit u, i] else s.reg R.dhlDbgBp (unitDie u) [localUnit u, i]

/-- The state with a breakpoint register of a unit replaced. -/
def State.setBp (s : State) (u : SeqUnit) (i : Nat) (w : Word) : State :=
  if u.isIris then s.setReg R.irsDbgBp (unitDie u) [localUnit u, i] w
  else s.setReg R.dhlDbgBp (unitDie u) [localUnit u, i] w

/-- The armed breakpoints that name the next bundle of a context (R555), lowest first. -/
def State.bpHits (s : State) (u : SeqUnit) (k : Nat) : List Nat :=
  let pc := ((s.seq u).ctx k).pc
  (List.range 8).filter (fun i =>
    let w := s.bpReg u i
    w.getLsbD 0 && bitOf (getField w 10 3) k && getField w 23 11 == pc)

end Sys2Proof.Machine
end

