-- ==== Sys2Proof/Machine/Issue.lean ====
section
/-! DEFINITION. One bundle issued (R83, R88 to R92, R132, R133), the events of a sequencer, and the shared operation by
which every slot row of the table runs. -/
namespace Sys2Proof.Machine

/-- The exception of a slot: an undefined encoding is illegal (R89, R128). -/
def slotExc {α : Type} (op : Option α) (f : α → Option Exc) : Option Exc :=
  match op with
  | none => some illegal
  | some x => f x

/-- The checks of the slots in the order of R132, each with its slot code; those but CTL only under a true predicate
(R90). -/
def State.bundleExcs (s : State) (u : SeqUnit) (q : Seq) (c : Ctx) (k t : Nat) (b : Bundle) : List (Nat × Option Exc) :=
  (0, slotExc b.ctl (ctlExc q c k)) ::
  (if c.pred b.pred then
    [(1, slotExc b.agu0 (s.aguExc u c)), (2, slotExc b.agu1 (s.aguExc u c)),
     (3, slotExc b.bcst (s.bcstExc u q c)), (4, slotExc b.strm (s.strmExc u q c)),
     (5, slotExc b.mac (s.macSlotExc u q c t)), (6, slotExc b.vec (s.vecExc u q c t)),
     (7, slotExc b.xfer (s.xferExc u q c))]
   else [])

/-- The first slot that raises (R132). -/
def firstExc : List (Nat × Option Exc) → Option (Nat × Exc)
  | [] => none
  | (n, some e) :: _ => some (n, e)
  | (_, none) :: t => firstExc t

/-- The reading context of the MAC slot's operation, if it is a lane-row operation. -/
def State.macOf (s : State) (u : SeqUnit) (q : Seq) (c : Ctx) (op : MacOp) : Option MacCtx :=
  match macTile c op with
  | none => none
  | some (t, kk) => s.macCtx u q t kk

/-- The effects of a bundle's operations with their latencies, the slot with the lowest bit position first (R96). -/
def State.bundleEffects (s : State) (u : SeqUnit) (q : Seq) (c : Ctx) (k t : Nat) (b : Bundle) : List (Nat × Effect) :=
  ctlEffects q c t (b.ctl.getD .nop) ++
  (if c.pred b.pred then
    s.aguEffects u c (b.agu0.getD .nop) ++ s.aguEffects u c (b.agu1.getD .nop) ++
    bcstEffects c (b.bcst.getD .nop) ++ s.strmEffects u c (b.strm.getD .nop) ++
    (match s.macOf u q c (b.mac.getD .nop) with
     | some x => s.macEffects q c x t
     | none => []) ++
    s.vecEffects q c (b.vec.getD .nop) ++ s.xferEffects u q c k t (b.xfer.getD .nop)
   else [])

/-- The unit after a bundle's operations have issued, apart from where its context goes. -/
def State.bundleUnit (s : State) (u : SeqUnit) (q : Seq) (c : Ctx) (k t : Nat) (b : Bundle) : Seq :=
  let q1 := ctlCounts q c (b.ctl.getD .nop)
  if c.pred b.pred then
    let q2 := bcstUnit u c t q1 (b.bcst.getD .nop)
    let q3 := strmUnit u c t q2 (b.strm.getD .nop)
    let mac := b.mac.getD .nop
    let q4 := match s.macOf u q c mac with
      | some x => (s.macUnit q c x t q3).freeze true (s.macFreeze x)
      | none => match mac with
        | .formsw w => formSwitch q3 w t
        | _ => q3
    let q5 := s.vecUnit q c t (b.vec.getD .nop) q4
    let q6 := s.xferUnit u q c k t (b.xfer.getD .nop) q5
    if s.bankClash (aguAccess c (b.agu0.getD .nop)) (aguAccess c (b.agu1.getD .nop)) then q6.freeze true 1 else q6
  else q1

/-- The free values that a bundle's VEC operation draws (R77). -/
def State.bundleDraws (s : State) (q : Seq) (c : Ctx) (b : Bundle) : Nat :=
  if c.pred b.pred then s.vecDraws q c (b.vec.getD .nop) else 0

/-- The registers of the loop that a bundle starts, in force at once. -/
def startLoop (c : Ctx) (b : Bundle) : Ctx :=
  match ctlLoop c (b.ctl.getD .nop) with
  | none => c
  | some (i, l) => { c with l := c.l.put i l }

/-- The context's next bundle index and the cycle in which it would issue, after a bundle of cycle t (R101, R103, R105);
the context is given with its loops as the bundle leaves them. -/
def nextBundle (c : Ctx) (f : Flow) (t : Nat) : Ctx × Nat :=
  match f with
  | .jump target => ({ (c.leaveLoops target) with pc := target }, t + 3)
  | .idle n =>
    let r := c.loopEndAt c.pc 8
    ({ r.1 with pc := r.2.getD (c.pc + 1) }, t + n)
  | _ =>
    let r := c.loopEndAt c.pc 8
    ({ r.1 with pc := r.2.getD (c.pc + 1) }, t + 1)

/-- A context that leaves RUNNING in cycle t, and the switch point that follows (R84, R86). -/
def Seq.leave (q : Seq) (u : SeqUnit) (k t : Nat) (c : Ctx) : Seq := (q.setCtx k c).switchAt k (numCtx u) t

/-- The status word of FSTAT or of a remote operation: the code, and the BUSY_HOT hint (R172, R485). -/
def statusWord (code hint : Nat) : BitVec 64 := BitVec.ofNat 64 (code + hint * 2 ^ 32)

/-- FWAIT ends: FSTAT is written to its register and reset to OK (R172). -/
def Ctx.endFwait (c : Ctx) : Ctx :=
  match c.fwaitDst with
  | none => c
  | some d => { c with s := c.s.put d (BitVec.ofNat 64 c.fstat), fstat := stOK, fstatOp := none, fwaitDst := none }

/-- Where the context goes after its bundle: it runs on, or leaves RUNNING at a switch point (R84 to R87, R109, R110,
R119). -/
def Seq.flow (q : Seq) (u : SeqUnit) (k t : Nat) (c : Ctx) (f : Flow) (w : XWait) : Seq :=
  let r := nextBundle c f t
  match f with
  | .commit => { q.setCtx k r.1 with committing := true, next := t + 8 }
  | .halt => q.leave u k t { r.1 with st := .halted }
  | _ => match w with
    | .token n => q.leave u k t { r.1 with st := .waitToken, waitTok := n, waitFrom := t }
    | .remote [] d => q.leave u k t (Ctx.endFwait { r.1 with st := .ready, readyAt := t, fwaitDst := d })
    | .remote ids d => q.leave u k t { r.1 with st := .waitRemote, awaits := ids, fwaitDst := d, waitFrom := t }
    | .none => match f with
      | .yield => q.leave u k t { r.1 with st := .ready, readyAt := t }
      | _ => { q.setCtx k r.1 with next := r.2 }

/-- What counters and watchpoints see of a bundle that issues (R556, R565): its accesses are taken in its issue cycle. -/
def State.seen (s : State) (u : SeqUnit) (q : Seq) (c : Ctx) (b : Bundle) (effs : List (Nat × Effect)) (taken : Bool) : State :=
  let m := Master.unit u
  let d := unitDie u
  let l := localUnit u
  let s := s.pmu d (if u.isIris then 0x22 else 0x02) l 1
  if !taken then s
  else
    let reads := aguReads c (b.agu0.getD .nop) ++ aguReads c (b.agu1.getD .nop) ++ strmReads u c (b.strm.getD .nop)
    let s := match s.macOf u q c (b.mac.getD .nop) with
      | none => s
      | some x =>
        let s := if u.isIris then s else s.pmu d 0x03 l (s.rowCycles x (c.arith.getLsbD 0))
        let s := if x.src.wide && x.kk != 0 then s.pmu d 0x0A l (cdiv (streamBytesOf x) 64) else s
        s.accessAll m (macReads x) false
    (s.accessAll m reads false).accessAll m (effectWrites effs) true

/-- A bundle that raises nothing takes effect in cycle t. -/
def State.runBundle (s : State) (u : SeqUnit) (k t : Nat) (b : Bundle) : State :=
  let q := s.seq u
  let c := q.ctx k
  let taken := c.pred b.pred
  let wait : XWait := if taken then s.xferWait u q k (b.xfer.getD .nop) else .none
  let own := s.bundleEffects u q c k t b
  let effs := own ++ (if taken then s.tensorEffects u q c (b.vec.getD .nop) else [])
  let q1 := s.bundleUnit u q c k t b
  let q2 := effs.foldl (fun q e => q.push (t + e.1) k e.2) q1
  let s1 := { s with free := s.free + s.bundleDraws q c b }
  let s1 := s1.setSeq u q2
  let s2 := s1.seen u q c b own taken
  let s3 := if taken then s2.xferGlobal u q c k t (b.xfer.getD .nop) else s2
  let q3 := s3.seq u
  let f := ctlFlow c (b.ctl.getD .nop)
  let q4 := q3.flow u k t (startLoop (q3.ctx k) b) f wait
  let q5 := if f = .commit then q4.push (t + 8) k .stepDone else q4
  s3.setSeq u q5

/-- A bundle issued by context k in cycle t (R91, R92, R132, R133): past the code's end, or with an exception, it has no effect
but the exception. -/
def State.issueAt (s : State) (u : SeqUnit) (k t : Nat) (b : Bundle) : State :=
  let q := s.seq u
  let c := q.ctx k
  if c.pc ≥ q.codeLen then s.raise u k exIllegal 0 0 true
  else match firstExc (s.bundleExcs u q c k t b) with
    | some (slot, e) => s.raise u k e.1 slot e.2 true
    | none => (s.setSeq u { q with bpPass := false }).runBundle u k t b

/-- Whether an armed breakpoint that has not fired stops a bundle (R554, R555): a bundle that raises an exception is not
stopped. -/
def State.bpStops (s : State) (u : SeqUnit) (k t : Nat) (b : Bundle) : Bool :=
  let q := s.seq u
  let c := q.ctx k
  !q.bpPass && !(s.bpHits u k).isEmpty && decide (c.pc < q.codeLen) && (firstExc (s.bundleExcs u q c k t b)).isNone

/-- The watchpoint halt of a unit after a bundle of cycle t, of which `due` says that it was the one further cycle of issue
(R556). One that falls in the cycle of an exception has no effect (R554). -/
def State.watchEnd (s : State) (u : SeqUnit) (due : Option Nat) (t : Nat) : State :=
  match due with
  | none => s.watchHalt u t
  | some w =>
    let q := s.seq u
    if !q.active || q.stopped then s.setSeq u { q with dbgWatch := none } else s.haltUnit u 3 w

/-- The next bundle of a unit's running context issues, in the cycle that the sequencer gives it: results due by then
land first, and those with a latency of 1 as the cycle ends (R83, R95). Nothing issues on a unit that runs no context. -/
def State.issue (s : State) (u : SeqUnit) (b : Bundle) : State :=
  match (s.seq u).run with
  | none => s
  | some k =>
    if !(s.seq u).canIssue then s
    else
      let old := s.seq u
      let t := (s.seq u).next
      let s := s.settle u t
      if s.bpStops u k t b then s
      else if (s.seq u).canIssue && (s.seq u).run == some k then
        let due := (s.seq u).dbgWatch
        (((s.issueAt u k t b).settle u (t + 1)).observe u old).watchEnd u due t
      else s

/-! The events of a sequencer. -/

/-- Whether an event of cycle t may come before the running context's next bundle; a halted unit's latencies stand
(R115, R551). -/
def Seq.free (q : Seq) (t : Nat) : Bool :=
  !q.dbgHalted && q.inStep t && (q.run.isNone || !q.canIssue || decide (t ≤ q.next))

/-- A unit's results up to cycle t land, unless the running context issues before then. -/
def State.settleTo (s : State) (u : SeqUnit) (t : Nat) : State := if (s.seq u).free t then s.settle u t else s

/-- The cycle of an arrival that comes dt cycles from the unit's present one: no later than the next issue. -/
def Seq.arrival (q : Seq) (dt : Nat) : Nat :=
  if q.dbgHalted then q.cyc
  else if q.run.isSome && q.canIssue then min (q.cyc + dt) (max q.cyc q.next) else q.cyc + dt

/-- The due cycle of the first effect on its way that a test picks. -/
def Seq.dueOf (q : Seq) (p : Effect → Bool) : Option Nat := (q.pend.find? (fun e => p e.what)).map Pend.due

/-- The first effect on its way that a test picks lands, with all that are due by then. -/
def State.landFirst (s : State) (u : SeqUnit) (p : Effect → Bool) : State :=
  match (s.seq u).dueOf p with
  | none => s
  | some t => s.settleTo u t

/-- A context selected when none was READY at the switch point: it issues 3 cycles after the first cycle in which one is
READY (R86, R87). -/
def Seq.resume (q : Seq) (n : Nat) : Seq :=
  let rd := (List.range n).filter (fun k => (q.ctx k).st == .ready)
  match (rd.map (fun k => (q.ctx k).readyAt)).min? with
  | none => q
  | some t =>
    match ((List.range n).map (fun i => (q.last + 1 + i) % n)).find?
        (fun k => (q.ctx k).st == .ready && (q.ctx k).readyAt == t) with
    | none => q
    | some k => { q.select k (t + 3) with idleCyc := q.idleCyc + (t - q.idleFrom - 1), cyc := max q.cyc t }

/-- The reply of a remote operation reaches its context (R109, R171, R172, R283): a reply for a step that has ended is
discarded. -/
def State.replyTo (s : State) (u : SeqUnit) (k t : Nat) (r : RemoteOp) : State :=
  let s := { s with remote := s.remote.filter (fun x => x.id != r.id) }
  let q := s.seq u
  if r.orphan || q.step ≠ r.step || q.stopped || !q.active then s
  else
    let code := r.status.getD stOK
    let s := s.settle u t
    let s := s.onCtx u k (fun c =>
      let first := match c.fstatOp with
        | none => true
        | some o => decide (r.id < o)
      let c := if code ≠ stOK && first then
          { c with fstat := (statusWord code r.hint).toNat, fstatOp := some r.id } else c
      let c := match r.sd with
        | none => c
        | some d => { c with s := (c.s.put d (BitVec.ofNat 64 r.value)).put (d + 1) (statusWord code r.hint) }
      { c with outst := c.outst - 1, awaits := c.awaits.filter (fun i => i != r.id) })
    let s := match r.token with
      | none => s
      | some tok => s.sendToken tok (s.masterCode (.unit u)) r.part r.radio
    let c := (s.seq u).ctx k
    if c.st == .waitRemote && c.awaits.isEmpty then
      (s.onCtx u k Ctx.endFwait).setSeq u (((s.onCtx u k Ctx.endFwait).seq u).wake k t)
    else s

end Sys2Proof.Machine
end

