-- ==== Sys2Proof/Machine/Agu.lean ====
section
/-! DEFINITION. The meanings of the AGU slot rows (R97 to R99, R148, R149): each issues its bundle, with the operation in AGU0, or in AGU1 where `hi` says so. -/
namespace Sys2Proof.Machine

/-- AMOD (R148): AGU AMOD post-modifies Aa by Mm, wrapping in the window. -/
def execAmod (u : SeqUnit) (hi : Bool) (a m ww : BitVec 4) (w : Bundle) (s : State) :
    Host.Outcome State Fault Refusal :=
  .next (s.issue u (w.withAgu hi (.amod a m ww)))

/-- LD8 (R148): AGU LD8 loads a zero-extended byte into Sd. -/
def execLd8 (u : SeqUnit) (hi : Bool) (r : BitVec 5) (a m ww : BitVec 4) (w : Bundle) (s : State) :
    Host.Outcome State Fault Refusal :=
  .next (s.issue u (w.withAgu hi (.load .b8 r a m ww)))

/-- LD16 (R148): AGU LD16 loads a zero-extended 2 B into Sd. -/
def execLd16 (u : SeqUnit) (hi : Bool) (r : BitVec 5) (a m ww : BitVec 4) (w : Bundle) (s : State) :
    Host.Outcome State Fault Refusal :=
  .next (s.issue u (w.withAgu hi (.load .b16 r a m ww)))

/-- LD32 (R148): AGU LD32 loads a zero-extended 4 B into Sd. -/
def execLd32 (u : SeqUnit) (hi : Bool) (r : BitVec 5) (a m ww : BitVec 4) (w : Bundle) (s : State) :
    Host.Outcome State Fault Refusal :=
  .next (s.issue u (w.withAgu hi (.load .b32 r a m ww)))

/-- LD64 (R148): AGU LD64 loads 8 B into Sd. -/
def execLd64 (u : SeqUnit) (hi : Bool) (r : BitVec 5) (a m ww : BitVec 4) (w : Bundle) (s : State) :
    Host.Outcome State Fault Refusal :=
  .next (s.issue u (w.withAgu hi (.load .b64 r a m ww)))

/-- LDQS (R148): AGU LDQS loads 16 B into a scalar pair. -/
def execLdqs (u : SeqUnit) (hi : Bool) (r : BitVec 5) (a m ww : BitVec 4) (w : Bundle) (s : State) :
    Host.Outcome State Fault Refusal :=
  .next (s.issue u (w.withAgu hi (.load .qs r a m ww)))

/-- LDQW (R148): AGU LDQW loads a window descriptor. -/
def execLdqw (u : SeqUnit) (hi : Bool) (r : BitVec 5) (a m ww : BitVec 4) (w : Bundle) (s : State) :
    Host.Outcome State Fault Refusal :=
  .next (s.issue u (w.withAgu hi (.load .qw r a m ww)))

/-- LDQT (R148): AGU LDQT loads a tile descriptor. -/
def execLdqt (u : SeqUnit) (hi : Bool) (r : BitVec 5) (a m ww : BitVec 4) (w : Bundle) (s : State) :
    Host.Outcome State Fault Refusal :=
  .next (s.issue u (w.withAgu hi (.load .qt r a m ww)))

/-- LDQL (R148): AGU LDQL loads an inactive loop register with ACTIVE stored as 0. -/
def execLdql (u : SeqUnit) (hi : Bool) (r : BitVec 5) (a m ww : BitVec 4) (w : Bundle) (s : State) :
    Host.Outcome State Fault Refusal :=
  .next (s.issue u (w.withAgu hi (.load .ql r a m ww)))

/-- ST8 (R148): AGU ST8 stores Sa[7:0]. -/
def execSt8 (u : SeqUnit) (hi : Bool) (r : BitVec 5) (a m ww : BitVec 4) (w : Bundle) (s : State) :
    Host.Outcome State Fault Refusal :=
  .next (s.issue u (w.withAgu hi (.store .b8 r a m ww)))

/-- ST16 (R148): AGU ST16 stores Sa[15:0]. -/
def execSt16 (u : SeqUnit) (hi : Bool) (r : BitVec 5) (a m ww : BitVec 4) (w : Bundle) (s : State) :
    Host.Outcome State Fault Refusal :=
  .next (s.issue u (w.withAgu hi (.store .b16 r a m ww)))

/-- ST32 (R148): AGU ST32 stores Sa[31:0]. -/
def execSt32 (u : SeqUnit) (hi : Bool) (r : BitVec 5) (a m ww : BitVec 4) (w : Bundle) (s : State) :
    Host.Outcome State Fault Refusal :=
  .next (s.issue u (w.withAgu hi (.store .b32 r a m ww)))

/-- ST64 (R148): AGU ST64 stores Sa. -/
def execSt64 (u : SeqUnit) (hi : Bool) (r : BitVec 5) (a m ww : BitVec 4) (w : Bundle) (s : State) :
    Host.Outcome State Fault Refusal :=
  .next (s.issue u (w.withAgu hi (.store .b64 r a m ww)))

/-- STQS (R148): AGU STQS stores a scalar pair. -/
def execStqs (u : SeqUnit) (hi : Bool) (r : BitVec 5) (a m ww : BitVec 4) (w : Bundle) (s : State) :
    Host.Outcome State Fault Refusal :=
  .next (s.issue u (w.withAgu hi (.store .qs r a m ww)))

end Sys2Proof.Machine
end

