-- ==== Sys2Proof/Machine/RegOps.lean ====
section
/-! DEFINITION. Register accesses: which register an offset names (R11, R13), its power domain (R29, R574), who may write
it (R16, R258, R303), and how a write changes its fields by their access codes (R12 to R15). -/
namespace Sys2Proof.Machine

/-- The power domain that holds a register of a die (R29, R574, and the register's own table). -/
def domainOf (r : RegD) (die : Nat) : Nat :=
  match r.dom with
  | .seq => 2 * die + 1
  | .dsp => 32 + 2 * (die - 16)
  | .eng => 33 + 2 * (die - 16)
  | .port => 40 + 2 * (die - 20)
  | .fe => 41 + 2 * (die - 20)
  | .lpn => 44 + (die - 22)
  | .lpnw => 44 + (die - 22)
  | .phx => 48 + (die - 26)
  | .tlp => 52
  | .aon => 54
  | .tbi => 55
  | .core => 56
  | .pcie => 57
  | .dbg => 58
  | .main =>
    if die < 16 then 2 * die + 1 else if die < 20 then 32 + 2 * (die - 16) else if die < 22 then 40 + 2 * (die - 20)
    else if die < 26 then 44 + (die - 22) else if die < 30 then 48 + (die - 26) else if die = 30 then 52 else 56

/-- Whether a register sits in the PCIe and security domain's BAR0 space, which no die window holds (R481). -/
def RegD.inBar (r : RegD) : Bool := r.kind == .fn || r.kind == .fnpf || r.kind == .bar

/-- How an event names a register (R498): its global address, or its offset in BAR0 with SPACE 1. -/
def State.evTarget (s : State) (r : RegD) (die : Nat) (ix : List Nat) : Nat × Nat :=
  let k := r.at die ix
  if r.kind == .bar then (k - barBase, 1) else if r.inBar then (k % 0x100000, 1) else (s.globalAddr k, 0)

/-- A PROTECTION event for a register write that its master may not make (R16, R498). -/
def State.protectReg (s : State) (m : Master) (r : RegD) (die : Nat) (ix : List Nat) : State :=
  s.protection m (s.evTarget r die ix).1 (s.evTarget r die ix).2

/-- The status that an access to a register gets before its access codes apply (R3, R18, R29, R520).
A register answers by the power domain that its table names, so the reset of one unit fences none: firmware reads
DHL_CL_RSTATE and writes DHL_CL_SPARE_CMD on a fenced cluster (R43, R545). A chip reset fences the registers of the domains
that it switches OFF, so that the commands that end it stay reachable. -/
def State.regStatus (s : State) (r : RegD) (die : Nat) (ix : List Nat) : Nat :=
  if r.inBar then (if s.pdOn 57 then stOK else stNoUnit)
  else if !(s.dieOn die) || !(s.pdOn (domainOf r die)) then stNoUnit
  else if s.chipFenced && decide (domainOf r die < 54) then stFenced
  else stOK

/-- Whether a master may write a register of a writer class (R258, R486, R510, R572). -/
def mayWrite (w : Writer) (m : Master) : Bool :=
  match w with
  | .any => true
  | .p0 => actsP0 m
  | .own => true
  | .ring => true
  | .dbg1 => actsP0 m || (match m with
    | .debug p => decide (1 ≤ p)
    | _ => false)
  | .dbg2 => actsP0 m || (match m with
    | .debug p => decide (2 ≤ p)
    | _ => false)
  | .dbgauth => actsP0 m

/-- The access answered (R13, R17). -/
def State.answer (s : State) (st : Nat) (data : List Byte) : State := { s with ansStatus := st, ansData := data }

/-- The mask of a field's bits. -/
def FieldD.mask (f : FieldD) : Word := BitVec.ofNat 64 ((2 ^ (f.hi + 1 - f.lo) - 1) * 2 ^ f.lo)

/-- The mask of a register's fields of an access code. -/
def RegD.maskOf (r : RegD) (a : Acc) : Word :=
  r.fields.foldl (fun m f => if f.acc == a then m ||| f.mask else m) 0

/-- The part of a register that an access of a width at a byte covers: the whole or a half (R12). -/
def partMask (byteOff width : Nat) : Word :=
  if width = 8 then 0xFFFFFFFFFFFFFFFF else if byteOff % 8 = 4 then 0xFFFFFFFF00000000 else 0x00000000FFFFFFFF

/-- Whether an access has a legal width and alignment (R12). -/
def widthOk (off width : Nat) : Bool := (width == 8 && off % 8 == 0) || (width == 4 && off % 4 == 0)

/-- A register's word after a write by the access codes of its fields (R13 to R15): `locked` keeps the RWL fields, `fg`
lets the FG fields take the value. A field that takes its trigger from a write (WO) reads 0 and stores nothing. -/
def RegD.written (r : RegD) (old v part : Word) (locked fg : Bool) : Word :=
  let set (w m : Word) : Word := (w &&& ~~~ (m &&& part)) ||| (v &&& m &&& part)
  let w := set old (r.maskOf .rw)
  let w := if locked then w else set w (r.maskOf .rwl)
  let w := if fg then set w (r.maskOf .fg) else w
  let w := w &&& ~~~ (v &&& r.maskOf .w1c &&& part)
  w ||| (v &&& r.maskOf .w1s &&& part)

/-- Whether a register's lock is committed: its LOCK field reads 1 (R13). -/
def RegD.locked (r : RegD) (w : Word) : Bool :=
  (r.maskOf .rwl != 0) && (w &&& r.maskOf .w1s) != 0

/-- A write of a register by its access codes alone, with the PROTECTION events of R16 and R258: an FG write by a master
that is not Foxglove is discarded; a write that would change locked RWL bits is discarded in those bits. -/
def State.plainWrite (s : State) (m : Master) (r : RegD) (die : Nat) (ix : List Nat) (v part : Word) : State :=
  let old := s.reg r die ix
  let fgm := r.maskOf .fg
  let lk := r.locked old
  let badFg := fgm != 0 && m != .foxglove
  let badRwl := lk && ((old ^^^ v) &&& r.maskOf .rwl &&& part) != 0
  let s := s.setReg r die ix (r.written old v part lk (m == .foxglove))
  if badFg || badRwl then s.protectReg m r die ix else s

/-- A write of a register that has a row of its own, or whose write has an effect: the domain, the fence and the master's
right are checked as for any register, and the effect then happens. -/
def State.guardWrite (s : State) (m : Master) (r : RegD) (die : Nat) (ix : List Nat) (k : State → State) : State :=
  let st := s.regStatus r die ix
  if st ≠ stOK then s.answer st []
  else if !(mayWrite r.writer m) then (s.protectReg m r die ix).answer stOK []
  else (k s).answer stOK []

/-- A REFUSED event for a value written to a register (R498). -/
def State.refuseReg (s : State) (m : Master) (r : RegD) (die : Nat) (ix : List Nat) (v : Word) : State :=
  s.refusedIn (s.masterPart m) (s.evTarget r die ix).1 v (s.evTarget r die ix).2

/-- The index that a remainder of an offset gives in the dimensions of a register, outermost first. -/
def matchDims : List (Nat × Nat) → Nat → Option (List Nat)
  | [], 0 => some []
  | [], _ + 1 => none
  | (n, st) :: t, rel =>
    if st = 0 ∨ rel / st ≥ n then none
    else match matchDims t (rel % st) with
      | none => none
      | some is => some (rel / st :: is)

/-- The register among a list that an offset names, with its indexes. -/
def findReg : List RegD → Nat → Option (RegD × List Nat)
  | [], _ => none
  | r :: t, o =>
    if o < r.off then findReg t o
    else match matchDims r.dims (o - r.off) with
      | some is => some (r, is)
      | none => findReg t o

/-- The registers of the window of a die (R34): its own kind's, and those that every die holds. -/
def regsOfDie (die : Nat) : List RegD :=
  (if die < 16 then regsOf .dhl else if die < 20 then regsOf .irs else if die < 22 then regsOf .crk
   else if die < 26 then regsOf .lpn else if die < 30 then regsOf .phx else if die = 30 then regsOf .tlp
   else regsOf .prm) ++ regsOf .die ++ (if die < 20 then regsOf .diewp else [])

/-- The register that an 8-B offset of a die's window names (R11, R13). -/
def regAt (die o : Nat) : Option (RegD × List Nat) :=
  if die = 31 ∧ 0xF00000 ≤ o then findReg (regsOf .fxg) (o - 0xF00000) else findReg (regsOfDie die) o

end Sys2Proof.Machine
end

