-- ==== Sys2Proof/Machine/MemUnits.lean ====
section
/-! DEFINITION. The shared operations of the memories: bank-group power (R220 to R223), owner changes (R219), wipes of
sealed slices (R228, R229), and the tier-DMA engines (R244 to R246). -/
namespace Sys2Proof.Machine

/-! Bank groups. -/

/-- The bytes of bank group g of die d go to zero (R212, R219, R222): 4 MiB under group-wide interleave, its 1 KiB stripes
under die-wide interleave. -/
def State.zeroGroup (s : State) (d g : Nat) : State :=
  let wide := s.groupWide d
  let hit (a : Nat) : Bool := match regionOf a with
    | .sp x o => x == d && groupOf wide o == g
    | _ => false
  { s with mem := s.mem.keep (fun a => !(hit a)), badWords := s.badWords.filter (fun a => !(hit a)) }

/-- The state code of one bank group replaced. -/
def State.setBankSt (s : State) (d g v : Nat) : State := s.setFld R.dhlSpPwrState d [] (2 * g + 1) (2 * g) v

/-- Whether a running step schedules bank group g of die d. -/
def State.groupBusy (s : State) (d g : Nat) : Bool :=
  (List.range 8).any (fun l =>
    let q := s.seq (.cluster (8 * d + l))
    (q.active || q.done) && q.slice.getLsbD g)

/-- Whether a command on DHL_SP_PWR_CMD is refused whole (R221). -/
def State.pwrRefused (s : State) (d mask target : Nat) : Bool :=
  target == 3 || mask == 0 || (!(s.groupWide d) && mask != 0xFFFFFFFF) ||
  (maskList mask 32).any (fun g =>
    s.bankSt d g == 3 || (s.groupBusy d g && target != 0) || (s.bankSt d g == 2 && target == 1))

/-- The power command accepted: each named group that is not in the target state starts its transition; one that loses
its contents loses them now (R220 to R222). -/
def State.startPower (s : State) (d mask target : Nat) : State :=
  (maskList mask 32).foldl (fun s g =>
    if s.bankSt d g = target then s
    else
      let s := { s.setBankSt d g 3 with bankGo := s.bankGo.put (32 * d + g) target }
      if target = 2 then s.zeroGroup d g else s) s

/-- DHL_SP_PWR_CMD written (R221): the bits above GO are ignored; without GO nothing happens. -/
def State.writeSpPwr (s : State) (m : Master) (d : Nat) (v : Word) : State :=
  if !(v.getLsbD 40) then s
  else if s.pwrRefused d (getField v 31 0) (getField v 33 32) then s.refuseReg m R.dhlSpPwrCmd d [] v
  else s.startPower d (getField v 31 0) (getField v 33 32)

/-- One group's transition ends (R222): a group that comes from OFF is zero-filled. -/
def State.endPower (s : State) (d g : Nat) : State :=
  match s.bankGo.find (32 * d + g) with
  | none => s
  | some t => { s.setBankSt d g t with bankGo := s.bankGo.del (32 * d + g) }

/-! Owners. -/

/-- The owner byte of a unit (R215): 0 a bank group, 1 an exchange slot, 2 a sealed slice. -/
def State.ownerOf (s : State) (d kind unit : Nat) : Nat :=
  if kind = 0 then s.groupOwner d unit else if kind = 1 then s.slotOwner d unit else s.sliceOwner d unit

/-- The owner byte of a unit written by Foxglove (R215). -/
def State.setOwner (s : State) (d kind unit v : Nat) : State :=
  if kind = 0 then s.setFld R.dhlSpOwn d [unit / 8] (8 * (unit % 8) + 7) (8 * (unit % 8)) v
  else if kind = 1 then s.setFld R.dhlXchOwn d [unit / 8] (8 * (unit % 8) + 7) (8 * (unit % 8)) v
  else s.setFld R.dhlSealedOwn d [] (8 * (unit % 8) + 7) (8 * (unit % 8)) v

/-- Whether a step of a partition runs on a die. -/
def State.partRuns (s : State) (d p : Nat) : Bool :=
  (List.range 8).any (fun l =>
    let q := s.seq (.cluster (8 * d + l))
    (q.active || q.done) && q.part == p) ||
  s.steps.any (fun r => r.part == p && r.st != .waiting && r.st != .ended && r.clusters.any (fun c => c / 8 == d))

/-- DEFERRED shows the owner records that wait (R266). -/
def State.countDeferred (s : State) : State := s.setFld R.fxgChange 31 [] 31 16 s.ownerReqs.length

/-- An owner request taken off the list with its change in effect. -/
def State.finishOwner (s : State) (i : Nat) (r : OwnerReq) : State :=
  ({ s with ownerReqs := s.ownerReqs.eraseIdx i }.setOwner r.die r.kind r.unit r.owner).countDeferred

/-- A bank group made ready for its new owner, as far as its power state lets it (R219); none while it must wait. -/
def State.readyGroup (s : State) (d g : Nat) : Option State :=
  let st := s.bankSt d g
  if st = 0 then some (s.zeroGroup d g)
  else if st = 2 then some s
  else if st = 1 ∧ s.groupWide d then some ((s.zeroGroup d g).setBankSt d g 2)
  else none

/-- The i-th owner change applied, if it may be (R219): no step of the old owner's partition runs on the die, no earlier
change of the unit waits, a group is not in transition, a slice has been wiped. -/
def State.applyOwner (s : State) (i : Nat) : State :=
  match s.ownerReqs[i]? with
  | none => s
  | some r =>
    let earlier := (s.ownerReqs.take i).any (fun x => x.die == r.die && x.kind == r.kind && x.unit == r.unit)
    if earlier || r.wiping || s.partRuns r.die (s.ownerOf r.die r.kind r.unit) || !(s.pdOn (2 * r.die + 1)) then s
    else if r.kind = 0 then
      match s.readyGroup r.die r.unit with
      | none => s
      | some s => s.finishOwner i r
    else if r.kind = 1 then (s.zeroRange (xchBase r.die + r.unit * 0x10000) 0x10000).finishOwner i r
    else { s with
      ownerReqs := s.ownerReqs.set i { r with wiping := true }
      wipes := s.wipes ++ [{ die := r.die, cause := 3, slices := 2 ^ (r.unit % 8) }] }

/-! Wipes. -/

/-- Every DMA outstanding on a die's clusters, as the wipe leaves it (R229). -/
def State.holdDmas (s : State) (d : Nat) : State :=
  (List.range 8).foldl (fun s l =>
    let u := SeqUnit.cluster (8 * d + l)
    let q := s.seq u
    s.setSeq u { q with dmas := q.dmas.map s.holdDma }) s

/-- A wipe starts on a die (R228, R229): over the union with the wipe that runs, and its range reads as zeros. -/
def State.startWipe (s : State) (d cause slices : Nat) : State :=
  let all := (slices ||| s.wiped d) % 256
  let r := R.dhlSealedStatus
  let s := (((s.setFld r d [] 0 0 1).setFld r d [] 3 1 cause).setFld r d [] 15 8 all)
  let s := s.setFld r d [] 47 16 (s.fld r d [] 47 16 + 1)
  let s := s.holdDmas d
  (maskList all 8).foldl (fun s j => s.zeroRange (sealedBase d + j * 0x100000) 0x100000) s

/-- The DMAs that a wipe held complete where their end has come (R229). -/
def State.freeDmas (s : State) (d : Nat) : State :=
  (List.range 8).foldl (fun s l =>
    let u := SeqUnit.cluster (8 * d + l)
    let late := (s.seq u).dmas.filter (fun x => x.held && x.late)
    let q := s.seq u
    let s := s.setSeq u { q with dmas := q.dmas.map (fun x => { x with held := false }) }
    late.foldl (fun s x => s.endDma u { x with held := false }) s) s

/-- The owner changes whose slice a wipe has covered take effect (R219, R228). -/
def State.wipedOwners (s : State) (d : Nat) : List Nat → State
  | [] => s
  | j :: t =>
    let i := s.ownerReqs.findIdx (fun r => r.die == d && r.kind == 2 && r.unit == j && r.wiping)
    let s := match s.ownerReqs[i]? with
      | none => s
      | some r => s.finishOwner i r
    State.wipedOwners s d t

/-- A wipe ends on a die (R229). -/
def State.endWipe (s : State) (d : Nat) : State :=
  let sl := s.wiped d
  let s := s.setFld R.dhlSealedStatus d [] 0 0 0
  (s.freeDmas d).wipedOwners d (maskList sl 8)

/-! LPDDR5X and the tier-DMA engines. -/

/-- TIER_UP from the lock and the channels (R240, R249). -/
def State.tierUp (s : State) : State :=
  let mask := s.fld R.tlpCfg 30 [] 7 0
  let up := s.fld R.tlpCfg 30 [] 8 8 == 1 && (s.fld R.tlpStatus 30 [] 7 0 &&& mask) == mask
  s.setFld R.tlpStatus 30 [] 8 8 (b2n up)

/-- TLP_CFG written (R15, R240): CH_MASK takes 0xFF, 0x0F or 0xF0, any other value 0xFF, until the lock is committed. -/
def State.writeTlpCfg (s : State) (m : Master) (v part : Word) : State :=
  let r := R.tlpCfg
  if s.fld r 30 [] 8 8 = 1 then s.plainWrite m r 30 [] v part
  else
    let x := getField v 7 0
    let bad := (r.maskOf .rwl &&& part) != 0 && x != 0xFF && x != 0x0F && x != 0xF0
    let w := if bad then setField v 7 0 0xFF else v
    (s.plainWrite m r 30 [] w part).tierUp

/-- How many entries a tier-DMA ring has (R244). -/
def State.tierSlots (s : State) (e : Nat) : Nat := 2 ^ s.fld R.tlpDmaBase 30 [e] 51 48

/-- TLP_DMA_TAIL written (R249). -/
def State.writeTierTail (s : State) (m : Master) (e : Nat) (v part : Word) : State :=
  let old := s.reg R.tlpDmaTail 30 [e]
  let x := getField (R.tlpDmaTail.written old v part false false) 15 0
  if x ≥ s.tierSlots e then s.refuseReg m R.tlpDmaTail 30 [e] v else s.setFld R.tlpDmaTail 30 [e] 15 0 x

/-- TLP_DMA_BASE written (R246, R249): STOP clears and HEAD becomes 0. -/
def State.writeTierBase (s : State) (e : Nat) (v part : Word) : State :=
  let w := R.tlpDmaBase.written (s.reg R.tlpDmaBase 30 [e]) v part false false
  let bad := getField w 51 48 < 4 || 12 < getField w 51 48
  let w1 := setField w 4 0 0
  let w2 := if bad then setField w1 51 48 4 else w1
  let s := (s.setReg R.tlpDmaBase 30 [e] w2).setReg R.tlpDmaHead 30 [e] 0
  match s.tier.find e with
  | none => s
  | some j => { s with tier := s.tier.put e { j with stale := true } }

/-- A tier-DMA engine stops (R246). -/
def State.stopTier (s : State) (e : Nat) : State :=
  let old := s.fld R.tlpDmaHead 30 [e] 16 16
  (s.setFld R.tlpDmaHead 30 [e] 16 16 1).stateEvent (R.tlpDmaHead.at 30 [e]) old 1

/-- Whether a range lies in HBM3E or LPDDR5X that answers (R245, R246). -/
def State.tierRange (s : State) (off n : Nat) : Bool :=
  off + n ≤ 2 ^ 48 && s.memUp off && s.memUp (off + n - 1) &&
  (match regionOf off, regionOf (off + n - 1) with
  | .hbm a _, .hbm b _ => ((List.range (b + 1 - a)).all (fun i => s.memUp (hbmBase (a + i))))
  | .lpddr _, .lpddr _ => true
  | _, _ => false)

/-- The status that a descriptor's checks give (R246). -/
def State.tierCheck (s : State) (src dst len flags : Nat) (tok : Nat) : Nat :=
  if src % 4096 ≠ 0 ∨ dst % 4096 ≠ 0 ∨ len % 4096 ≠ 0 ∨ len < 4096 ∨ len > 2 ^ 30 ∨ flags ≥ 4 then stNoUnit
  else if flags / 2 = 1 ∧ (tokenTargetOf tok).isNone then stNoUnit
  else if src < dst + len ∧ dst < src + len then stNoUnit
  else if !(s.tierRange src len) || !(s.tierRange dst len) then stNoUnit
  else stOK

/-- The descriptor at HEAD taken by its engine (R244 to R246): an engine that cannot read it stops. -/
def State.startTier (s : State) (e : Nat) : State :=
  let head := s.fld R.tlpDmaHead 30 [e] 15 0
  if !(s.pdOn 52) || s.chipFenced || s.fld R.tlpDmaHead 30 [e] 16 16 == 1 || (s.tier.find e).isSome ||
      head == s.fld R.tlpDmaTail 30 [e] 15 0 then s
  else
    let a := s.fld R.tlpDmaBase 30 [e] 47 0 + 32 * head
    let home := match regionOf a with
      | .hbm .. => true
      | .lpddr _ => true
      | .xch .. => true
      | _ => false
    if !home || !(s.memUp a) then s.stopTier e
    else match s.badIn a 32 with
      | some w => (s.memError w 0).stopTier e
      | none =>
        let flags := s.num (a + 0x16) 2
        let j : TierJob := {
          at_ := a, src := s.num a 8, dst := s.num (a + 8) 8, len := s.num (a + 0x10) 4,
          status := s.tierCheck (s.num a 8) (s.num (a + 8) 8) (s.num (a + 0x10) 4) flags (s.num (a + 0x18) 8)
          evt := bitOf flags 0, token := if bitOf flags 1 then tokenTargetOf (s.num (a + 0x18) 8) else none }
        { s with tier := s.tier.put e j }

/-- The bytes of [src, src + n) copied to dst (R245). -/
def State.copyRange (s : State) (src dst n : Nat) : State :=
  let cells := (s.mem.filter (fun c => decide (src ≤ c.1) && decide (c.1 < src + n))).map (fun c => (dst + (c.1 - src), c.2))
  let s := s.zeroRange dst n
  { s with mem := cells.foldl (fun m c => Memory.write m c.1 c.2) s.mem }

/-- What a descriptor moves (R242, R246): all of it, or what lies before the first word in error; and its status. -/
def State.moveTier (s : State) (e : Nat) (j : TierJob) : State × Nat :=
  if j.status ≠ stOK then (s, j.status)
  else if !(s.tierRange j.src j.len) || !(s.tierRange j.dst j.len) then (s, stNoUnit)
  else match ((s.badWords.filter (fun a => decide (j.src ≤ a) && decide (a < j.src + j.len))).min?) with
    | none => (((s.copyRange j.src j.dst j.len).access (.tier e) j.src j.len false).access (.tier e) j.dst j.len true, stOK)
    | some w => ((s.copyRange j.src j.dst (w - j.src)).memError w 0, stUncorr)

/-- A descriptor ends, but not during a global stop (R244 to R246, R558): what it moved, STATUS last, HEAD advanced, the event and the token. -/
def State.endTier (s : State) (e : Nat) : State :=
  match if s.gstopped then none else s.tier.find e with
  | none => s
  | some j =>
    let r := s.moveTier e j
    let s := r.1.store (j.at_ + 0x14) (leBytes 2 (r.2 + 0x8000))
    let s := s.pmuAt 30 0x83 none (if r.2 = stOK then cdiv j.len 64 else 0)
    let s := { s with tier := s.tier.del e }
    let head := s.fld R.tlpDmaHead 30 [e] 15 0
    let s := if j.stale then s else s.setFld R.tlpDmaHead 30 [e] 15 0 ((head + 1) % s.tierSlots e)
    let s := if j.evt then s.stateEvent (R.tlpDmaHead.at 30 [e]) 1 0 else s
    match j.token with
    | none => s
    | some t => s.sendToken t (s.masterCode (.tier e)) 0 false

end Sys2Proof.Machine
end

