-- ==== Sys2Proof/Machine/Sha3.lean ====
section
/-! DEFINITION. SHA3-256 (FIPS 202), by which the device computes every digest (R123, R466 to R469, R504). -/
namespace Sys2Proof.Machine

/-- A Keccak state: 25 lanes of 64 bits, lane (x, y) at index x + 5 × y. -/
abbrev Lanes := List (BitVec 64)

/-- Lane i of a state. -/
def lane (a : Lanes) (i : Nat) : BitVec 64 := a.getD i 0

/-- The round constants of the step iota. -/
def keccakRC : List (BitVec 64) := [
  0x0000000000000001, 0x0000000000008082, 0x800000000000808A, 0x8000000080008000, 0x000000000000808B,
  0x0000000080000001, 0x8000000080008081, 0x8000000000008009, 0x000000000000008A, 0x0000000000000088,
  0x0000000080008009, 0x000000008000000A, 0x000000008000808B, 0x800000000000008B, 0x8000000000008089,
  0x8000000000008003, 0x8000000000008002, 0x8000000000000080, 0x000000000000800A, 0x800000008000000A,
  0x8000000080008081, 0x8000000000008080, 0x0000000080000001, 0x8000000080008008]

/-- The rotation of lane (x, y) in the step rho, at index x + 5 × y. -/
def keccakRot : List Nat := [
  0, 1, 62, 28, 27, 36, 44, 6, 55, 20, 3, 10, 43, 25, 39, 41, 45, 15, 21, 8, 18, 2, 61, 56, 14]

/-- The step theta. -/
def keccakTheta (a : Lanes) : Lanes :=
  let c (x : Nat) : BitVec 64 :=
    lane a (x % 5) ^^^ lane a (x % 5 + 5) ^^^ lane a (x % 5 + 10) ^^^ lane a (x % 5 + 15) ^^^ lane a (x % 5 + 20)
  (List.range 25).map (fun i => lane a i ^^^ c (i + 4) ^^^ (c (i + 1)).rotateLeft 1)

/-- The steps rho and pi: lane (x, y) takes lane (x + 3y, x) rotated. -/
def keccakRhoPi (a : Lanes) : Lanes :=
  (List.range 25).map (fun i =>
    let x := i % 5
    let y := i / 5
    let j := (x + 3 * y) % 5 + 5 * x
    (lane a j).rotateLeft (keccakRot.getD j 0))

/-- The step chi. -/
def keccakChi (a : Lanes) : Lanes :=
  (List.range 25).map (fun i =>
    let r := 5 * (i / 5)
    lane a i ^^^ (~~~ (lane a (r + (i + 1) % 5)) &&& lane a (r + (i + 2) % 5)))

/-- One round of Keccak-f[1600]: in the step chi, r is a multiple of 5, so that (i + 1) mod 5 is the next column. -/
def keccakRound (a : Lanes) (rc : BitVec 64) : Lanes :=
  match keccakChi (keccakRhoPi (keccakTheta a)) with
  | [] => []
  | l :: t => (l ^^^ rc) :: t

/-- Keccak-f[1600]. -/
def keccakF (a : Lanes) : Lanes := keccakRC.foldl keccakRound a

/-- The lanes of a block of bytes. -/
def lanesOf : Nat → List Byte → Lanes
  | 0, _ => []
  | n + 1, b => BitVec.ofNat 64 (leNat (b.take 8)) :: lanesOf n (b.drop 8)

/-- A block of 136 bytes absorbed. -/
def absorb (a : Lanes) (block : List Byte) : Lanes :=
  let b := lanesOf 17 block
  keccakF ((List.range 25).map (fun i => lane a i ^^^ lane b i))

/-- The padded message: 0x06, zeros, and the top bit of the last byte, to a multiple of 136 bytes. -/
def sha3Pad (m : List Byte) : List Byte :=
  let k := 136 - m.length % 136
  if k = 1 then m ++ [0x86] else m ++ (0x06 :: List.replicate (k - 2) 0) ++ [0x80]

/-- The blocks of a padded message absorbed in order. -/
def absorbAll (a : Lanes) : Nat → List Byte → Lanes
  | 0, _ => a
  | n + 1, m => absorbAll (absorb a (m.take 136)) n (m.drop 136)

/-- SHA3-256 of a message: 32 bytes. -/
def sha3 (m : List Byte) : List Byte :=
  let p := sha3Pad m
  let a := absorbAll (List.replicate 25 0) (p.length / 136) p
  ((a.take 4).map (fun l => leBytes 8 l.toNat)).flatten

end Sys2Proof.Machine
end

