-- ==== Sys2Proof/Machine/RingOps.lean ====
section
/-! DEFINITION. Ring pairs, commands and completions (R485 to R496, R592), and the checks that a command and a step image
meet at fetch (R124, R264, R462 to R464, R489 to R491). -/
namespace Sys2Proof.Machine

/-- A field of a command's 64 bytes (R489, R490). -/
def Cmd.field (c : Cmd) (off n : Nat) : Nat := leNat ((c.bytes.drop off).take n)

/-- A field of a list of bytes. -/
def fieldOf (b : List Byte) (off n : Nat) : Nat := leNat ((b.drop off).take n)

/-- A ring pair. -/
def State.ring (s : State) (r : Nat) : Ring := s.rings.getD r {}

/-- The state with a ring pair replaced. -/
def State.setRing (s : State) (r : Nat) (g : Ring) : State := { s with rings := s.rings.put r g }

/-- The partition of a ring (R384). -/
def State.ringPart (s : State) (r : Nat) : Nat := s.fld R.prmRingCfg 31 [r] 13 8

/-- Whether a ring is fetched (R383). -/
def State.ringOn (s : State) (r : Nat) : Bool := s.fld R.prmRingCfg 31 [r] 0 0 == 1

/-- The submission slots of a ring (R512). -/
def State.sqSlots (s : State) (r : Nat) : Nat := 2 ^ s.fld R.prmRingSq 31 [r] 3 0

/-- The completion slots of a ring (R512). -/
def State.cqSlots (s : State) (r : Nat) : Nat := 2 ^ s.fld R.prmRingCq 31 [r] 3 0

/-- Whether a completion slot is released (R494): the host has passed it and, for a STEP, its stamp is written or 1 ms has
gone by. -/
def CqSlot.released (c : CqSlot) (lc : Nat) : Bool := c.passed && (!c.step || c.stamped || decide (c.lc + 1000000 ≤ lc))

/-- The completion slots of a ring that are free beyond those its fetched commands will take (R488). -/
def State.cqFree (s : State) (r : Nat) : Nat :=
  let g := s.ring r
  s.cqSlots r - (g.slots.filter (fun c => !(c.released s.lc))).length - (s.cmds.filter (fun c => c.ring == r)).length

/-- A status word (R485). -/
def statusWordOf (code detail ndet hint : Nat) : Nat :=
  code % 256 + detail % 256 * 2 ^ 8 + ndet % 65536 * 2 ^ 16 + hint % 65536 * 2 ^ 32

/-- The MSI-X message of a completion (R496): sent at once, or shared at the end of the microsecond. -/
def State.ringMsix (s : State) (r : Nat) : State :=
  let g := s.ring r
  let soon := match g.msixLc with
    | none => none
    | some l => if s.lc < l + 1000 then some (l + 1000) else none
  match soon with
  | some due => s.setRing r { g with msixDue := some due }
  | none => (s.setRing r { g with msixLc := some s.lc }).sendMsix (s.ringPart r) (s.fld R.prmRingVec 31 [r] 10 0)

/-- A completion entry of 64 B, stamp fields 0 (R493). -/
def completionEntry (status cmdId sqHead value : Nat) (yellow phase : Bool) : List Byte :=
  leBytes 8 status ++ leBytes 4 cmdId ++ leBytes 2 sqHead ++ leBytes 2 (b2n yellow) ++ leBytes 8 value ++
  leBytes 8 (b2n phase) ++ leBytes 32 0

/-- The entry at the tail of a completion queue, which then advances; PHASE inverts as it wraps (R493). -/
def State.pushCompletion (s : State) (r : Nat) (c : Cmd) (status value : Nat) : State :=
  let g := s.ring r
  let base := s.fld R.prmRingCq 31 [r] 63 6 * 64
  let s := s.hostStore (base + 64 * g.cqTail)
    (completionEntry status (c.field 0x08 4) c.sqHead value c.yellow g.phase)
  let t := g.cqTail + 1
  let wrap := decide (t ≥ s.cqSlots r)
  s.setRing r { g with
    cqTail := if wrap then 0 else t, phase := g.phase ^^ wrap
    slots := (g.slots.filter (fun x => !(x.released s.lc) && x.slot != g.cqTail)) ++
      [{ slot := g.cqTail, step := c.field 0 1 == 1, lc := s.lc }] }

/-- A command completes (R493): its ready word, its completion entry and its interrupt. -/
def State.finishCmd (s : State) (c : Cmd) (code detail ndet hint value : Nat) : State :=
  let s := { s with cmds := s.cmds.filter (fun x => x.id != c.id) }
  let ready := c.field 0x10 8
  let s := if ready = 0 then s else s.hostStore ready (leBytes 4 (c.field 0x0C 4) ++ leBytes 4 (c.field 0x08 4))
  let s := (s.pmu 31 0xA2 0 1).pushCompletion c.ring c (statusWordOf code detail ndet hint) value
  if bitOf (c.field 1 1) 2 then s.ringMsix c.ring else s

/-- The command of a number completes, if it is outstanding. -/
def State.completeId (s : State) (id code detail ndet hint value : Nat) : State :=
  match s.cmds.find? (fun c => c.id == id) with
  | none => s
  | some c => s.finishCmd c code detail ndet hint value

/-- The oldest command of a ring that a test picks. -/
def State.ringCmd (s : State) (r : Nat) (p : Cmd → Bool) : Option Cmd := s.cmds.find? (fun c => c.ring == r && p c)

/-- A command marked as started. -/
def State.startCmd (s : State) (c : Cmd) : State :=
  { s with cmds := s.cmds.map (fun x => if x.id = c.id then { x with started := true } else x) }

/-! The checks of a step image (R123, R124, R462 to R464). -/

/-- Whether an epoch is accepted (R264). -/
def State.epochOk (s : State) (e : Nat) : Bool :=
  let w := s.reg R.fxgEpoch 31 []
  e == getField w 15 0 || (e == getField w 31 16 && getField w 32 32 == 1)

/-- The partition setting for an epoch (R265): previous steps keep the previous settings. -/
def State.ptCfg (s : State) (epoch p : Nat) : Word :=
  let w := s.reg R.fxgEpoch 31 []
  if epoch ≠ getField w 15 0 ∧ epoch = getField w 31 16 then
    s.prevPt.getD p 0
  else s.reg R.fxgPtCfg 31 [p]

/-- The stretch guard for an epoch (R265). -/
def State.stretchG (s : State) (epoch : Nat) : Nat :=
  let w := s.reg R.fxgEpoch 31 []
  if epoch ≠ getField w 15 0 ∧ epoch = getField w 31 16 then s.prevG else s.fld R.fxgCfg 31 [] 7 0

/-- Whether a partition runs in exact mode for an epoch. -/
def State.exactMode (s : State) (epoch p : Nat) : Bool := (s.ptCfg epoch p).getLsbD 1

/-- The device's signature (R463). -/
def State.signature (s : State) : Nat :=
  (s.reg R.prmAsig0 31 []).toNat + (s.reg R.prmAsig1 31 []).toNat * 2 ^ 64

/-- The effective signature of a step (R463). -/
def State.effSignature (s : State) (exact : Bool) : Nat := s.signature + (if exact then 2 else 1) * 256

/-- Whether an image's signature differs from the step's effective signature (R464). -/
def signatureDiffers (img eff : Nat) : Bool :=
  let f (hi lo : Nat) : Bool := bitsOf img hi lo != 0 && bitsOf img hi lo != bitsOf eff hi lo
  img != 0 && (bitsOf img 7 0 != 1 || bitsOf img 15 10 != 0 || bitsOf img 127 96 != 0 || bitsOf img 9 8 == 3 ||
    f 9 8 || f 23 16 || f 31 24 || f 47 32 || f 79 48 || f 95 80)

/-- An image with its digest field read as zeros (R123). -/
def undigested (b : List Byte) : List Byte := b.take 0x40 ++ List.replicate 32 0 ++ b.drop 0x60

/-- The checks of a header for a profile that no submission bears on (R123, R124): `limit` is the profile's most
bundles. -/
def headerBad (h : List Byte) (profile limit : Nat) : Bool :=
  let flags := fieldOf h 7 1
  let ctx := fieldOf h 0x12 1
  let code := fieldOf h 0x1C 4
  fieldOf h 0 4 != 0x56495853 || fieldOf h 4 2 != 1 || fieldOf h 6 1 != profile || decide (flags ≥ 8) ||
  decide (fieldOf h 8 8 ≥ 2 ^ 40) || ctx % 2 == 0 || decide (fieldOf h 0x13 1 > 26) ||
  decide (fieldOf h 0x18 4 ≥ 32) || code == 0 || decide (code > limit) ||
  (profile == 1 && (bitOf flags 1 || decide (ctx ≥ 16))) || fieldOf h 0x70 144 != 0 ||
  (maskList ctx 8).any (fun k => decide (fieldOf h (0x20 + 4 * k) 4 ≥ code))

/-- Whether an image's digest does not match (R124). -/
def digestBad (img : List Byte) : Bool := sha3 (undigested img) != (img.drop 0x40).take 32

/-- The bytes of an image, header and code, at a node offset. -/
def State.imageBytes (s : State) (off : Nat) : List Byte :=
  let h := s.bytes off 256
  h ++ s.bytes (off + 256) (32 * min (fieldOf h 0x1C 4) 8192)

/-- The status of a step's image for a partition and a mode (R124, R242): its range, its header and its digest. -/
def State.imageCheck (s : State) (part off : Nat) (exact : Bool) (radio : Option Bool) : Nat :=
  let home := match regionOf off with
    | .hbm .. => true
    | .xch .. => true
    | _ => false
  if !home || off % 256 != 0 then stNoUnit
  else
    let st := s.memStatus part off 256
    if st ≠ stOK then st
    else
      let h := s.bytes off 256
      let flags := fieldOf h 7 1
      let width := fieldOf h 0x10 2
      if headerBad h 0 8192 || width == 0 || decide (width > s.numClusters) || (match radio with
          | none => false
          | some b => bitOf flags 2 != b) ||
          (bitOf flags 0 && !exact) || signatureDiffers (fieldOf h 0x60 16) (s.effSignature exact) then stNoUnit
      else
        let n := 256 + 32 * fieldOf h 0x1C 4
        let st := s.memStatus part off n
        if st ≠ stOK then st else if digestBad (s.imageBytes off) then stNoUnit else stOK

/-- The status of the image of a STEP command (R124). -/
def State.imageStatus (s : State) (part off epoch : Nat) (radio : Bool) : Nat :=
  s.imageCheck part off (s.exactMode epoch part) (some radio)

/-! The checks of a command (R489 to R491). -/

/-- The status of a range for a partition's command; an error in it is met when it is read. -/
def State.rangeStatus (s : State) (part off n : Nat) : Nat :=
  let st := s.memStatus part off n
  if st = stUncorr then stOK else st

/-- The provenance block of a STEP (R490): its entry, its input ranges and its output ranges. -/
def State.provBlock (s : State) (off : Nat) : Nat × List (Nat × Nat) × List (Nat × Nat) :=
  let nin := s.num (off + 2) 1
  let nout := s.num (off + 3) 1
  let rng (i : Nat) : Nat × Nat := (s.num (off + 8 + 16 * i) 8, s.num (off + 16 + 16 * i) 8)
  (s.num off 2, (List.range nin).map rng, (List.range nout).map (fun i => rng (nin + i)))

/-- Whether range entries are multiples of 64 B within the offset map. -/
def rangesOk (l : List (Nat × Nat)) : Bool :=
  l.all (fun r => r.1 % 64 == 0 && r.2 % 64 == 0 && decide (r.1 + r.2 ≤ 2 ^ 48))

/-- The worst status of a list of ranges for a partition (R18). -/
def State.rangesStatus (s : State) (part : Nat) (l : List (Nat × Nat)) : Nat :=
  l.foldl (fun st r => stFirst st (if r.2 = 0 then stOK else s.rangeStatus part r.1 r.2)) stOK

/-- Whether a partition owns a weight-set entry (R466): entry 0 is everyone's. -/
def State.ownsEntry (s : State) (part e : Nat) : Bool :=
  e == 0 || (match s.wsets.find e with
    | none => false
    | some w => w.owner == part)

/-- The status of a provenance block for a partition (R467, R490). -/
def State.provStatus (s : State) (part off : Nat) : Nat :=
  if off % 64 ≠ 0 then stNoUnit
  else
    let st := s.memStatus part off 8
    if st ≠ stOK then st
    else if s.num (off + 2) 1 > 8 || s.num (off + 3) 1 > 8 || s.num (off + 4) 4 != 0 then stNoUnit
    else
      let n := 8 + 16 * (s.num (off + 2) 1 + s.num (off + 3) 1)
      let st := s.memStatus part off n
      if st ≠ stOK then st
      else
        let p := s.provBlock off
        if p.1 > 4095 || !(s.ownsEntry part p.1) || !(rangesOk p.2.1) || !(rangesOk p.2.2) then stNoUnit
        else s.rangesStatus part (p.2.1 ++ p.2.2)

/-- The bytes that an atomic of a KIND names (R173). -/
def atomicBytes (kind : Nat) : Nat := if kind = 1 ∨ kind = 2 ∨ kind = 9 ∨ kind = 10 then 4 else 8

/-- Whether the body of a command has a field out of its range or a reserved byte that is not 0 (R490). -/
def bodyBad (b : List Byte) (frameMax : Nat) : Bool :=
  let op := fieldOf b 0 1
  let f := fieldOf b
  if op = 1 then
    f 0x18 8 % 256 != 0 || f 0x28 4 % 512 != 0 || decide (f 0x28 4 + 512 > 0x200000) || f 0x2C 4 != 0 || f 0x38 8 != 0
  else if op = 2 then
    f 0x18 8 % 64 != 0 || f 0x20 8 % 64 != 0 || f 0x28 4 % 64 != 0 || f 0x28 4 == 0 || decide (f 0x28 4 > 2 ^ 26) ||
    decide (f 0x2C 1 > 1) || f 0x2D 19 != 0
  else if op = 3 then
    let o := f 0x3C 1
    let sz := f 0x38 4
    let rw := o == 8 || o == 9
    let blk := o == 0xB || o == 0xC
    decide (o < 8) || decide (o > 0xC) || f 0x3E 2 != 0 ||
    (rw && !(sz == 1 || sz == 2 || sz == 4 || sz == 8)) ||
    (blk && (sz % 64 != 0 || sz == 0 || decide (sz > 2 ^ 26) || f 0x20 8 % 64 != 0 || f 0x18 8 % 64 != 0)) ||
    (rw && f 0x18 8 % (max sz 1) != 0) ||
    (o == 0xA && (decide (f 0x3D 1 ≥ 0xB) || f 0x18 8 % atomicBytes (f 0x3D 1) != 0))
  else if op = 4 then
    f 0x18 2 == 0 || decide (f 0x18 2 > 4095) || f 0x1A 1 == 0 || decide (f 0x1A 1 > 16) || f 0x1B 5 != 0 ||
    f 0x20 8 % 64 != 0 || f 0x28 8 % 32 != 0 || f 0x30 16 != 0
  else if op = 5 then
    decide (f 0x18 1 > 31) || decide (f 0x19 1 > 7) || decide (f 0x1A 2 < 64) || decide (f 0x1A 2 > frameMax) ||
    f 0x1C 4 != 0 || f 0x28 24 != 0
  else true

/-- The status of a command's device ranges for a partition (R491). -/
def State.bodyStatus (s : State) (part : Nat) (b : List Byte) : Nat :=
  let op := fieldOf b 0 1
  let f := fieldOf b
  if op = 1 then
    let st := s.imageStatus part (f 0x18 8) (f 4 2) (bitOf (f 1 1) 0)
    if bitOf (f 1 1) 1 then stFirst st (s.provStatus part (f 0x30 8)) else st
  else if op = 2 then s.rangeStatus part (f 0x20 8) (f 0x28 4)
  else if op = 3 then
    if f 0x3C 1 = 0xB ∨ f 0x3C 1 = 0xC then s.rangeStatus part (f 0x20 8) (f 0x38 4) else stOK
  else if op = 4 then
    let st := s.memStatus part (f 0x20 8) (16 * f 0x1A 1)
    if st ≠ stOK then st
    else
      let l := (List.range (f 0x1A 1)).map (fun i => (s.num (f 0x20 8 + 16 * i) 8, s.num (f 0x20 8 + 16 * i + 8) 8))
      if rangesOk l then s.rangesStatus part l else stNoUnit
  else stOK

/-- The status of a RADIO step's cluster range (R277, R489). -/
def State.lbaseBad (s : State) (b : List Byte) : Bool :=
  let radio := bitOf (fieldOf b 1 1) 0
  let lb := fieldOf b 6 2
  if radio then decide (lb + s.num (fieldOf b 0x18 8 + 0x10) 2 > s.numClusters) else lb != 0

/-- The longest frame of the port that a FRAME names (R366). -/
def State.frameMax (s : State) (port : Nat) : Nat := s.fld R.crkPortCfg (20 + port / 16 % 2) [] 37 24

/-- The verdict on a command at fetch (R18, R264, R489 to R491, R520): OK, or the status it completes with. -/
def State.verdict (s : State) (r : Nat) (b : List Byte) : Nat :=
  let part := s.ringPart r
  let flags := fieldOf b 1 1
  let op := fieldOf b 0 1
  let st :=
    if op == 0 || decide (op > 5) || decide (flags ≥ 8) || fieldOf b 2 1 != s.fld R.prmRingCfg 31 [r] 2 1 ||
        fieldOf b 3 1 != 0 || fieldOf b 0x10 8 % 8 != 0 || bodyBad b (s.frameMax (fieldOf b 0x18 1)) ||
        (op != 1 && decide (flags % 4 ≠ 0)) || ((op == 5 || bitOf flags 0) && part != 0) then stNoUnit
    else
      let st := s.bodyStatus part b
      if st = stOK ∧ op = 1 ∧ s.lbaseBad b then stNoUnit else st
  let st := if s.fenced 2 part then stFirst st stFenced else st
  if s.epochOk (fieldOf b 4 2) then st else stFirst st stStale

/-- What a command costs at its meter and shaper (R368). -/
def State.cmdCost (s : State) (b : List Byte) : Nat :=
  let op := fieldOf b 0 1
  if op = 1 then
    let img := fieldOf b 0x18 8
    cdiv (s.num (img + 0x10) 2 * s.num (img + 8) 8) 1024
  else
    let n := if op = 2 then fieldOf b 0x28 4
      else if op = 3 then (if fieldOf b 0x3C 1 = 0xA then 8 else fieldOf b 0x38 4)
      else if op = 4 then
        let l := fieldOf b 0x20 8
        ((List.range (fieldOf b 0x1A 1)).map (fun i => s.num (l + 16 * i + 8) 8)).sum
      else fieldOf b 0x1A 2
    max 1 (cdiv n 1024)

/-- The key of the meter of a ring's partition and class (R367, R391). -/
def State.ringMeter (s : State) (r : Nat) : Nat :=
  R.prmMtr.at 31 [4 * s.ringPart r + s.fld R.prmRingCfg 31 [r] 2 1]

/-- The key of a ring's shaper (R391). -/
def ringShaper (r : Nat) : Nat := R.prmRingShp.at 31 [r]

/-- The commands that a step waits for or that are passed and not yet placed: the admission unit holds at most 4,096
(R272). -/
def State.admissionFull (s : State) : Bool :=
  decide ((s.steps.filter (fun r => r.st == .waiting)).length +
    (s.cmds.filter (fun c => !c.started && c.field 0 1 == 1)).length ≥ 4096)

/-- Whether lock-step runs for a ring's partition (R471, R472). -/
def State.inLockstep (s : State) (r : Nat) : Bool :=
  s.fld R.prmLsStat 31 [] 1 0 == 1 && s.fld R.prmLsCfg 31 [] 6 1 == s.ringPart r

/-- A STEP in lock-step takes the next step sequence number (R472). -/
def State.numberStep (s : State) (c : Cmd) : State :=
  if s.inLockstep c.ring && c.field 0 1 == 1 then
    let n := s.fld R.prmLsSeq 31 [] 31 0
    ({ s with cmds := s.cmds.map (fun (x : Cmd) => if x.id = c.id then { x with lsSeq := some n } else x) }).setFld
      R.prmLsSeq 31 [] 31 0 (n + 1)
  else s

/-- A command fetched (R383): the submission head advances past it. -/
def State.takeCmd (s : State) (r : Nat) (b : List Byte) (yellow : Bool) (lc : Nat) : State × Cmd :=
  let g := s.ring r
  let h := (g.sqHead + 1) % s.sqSlots r
  let c : Cmd := { id := s.nextCmd, ring := r, part := s.ringPart r, bytes := b, sqHead := h, yellow := yellow, lc := lc,
                   cost := s.cmdCost b }
  (({ s.pmu 31 0xA1 0 1 with cmds := s.cmds ++ [c], nextCmd := s.nextCmd + 1, ringScan := r + 1 }).setRing r { g with sqHead := h }, c)

/-- The command at a ring's head, of 64 bytes. -/
def State.headBytes (s : State) (r : Nat) : List Byte :=
  s.hostBytes (s.fld R.prmRingSq 31 [r] 63 6 * 64 + 64 * (s.ring r).sqHead) 64

/-- HELD of a ring (R391). -/
def State.setHeld (s : State) (r v : Nat) : State := s.setFld R.prmRingCfg 31 [r] 16 16 v

/-- A command that passed its checks fetched (R383, R472). -/
def State.passCmd (s : State) (r : Nat) (b : List Byte) (yellow : Bool) (lc : Nat) : State :=
  let t := s.takeCmd r b yellow lc
  t.1.numberStep t.2

/-- The head command of one ring met (R376, R377, R383, R491): it fails its checks and completes, it is metered and
fetched, or it is held red. -/
def State.fetchHead (s : State) (r : Nat) : State :=
  let b := s.headBytes r
  let v := s.verdict r b
  let held := s.held.find? (fun h => h.by_ == HeldBy.ring r)
  let drop := ({ s with held := s.held.filter (fun h => h.by_ != HeldBy.ring r) }).setHeld r 0
  if v ≠ stOK then
    let t := drop.takeCmd r b false s.lc
    t.1.finishCmd t.2 v 0 0 0 0
  else if bitOf (fieldOf b 1 1) 0 then drop.passCmd r b false s.lc
  else match held with
    | some h => (match h.mark with
      | some m => drop.passCmd r b m.1 m.2
      | none => s)
    | none =>
      let cost := s.cmdCost b
      let key := s.ringMeter r
      let m := s.meet key cost
      match m.1 with
      | .red =>
        let h : HeldUnit := { by_ := .ring r, meter := key, cost := cost }
        ({ m.2 with held := m.2.held ++ [h] }).setHeld r 1
      | c => m.2.passCmd r b (c == .yellow) m.2.lc

/-- Whether a ring may be fetched from (R383, R488): enabled, with a command and a completion slot for it, and
neither held up by lock-step (R472, R475) nor stopped by a tamper event or a chip reset (R507, R534). -/
def State.mayFetch (s : State) (r : Nat) : Bool :=
  let g := s.ring r
  let stat := s.fld R.prmLsStat 31 [] 1 0
  let ahead := s.inLockstep r && fieldOf (s.headBytes r) 0 1 == 1 &&
    decide (s.fld R.prmLsSeq 31 [] 31 0 > s.fld R.prmLsSeq 31 [] 63 32 + 1023)
  s.ringOn r && g.sqHead != g.sqTail && decide (s.cqFree r > 0) && stat != 2 && !ahead && !s.tamperStop && !s.chipFenced && !s.gstopped

/-- One pass over a list of rings (R383). -/
def State.fetchPass (s : State) : List Nat → State
  | [] => s
  | r :: t => if s.admissionFull then s else State.fetchPass (if s.mayFetch r then s.fetchHead r else s) t

/-- A pass of the host-ring engine (R383): ascending ring numbers from after the ring at which
the last pass stopped. -/
def State.ringFetch (s : State) : State :=
  let rs := s.rings.map (fun e => e.1)
  s.fetchPass ((rs.filter (fun r => decide (s.ringScan ≤ r))) ++ rs.filter (fun r => decide (r < s.ringScan)))

end Sys2Proof.Machine
end

