-- ==== Sys2Proof/Machine/FxgOps.lean ====
section
/-! DEFINITION. The slot guard and the admission unit (R250 to R290): gate lists and windows, change sets, budgets, the
placement of a step, its completion, its abort, and the release of its clusters. -/
namespace Sys2Proof.Machine

/-! Gate lists. -/

/-- A gate-list entry (R256). -/
structure GateEntry where
  dur : Nat
  type : Nat
  resv : Nat
  last : Bool
  deriving DecidableEq, Repr

/-- The entry that 32 bits spell (R256). -/
def gateEntry (v : Nat) : GateEntry :=
  { dur := bitsOf v 23 0, type := bitsOf v 25 24, resv := bitsOf v 30 26, last := bitOf v 31 }

/-- The entries of a list up to its LAST bit, and whether it has one within n entries (R256, R257). -/
def gateTake (w : Nat → Nat) : Nat → Nat → List GateEntry × Bool
  | _, 0 => ([], false)
  | i, n + 1 =>
    let e := gateEntry (w i)
    if e.last then ([e], true)
    else
      let r := gateTake w (i + 1) n
      (e :: r.1, r.2)

/-- Half i of a run of 64-bit words, the lower half first (R256). -/
def halfWord (w : Nat → Word) (i : Nat) : Nat := (w (i / 2)).toNat / 2 ^ (32 * (i % 2)) % 2 ^ 32

/-- The operating list of logical cluster c (R252); with no list in force a single GUARD entry (R255). -/
def State.operList (s : State) (c : Nat) : List GateEntry :=
  if s.fld R.fxgGate 31 [] 0 0 = 0 then [{ dur := 0, type := 2, resv := 0, last := true }]
  else (gateTake (halfWord (fun j => s.reg R.fxgOperList 31 [c, j])) 0 256).1

/-- The gate cycle in force, in ns (R251). -/
def State.gateCycle (s : State) : Nat := s.fld R.fxgGate 31 [] 39 16

/-- The instant of the current cycle's boundary, in ns of ART (R288). -/
def State.gateStart (s : State) : Int := (s.reg R.fxgGateStart 31 []).toInt

/-- The index of the entry in force on logical cluster c (R288). -/
def State.entryOf (s : State) (c : Nat) : Nat := s.fld R.fxgClState 31 [c] 7 0

/-- The type of the entry in force (R288): 0 RADIO, 1 OPEN, 2 GUARD. -/
def State.typeOf (s : State) (c : Nat) : Nat := s.fld R.fxgClState 31 [c] 9 8

/-- The sum of the durations of the first n entries. -/
def durSum (l : List GateEntry) (n : Nat) : Nat := ((l.take n).map GateEntry.dur).sum

/-- The instant at which entry i of a cluster's list begins in the current cycle (R252). -/
def State.entryStart (s : State) (c i : Nat) : Int := s.gateStart + durSum (s.operList c) i

/-- The edge of the window in force on a cluster (R253): the end of the run of OPEN entries from the one in force. -/
def State.windowEdge (s : State) (c : Nat) : Int :=
  let l := s.operList c
  let i := s.entryOf c
  let run := ((l.drop i).takeWhile (fun e => e.type == 1)).length
  s.entryStart c (i + run)

/-! The clusters and their steps. -/

/-- The step that a physical cluster holds, if any. -/
def State.holder (s : State) (p : Nat) : Option StepRec :=
  s.steps.find? (fun r => r.st != .waiting && r.st != .ended && r.clusters.contains p && !(r.aborted.contains p))

/-- The step of a number. -/
def State.stepAt (s : State) (id : Nat) : Option StepRec := s.steps.find? (fun r => r.id == id)

/-- The state with a step's record replaced. -/
def State.setStep (s : State) (r : StepRec) : State :=
  { s with steps := s.steps.map (fun x => if x.id = r.id then r else x) }

/-- OCC and PARTITION of a cluster in FXG_CL_STATE (R288). -/
def State.setOcc (s : State) (p occ part : Nat) : State :=
  let c := s.logCluster p
  (s.setFld R.fxgClState 31 [c] 11 10 occ).setFld R.fxgClState 31 [c] 17 12 part

/-- Whether a cluster is withdrawn or shadow-quarantined (R44, R541). -/
def State.withdrawn (s : State) (p : Nat) : Bool := s.fld R.fxgClState 31 [s.logCluster p] 18 18 == 1

/-- A cluster withdrawn: Foxglove's record and the cluster's own bit (R44). -/
def State.withdraw (s : State) (p : Nat) : State :=
  (s.setFld R.fxgClState 31 [s.logCluster p] 18 18 1).setFld R.dhlClStatus (p / 8) [p % 8] 1 1 1

/-- The clusters that a partition holds (R288). -/
def State.inUse (s : State) (p : Nat) : Nat :=
  ((s.steps.filter (fun r => r.part == p && r.st != .waiting && r.st != .ended)).map
    (fun r => (r.clusters.filter (fun c => !(r.aborted.contains c))).length)).sum

/-- The weight-stream sum of a die (R59, R79). -/
def State.streamSum (s : State) (d : Nat) : Nat :=
  ((List.range 8).map (fun l => s.fld R.dhlClWstream d [l] 5 0)).sum

/-- DHL_WSTREAM_TOTAL.SUM follows the clusters' rates (R79). -/
def State.sumStreams (s : State) (d : Nat) : State := s.setFld R.dhlWstreamTotal d [] 5 0 (s.streamSum d)

/-- A cluster's weight-stream reservation written by Foxglove (R59, R80). -/
def State.setStreamRate (s : State) (p v : Nat) : State :=
  (s.setFld R.dhlClWstream (p / 8) [p % 8] 5 0 v).sumStreams (p / 8)

/-- The measured rate of a die (R268). -/
def State.dieRate (s : State) (d : Nat) : Nat := s.fld R.fxgDieRate 31 [d] 15 0

/-! Budgets and conditions of placement. -/

/-- The placement conditions of R217 on one die for a step: its groups owned, ON, and in no other step's BANK_SLICE;
fixed priority for an exact-mode step. -/
def State.sliceOk (s : State) (d : Nat) (r : StepRec) (exact : Bool) : Bool :=
  (maskList r.slice.toNat 32).all (fun g => s.groupOwner d g == r.part && s.bankSt d g == 0 && !(s.groupBusy d g)) &&
  (!exact || s.fld R.dhlSpCfg d [] 1 1 == 0)

/-- Whether a cluster may hold a step at all (R3, R44, R268, R273, R520): its die runs, it is in service, not fenced, and
free. -/
def State.clusterFree (s : State) (p : Nat) : Bool :=
  s.dieOn (p / 8) && s.pdOn (2 * (p / 8)) && s.pdOn (2 * (p / 8) + 1) && s.dieRate (p / 8) != 0 &&
  !(s.withdrawn p) && !(s.fenced 1 (s.logCluster p)) && !(s.resets.any (fun r => decide (3 ≤ r.level))) && (s.holder p).isNone

/-- The budget W of a cluster at this instant (R269). -/
def State.budget (s : State) (p g : Nat) : Nat :=
  let left := s.windowEdge (s.logCluster p) * 2 ^ 32 - s.art32
  (left * (s.dieRate (p / 8) * 256 : Nat) / ((4096 * (256 + g) : Nat) * 2 ^ 32 : Int)).toNat

/-- Whether a step's image is resident on a cluster (R270). -/
def State.resident (s : State) (p : Nat) (r : StepRec) : Bool :=
  let q := s.seq (.cluster p)
  q.codeLen != 0 && q.codeDigest == r.digest

/-- N of a step on a cluster (R270). -/
def State.need (s : State) (p : Nat) (r : StepRec) : Nat :=
  128 + (if s.resident p r then 0 else cdiv (r.codeLen * 32) 256) + r.declared

/-- Whether a cluster can take a tenant step, but for the rules that count its fellow clusters (R273). -/
def State.canTake (s : State) (r : StepRec) (p : Nat) : Bool :=
  let c := s.logCluster p
  let exact := s.exactMode r.epoch r.part
  s.clusterFree p && !(s.quarantined.contains c) && s.typeOf c == 1 && decide (s.need p r ≤ s.budget p (s.stretchG r.epoch)) &&
  s.sliceOk (p / 8) r exact

/-- The lowest-numbered clusters that can take a step, with the weight-stream rule of R59 counted die by die (R273,
R274). -/
def State.takeSet (s : State) (r : StepRec) (ok : Nat → Bool) : List Nat → List Nat → List Nat
  | [], acc => acc
  | p :: t, acc =>
    if acc.length ≥ r.width then acc
    else
      let n := (acc.filter (fun x => x / 8 == p / 8)).length
      if ok p && decide (s.streamSum (p / 8) + (n + 1) * r.rate ≤ 26) then s.takeSet r ok t (acc ++ [p])
      else s.takeSet r ok t acc

/-- The physical clusters of the part in the order of their logical numbers (R4). -/
def State.clustersInOrder (s : State) : List Nat := (s.enabledDies.map (fun d => (List.range 8).map (fun l => 8 * d + l))).flatten

/-- The set of clusters for a tenant step at this instant, if it can be placed (R273, R274). -/
def State.tenantSet (s : State) (r : StepRec) : Option (List Nat) :=
  let cfg := s.ptCfg r.epoch r.part
  if !(cfg.getLsbD 0) || decide (s.inUse r.part + r.width > getField cfg 15 8) || s.fenced 2 r.part ||
      s.fld R.fxgThrottle 31 [] 1 0 != 0 || s.tamperStop then none
  else
    let l := s.takeSet r (s.canTake r) s.clustersInOrder []
    if l.length ≥ r.width then some l else none

/-! Placement. -/

/-- The value of DHL_CTX_ARITH that a step loads (R81, R84): NRND of 2 or 3 is stored as 0. -/
def arithInit (v : Nat) (exact : Bool) : BitVec 64 :=
  let v := v % 32
  BitVec.ofNat 64 ((if bitsOf v 2 1 ≥ 2 then v - bitsOf v 2 1 * 2 else v) + b2n exact * 256)

/-- The contexts of a cluster at placement: idle, their ARITH loaded (R45, R81). -/
def placedCtxs (r : StepRec) (exact : Bool) : Tab Ctx :=
  (List.range 8).map (fun k => (k, { arith := arithInit r.arith exact }))

/-- A cluster's sequencer as a placement leaves it (R45, R80, R84, R110, R126): what outlives a step is its row map, its
spare, its instruction memory and its debug state. -/
def placedSeq (q : Seq) (r : StepRec) (rank : Nat) (exact : Bool) (rate : Nat) (deadline : Option Nat) : Seq :=
  { ctxs := placedCtxs r exact, active := true, exact := exact, radio := r.radio, part := r.part, step := r.id,
    rank := rank, slice := r.slice, declared := r.declared, form := r.form, rate := r.rate, code := q.code,
    codeLen := q.codeLen, codeDigest := q.codeDigest, deadline := deadline, lcRate := rate, rowMap := q.rowMap,
    spareUsed := q.spareUsed, retiredPhys := q.retiredPhys, spareBusy := false, dbgHalted := q.dbgHalted,
    dbgCause := q.dbgCause, dbgIndex := q.dbgIndex, dbgHaltCyc := 0, dbgHaltLc := q.dbgHaltLc }

/-- The bundles of an image as instruction memory holds them (R123, R270). -/
def State.imageCode (s : State) (off n : Nat) : Tab (BitVec 256) :=
  (List.range n).map (fun i => (i, BitVec.ofNat 256 (s.num (off + 256 + 32 * i) 32)))

/-- The suspect words of a step on a cluster (R545). -/
def suspectWords (r : StepRec) (rank : Nat) : Word × Word × Word :=
  (BitVec.ofNat 64 (r.image % 2 ^ 48), BitVec.ofNat 64 r.args,
   BitVec.ofNat 64 (r.cmdId % 2 ^ 32 + r.part * 2 ^ 32 + rank * 2 ^ 38 + r.width * 2 ^ 45 + 2 ^ 63))

/-- A placement recorded among the suspects of its cluster: the entries shift down by one, and a freeze ends (R526). -/
def State.pushSuspect (s : State) (p : Nat) (r : StepRec) (rank : Nat) : State :=
  let d := p / 8
  let l := p % 8
  let s := { s with suspFrozen := s.suspFrozen.filter (fun c => c != s.logCluster p) }
  let old (i : Nat) : Word := s.reg R.dhlClSuspect d [l, i]
  let s' := (List.range 9).foldl (fun t i => t.setReg R.dhlClSuspect d [l, 11 - i] (old (8 - i))) s
  let w := suspectWords r rank
  ((s'.setReg R.dhlClSuspect d [l, 0] w.1).setReg R.dhlClSuspect d [l, 1] w.2.1).setReg R.dhlClSuspect d [l, 2] w.2.2

/-- Whether a cluster has a spare row that nothing uses (R41, R42). -/
def State.hasSpare (s : State) (p : Nat) : Bool :=
  (s.ident.fusedRow.find p).isNone && !(s.seq (.cluster p)).spareUsed

/-- Shadow execution at a placement (R539): one tenant placement in 2^SAMPLE_LOG2 shadows a logical row. -/
def State.sampleShadow (s : State) (p : Nat) (r : StepRec) : State :=
  let d := p / 8
  if s.fld R.dhlShCfg d [] 0 0 = 0 ∨ r.radio ∨ r.replay then s
  else
    let n := s.placements.getD p 0
    let s := { s with placements := s.placements.put p (n + 1) }
    let lg := s.fld R.dhlShCfg d [] 4 1
    if n % 2 ^ lg ≠ 0 then s
    else if s.hasSpare p then
      let s := { s with shadowRow := s.shadowRow.put p (n / 2 ^ lg % 8) }
      (s.setSeq (.cluster p) { s.seq (.cluster p) with spareBusy := true }).bumpFld R.dhlShStat d [] 23 0 1
    else s.bumpFld R.dhlShStat d [] 47 24 1

/-- A step placed on one cluster (R45, R59, R81, R276). -/
def State.placeOn (s : State) (r : StepRec) (p rank : Nat) (exact : Bool) (deadline : Option Nat) : State :=
  let u := SeqUnit.cluster p
  let q := s.seq u
  let n := placedSeq q r rank exact (s.dieRate (p / 8)) deadline
  let n := if s.resident p r then n
    else { n with code := s.imageCode r.image r.codeLen, codeLen := r.codeLen, codeDigest := r.digest, loaded := true }
  let s := (s.setSeq u n).setStreamRate p r.rate
  let s := s.setOcc p (if r.radio then 2 else 1) r.part
  ((s.pmu (p / 8) 0x0C (p % 8) 1).pushSuspect p r rank).sampleShadow p r

/-- A step placed on a list of clusters in rank order. -/
def State.placeAll (s : State) (r : StepRec) (exact : Bool) (deadline : Option Nat) : List Nat → Nat → State
  | [], _ => s
  | p :: t, rank => (s.placeOn r p rank exact deadline).placeAll r exact deadline t (rank + 1)

/-- A step placed (R271, R276): a tenant's deadline is the earliest edge among its clusters' windows. -/
def State.place (s : State) (r : StepRec) (cs : List Nat) (exact : Bool) : State :=
  let edge := ((cs.map (fun p => s.windowEdge (s.logCluster p))).min?).getD 0
  let free := r.radio || r.replay
  let dl := if free then none else some (s.lcOfArt edge)
  let r := { r with st := .placed, clusters := cs, deadline := dl, edgeNs := if free then 0 else edge, placedLc := s.lc,
                    exact := exact, aborted := [], abortC := 0, ndet := 0, counts := true, status := 0, detail := 0 }
  (s.setStep r).placeAll r exact dl cs 0

/-! The order of admission. -/

/-- The order of R272 and R274: class, age, partition, ring. -/
def StepRec.before (a b : StepRec) : Bool :=
  let k (r : StepRec) : List Nat := [r.cls, r.age, r.part, r.ring, r.seqno]
  (k a) < (k b)

/-- The tenant steps that wait. -/
def State.waitingSteps (s : State) : List StepRec := s.steps.filter (fun r => r.st == .waiting && !r.radio && !r.replay)

/-- Whether a queued step can only complete STALE_EPOCH: its epoch is the previous one, and the gate cycles of draining
have passed (R267). -/
def State.drainedOut (s : State) (r : StepRec) : Bool :=
  s.fld R.fxgChange 31 [] 2 0 == 3 && s.fld R.fxgEpoch 31 [] 47 40 == 0 && r.epoch == s.fld R.fxgEpoch 31 [] 31 16

/-- Whether a step is eligible (R272, R382, R467): the oldest of its ring, let through by the ring's shaper unless it was
requeued, its input digest complete. -/
def State.isEligible (s : State) (r : StepRec) : Bool :=
  r.eligible && !(s.drainedOut r) &&
  !(s.waitingSteps.any (fun x => x.ring == r.ring && decide (x.seqno < r.seqno))) &&
  (r.requeued || s.shapeOk (ringShaper r.ring) r.cost)

/-- Whether a step is blocking (R275). -/
def State.isBlocking (s : State) (r : StepRec) : Bool := decide (s.fld R.fxgCfg 31 [] 23 16 ≤ r.bypass)

/-- Whether a blocking step bars a step (R275, R378). -/
def State.barred (s : State) (el : List StepRec) (r : StepRec) : Bool :=
  el.any (fun b => s.isBlocking b && b.id != r.id && decide (b.cls ≤ r.cls) &&
    (b.before r || (!b.yellow && r.yellow)))

/-- A step inserted into a list in the order of admission: green steps first (R378). -/
def insertStep (r : StepRec) : List StepRec → List StepRec
  | [] => [r]
  | x :: t =>
    if (!r.yellow && x.yellow) || (r.yellow == x.yellow && r.before x) then r :: x :: t else x :: insertStep r t

/-- The eligible steps in the order of the two passes (R274, R378). -/
def State.candidates (s : State) : List StepRec :=
  (s.waitingSteps.filter s.isEligible).foldl (fun l r => insertStep r l) []

/-- The steps that a placement bypasses (R275). -/
def State.bumpBypass (s : State) (el : List StepRec) (r : StepRec) : State :=
  { s with steps := s.steps.map (fun x =>
      if el.any (fun e => e.id == x.id) && x.id != r.id && decide (x.cls ≤ r.cls) && x.before r
      then { x with bypass := x.bypass + 1 } else x) }

/-- The first candidate that may be placed, with its clusters. -/
def State.firstPlaceable (s : State) (el : List StepRec) : List StepRec → Option (StepRec × List Nat)
  | [] => none
  | r :: t =>
    if s.barred el r then s.firstPlaceable el t
    else match s.tenantSet r with
      | some cs => some (r, cs)
      | none => s.firstPlaceable el t

/-- Whether a replay keeps a partition from admission (R528). -/
def State.replayHolds (s : State) (p : Nat) : Bool :=
  s.fld R.prmReplayStat 31 [] 1 0 == 1 && s.steps.any (fun r => r.replay && r.part == p)

/-- A decision of the admission unit (R274, R275, R378): placements until none is possible. -/
def State.admission (s : State) : Nat → State
  | 0 => s
  | n + 1 =>
    let el := if s.gstopped then [] else s.candidates.filter (fun r => !(s.replayHolds r.part))
    match s.firstPlaceable el el with
    | none => s
    | some (r, cs) =>
      let s := s.bumpBypass el r
      let s := if r.requeued then s else s.shapeSend (ringShaper r.ring) r.cost
      (s.place r cs (s.exactMode r.epoch r.part)).admission n

/-! Completion and release. -/

/-- The counters of a step's cluster summed (R461). -/
def Seq.ndets (q : Seq) : Nat := q.ndStoch + q.ndRoute + q.ndTiming + q.ndIntrude

/-- NDET of a step added to its partition (R461). -/
def State.addNdet (s : State) (p n : Nat) : State :=
  let s := s.bumpFld R.fxgPtNdet 31 [p] 31 0 n
  if n = 0 then s else s.bumpFld R.fxgPtNdet 31 [p] 63 32 1

/-- A cluster's sequencer as its step leaves it (R126, R136, R282, R283): nothing is on its way any more. -/
def releasedSeq (q : Seq) : Seq :=
  { q with active := false, done := false, started := false, stopped := false, committing := false, run := none, pend := [], dmas := [],
           streams := [], wpend := none, macs := [], vecs := [], deadline := none, spareBusy := false, rate := 0,
           dbgStep := none, dbgWatch := none, bpPass := false }

/-- A cluster released (R80, R281): its reservation is 0 and it is free; answers to what its step issued no longer reach
it (R283); a quarantine that waited for it takes effect (R527). -/
def State.release (s : State) (p : Nat) : State :=
  let u := SeqUnit.cluster p
  let c := s.logCluster p
  let s := if (s.seq u).dbgHalted && (s.seq u).active then s.resumeUnit u else s
  let s := ((s.setSeq u (releasedSeq (s.seq u))).setStreamRate p 0).setOcc p 0 0
  let s := { s with
    shadowRow := s.shadowRow.del p
    remote := s.remote.map (fun (o : RemoteOp) => if o.ofUnit u then { o with orphan := true } else o) }
  if s.quarNext.contains c then
    { s with quarNext := s.quarNext.filter (fun x => x != c), quarantined := s.quarantined ++ [c] }
  else s

/-- A step completes (R133, R279, R468, R473): its command is answered, and its record is kept while its digests are to
come. -/
def State.endStep (s : State) (r : StepRec) (code detail ndet : Nat) : State :=
  let s := match r.cmd with
    | none => s
    | some id => s.completeId id code detail ndet 0 0
  if r.prov.isSome || r.lsSeq.isSome then
    s.setStep { r with st := .ended, status := code, detail := detail, ndet := ndet }
  else { s with steps := s.steps.filter (fun x => x.id != r.id) }

/-! Commit and publication. -/

/-- The total lane cycle at which a cluster's deadline lane cycle begins, freezes counted (R278, R282): the first that
begins at or after the deadline. -/
def Seq.edgeCycle (q : Seq) (deadline : Nat) : Nat := cdiv ((deadline - q.lcStart) * q.lcRate) 4096

/-- Whether a cluster has met its part of the commit condition (R278). -/
def Seq.metDeadline (q : Seq) (deadline : Option Nat) : Bool :=
  q.done && (match deadline with
  | none => true
  | some d => decide (q.doneC ≤ q.edgeCycle d))

/-- Whether a step's commit condition holds (R278). -/
def State.commitReady (s : State) (r : StepRec) : Bool :=
  r.st == .placed && r.aborted.isEmpty && r.clusters.all (fun p => (s.seq (.cluster p)).metDeadline r.deadline)

/-- Whether a publish target may be written by the partition's own masters (R218, R279, R510). -/
def State.publishable (s : State) (part t : Nat) : Bool :=
  t % 8 == 0 && decide (t < 2 ^ 48) && s.memUp t && (match regionOf t with
  | .sp .. => s.partReach part t
  | .xch .. => s.partReach part t
  | .hbm .. => part == 0
  | .lpddr _ => part == 0
  | .iris .. => part == 0
  | _ => false)

/-- The publication of a committed step (R279): its status and the state with the entries written. -/
def State.publish (s : State) (r : StepRec) : Nat × State :=
  match r.clusters.head? with
  | none => (stOK, s)
  | some p =>
    let d := p / 8
    let a := xchBase d + r.publish
    if s.slotOwner d (r.publish / 0x10000) ≠ r.part then (stNoUnit, s)
    else match s.badIn a 512 with
      | some w => (stUncorr, s.memError w r.part)
      | none =>
        let w0 := s.num a 8
        let entry (i : Nat) : Nat × Nat := (s.num (a + 16 + 16 * i) 8, s.num (a + 24 + 16 * i) 8)
        let es := (List.range (w0 % 32)).map entry
        if w0 ≥ 32 || !(es.all (fun e => s.publishable r.part e.1)) then (stNoUnit, s)
        else if es.any (fun e => s.memWriteStatus r.part e.1 8 == stUncorr) then (stUncorr, s)
        else (stOK, es.foldl (fun s e => (s.store e.1 (leBytes 8 e.2)).access .foxglove e.1 8 true) (s.access .foxglove a 512 false))

/-- The record of a step's end on a cluster in the trace of its die (R563). -/
def State.traceEnd (s : State) (r : StepRec) (p code cycles : Nat) : State :=
  s.trace (p / 8) (some 0) 0x02 (p % 8) r.part (leBytes 4 r.cmdId ++ leBytes 1 code ++ leBytes 3 0 ++ leBytes 8 cycles)

/-- The slow-down record of one cluster of a committed step (R286). -/
def State.account (s : State) (r : StepRec) (p : Nat) : State :=
  let q := s.seq (.cluster p)
  let c := q.doneC
  let d := q.declared
  let tau := c * 4096 / max q.lcRate 1
  let t := tau * 94 / 100
  let f := q.frzUnsched + q.frzOwn
  let h := q.hbmHold
  let add (x : RegD) (n : Nat) (s : State) : State := s.bumpFld x 31 [r.part] 63 0 n
  add R.fxgPtSaved (d - c) (add R.fxgPtWait (c - d - f - h) (add R.fxgPtHbm h (add R.fxgPtConflict f
    (add R.fxgPtStretch (t - c) (add R.fxgPtTime t (add R.fxgPtDecl d s))))))

/-- A step commits (R278 to R281, R286, R461). -/
def State.commitStep (s : State) (r : StepRec) : State :=
  let nd := (r.clusters.map (fun p => (s.seq (.cluster p)).ndets)).sum
  let s := r.clusters.foldl (fun s p => s.account r p) s
  let s := (s.bumpFld R.fxgPtCounts 31 [r.part] 31 0 1).addNdet r.part nd
  let pub := s.publish r
  let s := r.clusters.foldl (fun s p => (s.traceEnd r p pub.1 (s.seq (.cluster p)).doneC).release p) pub.2
  s.endStep r pub.1 0 (min nd 65535)

/-! Aborts. -/

/-- The ABORTED_WINDOW event of an attempt (R282, R498): the rank-0 cluster, the abort count and C. -/
def State.abortEvent (s : State) (r : StepRec) (count : Nat) : State :=
  let p := r.clusters.headD 0
  s.emit r.part evAborted (p / 8) (leBytes 4 r.cmdId ++ leBytes 2 (s.logCluster p) ++ leBytes 2 (count % 65536) ++
    leBytes 8 r.abortC)

/-- A step returns to its queue once it is aborted on its last cluster (R282, R284, R285, R541); one whose epoch is
accepted no longer completes STALE_EPOCH (R267, R284). -/
def State.requeue (s : State) (r : StepRec) : State :=
  let s := (s.bumpFld R.fxgPtCounts 31 [r.part] 63 32 1).addNdet r.part r.ndet
  let n := if r.counts then r.aborts + 1 else r.aborts
  let lim := s.fld R.fxgCfg 31 [] 11 8
  let demote := r.counts && lim != 0 && decide (lim ≤ n)
  let s := s.abortEvent r n
  let r := { r with
    st := .waiting, clusters := [], deadline := none, aborted := [], requeued := true,
    aborts := if demote then 0 else n, age := if demote then s.lc else r.age }
  if s.epochOk r.epoch || r.replay then s.setStep r else s.endStep r stStale 0 0

/-- The results of the cycles before an abort land where no bundle would have issued (R282). -/
def State.cutAt (s : State) (u : SeqUnit) (n : Nat) : State :=
  let q := s.seq u
  let t := n - q.frzUnsched - q.frzOwn
  if t = 0 || q.dbgHalted then s else s.settle u (min (t - 1) (max q.cyc (if q.run.isSome && q.canIssue then q.next else t - 1)))

/-- The tokens on their way to a cluster at its abort are discarded when they arrive (R283). -/
def State.deadTokens (s : State) (p : Nat) : State :=
  { s with tokens := s.tokens.map (fun m =>
      if m.target.kind = 0 ∧ s.physCluster m.target.unit = some p then { m with dead := true } else m) }

/-- A step aborted on one of its clusters (R282, R284, R461): `c` is the count of lane cycles that the attempt has run
there. -/
def State.abortOn (s : State) (r : StepRec) (p c : Nat) : State :=
  let u := SeqUnit.cluster p
  let q := s.seq u
  let c := if q.done then q.doneC else c
  let s := s.bumpFld R.fxgPtAbortCyc 31 [r.part] 63 0 c
  let s := s.bumpFld R.fxgClState 31 [s.logCluster p] 63 32 1
  let r := { r with st := .aborting, aborted := p :: r.aborted, ndet := r.ndet + q.ndets,
                    abortC := if r.clusters.head? = some p then c else r.abortC }
  let s := (s.traceEnd r p stAborted c).pmu (p / 8) 0x0D (p % 8) 1
  let s := ((s.setStep r).setSeq u { q with cyc := c - q.frzUnsched - q.frzOwn }).release p
  let s := s.deadTokens p
  if r.clusters.all (fun x => r.aborted.contains x) then s.requeue r else s

/-- A step aborted on all of its clusters at once, not at an edge (R285, R541). -/
def State.abortNow (s : State) (r : StepRec) (counts : Bool) : State :=
  (r.clusters.filter (fun p => !(r.aborted.contains p))).foldl (fun s p =>
    match s.stepAt r.id with
    | none => s
    | some r => s.abortOn { r with counts := counts } p (s.seq (.cluster p)).cycles) s

/-- Every operation of a step's cluster that ends by itself lands (R133). -/
def State.drainUnit (s : State) (p : Nat) : State :=
  let u := SeqUnit.cluster p
  match ((s.seq u).pend.map Pend.due).max? with
  | none => s
  | some t => s.settle u t

/-- Whether a faulted step still has a DMA or a remote operation that has not ended (R133). -/
def State.stillDraining (s : State) (r : StepRec) : Bool :=
  r.clusters.any (fun p => !((s.seq (.cluster p)).dmas.isEmpty) ||
    s.remote.any (fun o => o.ofUnit (.cluster p) && o.step == r.id && o.status.isNone))

/-- A draining step ends once every operation of it has ended (R133, R134, R521): it completes with its status and
releases its clusters; a replay writes no completion (R528). -/
def State.endDrained (s : State) (r : StepRec) : State :=
  let s := r.clusters.foldl (fun s p => s.drainUnit p) s
  if s.stillDraining r then s
  else
    let s := r.clusters.foldl (fun s p => (s.traceEnd r p r.status (s.seq (.cluster p)).cycles).release p) s
    s.endStep r r.status r.detail 0

/-! Change sets. -/

/-- A word of Foxglove's copy of the staging area. -/
def State.staged (s : State) (r : RegD) (ix : List Nat) : Word := (s.fxgCopy.find (r.at 31 ix)).getD 0

/-- The staging area as it is copied at APPLY (R260). -/
def State.copyStage (s : State) : Tab Word :=
  let a := R.prmFxgStageList.at 31 [0, 0]
  s.regs.keep (fun k => decide (a ≤ k) && decide (k < a + 0x30000))

/-- Whether a change set replaces the cycle: SETCYCLE, or no list in force (R260). -/
def State.setsCycle (s : State) : Bool :=
  (s.staged R.prmFxgStageHdr0 []).getLsbD 40 || s.fld R.fxgGate 31 [] 0 0 == 0

/-- The cycle that a change set would put in force (R260). -/
def State.newCycle (s : State) : Nat :=
  if s.setsCycle then getField (s.staged R.prmFxgStageHdr0 []) 39 16 else s.gateCycle

/-- Whether a change set names logical cluster c (R259, R260). -/
def State.named (s : State) (c : Nat) : Bool :=
  decide (c < s.numClusters) && (s.staged R.prmFxgStageMask [c / 64]).getLsbD (c % 64)

/-- The staged list of a cluster, and whether it has its LAST bit. -/
def State.stagedList (s : State) (c : Nat) : List GateEntry × Bool :=
  gateTake (halfWord (fun j => s.staged R.prmFxgStageList [c, j])) 0 256

/-- The logical clusters that a change set names. -/
def State.namedClusters (s : State) : List Nat := (List.range 128).filter s.named

/-- The durations of the entries of one type. -/
def typeSum (l : List GateEntry) (t : Nat) : Nat := ((l.filter (fun e => e.type == t)).map GateEntry.dur).sum

/-- The GUARD total before the entry at the head of a reversed list, and the type of what precedes it. -/
def guardBefore : List GateEntry → Nat × Nat
  | [] => (0, 2)
  | e :: t => if e.type = 2 then (e.dur + (guardBefore t).1, (guardBefore t).2) else (0, e.type)

/-- Whether the guard rule fails somewhere in a list (R257). -/
def guardFails (l : List GateEntry) (least : Nat) : Bool :=
  (List.range l.length).any (fun i =>
    match l[i]? with
    | none => false
    | some e =>
      let b := guardBefore (((l.take i).reverse ++ (l.drop i).reverse))
      e.type == 0 && b.2 == 1 && decide (b.1 < least))

/-- An owner record that R260 refuses. -/
def State.recordBad (s : State) (w : Word) : Bool :=
  let kind := getField w 5 4
  let unit := getField w 10 6
  let owner := getField w 23 16
  getField w 15 11 != 0 || getField w 63 24 != 0 || kind == 3 || (kind == 2 && decide (unit > 7)) ||
  (decide (owner > 0x3F) && owner != 0xFF) || !(s.dieOn (getField w 3 0))

/-- A partition setting that R260 refuses. -/
def settingBad (w : Word) : Bool := decide (getField w 15 8 > 128)

/-- A CFG that R260 refuses. -/
def State.cfgBad (s : State) (w : Word) : Bool :=
  let g := getField w 7 0
  decide (g < s.fld R.fxgLim1 31 [] 55 48) || decide (s.fld R.fxgLim1 31 [] 63 56 < g) || getField w 23 16 == 0 ||
  getField w 31 24 == 0

/-- The first check of R260 that fails, with its code; 0 when every check passes. -/
def firstCode : List (Nat × Bool) → Nat
  | [] => 0
  | (c, b) :: t => if b then c else firstCode t

/-- The checks of a change set in table order (R257, R260). -/
def State.validate (s : State) : Nat :=
  let h0 := s.staged R.prmFxgStageHdr0 []
  let noList := s.fld R.fxgGate 31 [] 0 0 == 0
  let cyc := s.newCycle
  let lists := s.namedClusters.map s.stagedList
  let es := (lists.map (fun l => l.1)).flatten
  let share := (List.range s.numClusters).map (fun c =>
    typeSum (if s.named c then (s.stagedList c).1 else s.operList c) 0)
  let nrec := getField h0 51 42
  firstCode [
    (2, getField h0 15 0 != (s.fld R.fxgEpoch 31 [] 15 0 + 1) % 65536),
    (3, s.setsCycle && (decide (cyc < s.fld R.fxgLim0 31 [] 23 0) || decide (s.fld R.fxgLim0 31 [] 47 24 < cyc))),
    (4, s.setsCycle && (List.range s.numClusters).any (fun c => !(s.named c))),
    (5, lists.any (fun l => !l.2)),
    (6, es.any (fun e => e.type == 3 || e.resv != 0)),
    (7, lists.any (fun l => durSum l.1 256 != cyc)),
    (8, es.any (fun e => decide (e.dur < s.fld R.fxgLim0 31 [] 63 48))),
    (9, es.any (fun e => e.type == 0 && decide (e.dur < s.fld R.fxgLim1 31 [] 15 0))),
    (10, lists.any (fun l => guardFails l.1 (s.fld R.fxgLim1 31 [] 31 16))),
    (11, lists.any (fun l => decide (s.fld R.fxgLim1 31 [] 39 32 * cyc < typeSum l.1 1 * 256))),
    (12, decide (share.sum * 256 < s.fld R.fxgLim1 31 [] 47 40 * cyc * s.numClusters)),
    (13, noList && decide ((s.staged R.prmFxgStageHdr1 []).toInt < s.artNs + 2000)),
    (14, decide (nrec > 512) || (List.range nrec).any (fun i => s.recordBad (s.staged R.prmFxgStageRec [i]))),
    (15, (h0.getLsbD 41 && (List.range 64).any (fun p => settingBad (s.staged R.prmFxgStagePt [p]))) ||
      (h0.getLsbD 52 && s.cfgBad (s.staged R.prmFxgStageCfg [])))]

/-- STATE of FXG_CHANGE (R288). -/
def State.changeState (s : State) : Nat := s.fld R.fxgChange 31 [] 2 0

/-- STATE and RESULT of FXG_CHANGE replaced. -/
def State.setChange (s : State) (st result : Nat) : State :=
  (s.setFld R.fxgChange 31 [] 2 0 st).setFld R.fxgChange 31 [] 15 8 result

/-- A REFUSED event in the ring of partition 0 for a command on PRM_FXG_CMD (R260, R263, R290, R498). -/
def State.refuseFxg (s : State) (v : Word) : State := s.refusedIn 0 (s.globalAddr (R.prmFxgCmd.at 31 [])) v 0

/-- APPLY (R260): the staging area is copied and validation starts, or the command is refused as BUSY. -/
def State.fxgApply (s : State) (v : Word) : State :=
  if s.changeState ≠ 0 then (s.setFld R.fxgChange 31 [] 15 8 1).refuseFxg v
  else { s.setFld R.fxgChange 31 [] 2 0 1 with fxgCopy := s.copyStage, fxgWord := v }

/-- The words of a list up to its LAST entry; the words after it read 0. -/
def listWord (l : List GateEntry) (w : Nat → Word) (j : Nat) : Word :=
  if 2 * j + 1 < l.length then w j else if 2 * j < l.length then w j &&& 0xFFFFFFFF else 0

/-- A register set to a value, if it does not hold it. -/
def State.moveReg (s : State) (r : RegD) (die : Nat) (ix : List Nat) (v : Word) : State :=
  if s.reg r die ix = v then s else s.setReg r die ix v

/-- The administrative list of a cluster replaced. -/
def State.setAdmin (s : State) (c : Nat) (f : Nat → Word) : State :=
  (List.range 128).foldl (fun t j => t.moveReg R.fxgAdminList 31 [c, j] (f j)) s

/-- CANCEL (R261, R263): an armed change set is withdrawn, any other is left. -/
def State.fxgCancel (s : State) (v : Word) : State :=
  if s.changeState ≠ 2 then s.refuseFxg v
  else
    let s := s.namedClusters.foldl (fun s c => s.setAdmin c (fun j => s.reg R.fxgOperList 31 [c, j])) s
    { s.setChange 0 0x10 with fxgCopy := [] }

/-- PRM_FXG_CMD written (R290). -/
def State.writeFxgCmd (s : State) (v : Word) : State :=
  if !(v.getLsbD 8) then s
  else if getField v 3 0 = 1 then s.fxgApply v
  else if getField v 3 0 = 2 then s.fxgCancel v
  else s.refuseFxg v

/-- The first boundary of the running schedule at least 2 µs from now (R261). -/
def State.nextSwap (s : State) : Int :=
  let c : Int := s.gateCycle
  let t := s.artNs + 2000
  if s.gateStart ≥ t then s.gateStart else s.gateStart + (t - s.gateStart + c - 1) / c * c

/-- Whether a change set adds a RADIO entry while lock-step runs (R471). -/
def State.lsRefuses (s : State) : Bool :=
  s.fld R.prmLsStat 31 [] 1 0 == 1 && s.namedClusters.any (fun c => (s.stagedList c).1.any (fun e => e.type == 0))

/-- Validation ends (R260, R261). -/
def State.fxgValidated (s : State) : State :=
  let code := s.validate
  if code ≠ 0 then { (s.setChange 0 code).refuseFxg s.fxgWord with fxgCopy := [] }
  else if s.lsRefuses then
    let d := s.draw
    { (d.2.setChange 0 (d.1 % 256)).refuseFxg s.fxgWord with fxgCopy := [] }
  else
    let at_ := if s.fld R.fxgGate 31 [] 0 0 = 0 then (s.staged R.prmFxgStageHdr1 []).toInt else s.nextSwap
    let s := s.namedClusters.foldl (fun s c =>
      s.setAdmin c (listWord (s.stagedList c).1 (fun j => s.staged R.prmFxgStageList [c, j]))) s
    { s.setChange 2 0 with swapAt := at_ }

/-- RADIO_OVERRUN for a radio step that runs on past its RADIO entry on a cluster (R254), once. -/
def State.overrun (s : State) (c : Nat) : State :=
  match s.physCluster c with
  | none => s
  | some p => match s.holder p with
    | none => s
    | some r =>
      if !r.radio || r.overran || s.typeOf c != 0 then s
      else (s.setStep { r with overran := true }).emit 0 evRadioOverrun (p / 8) (leBytes 2 c)

/-- An entry of a cluster's operating list comes into force (R252, R254). -/
def State.enterEntry (s : State) (c i : Nat) : State :=
  let s := s.overrun c
  let t := ((s.operList c)[i]?.map GateEntry.type).getD 2
  (s.setFld R.fxgClState 31 [c] 7 0 i).setFld R.fxgClState 31 [c] 9 8 t

/-- Every cluster's list starts again (R252). -/
def State.restartLists (s : State) : State := (List.range s.numClusters).foldl (fun s c => s.enterEntry c 0) s

/-- The operating lists of the named clusters take their administrative lists (R262). -/
def State.swapLists (s : State) : State :=
  s.namedClusters.foldl (fun s c =>
    (List.range 128).foldl (fun t j => t.moveReg R.fxgOperList 31 [c, j] (s.reg R.fxgAdminList 31 [c, j])) s) s

/-- The partition settings and CFG of a change set take effect (R262, R265). -/
def State.swapSettings (s : State) : State :=
  let h0 := s.staged R.prmFxgStageHdr0 []
  let s := { s with prevPt := (List.range 64).map (fun p => (p, s.reg R.fxgPtCfg 31 [p])),
                    prevG := s.fld R.fxgCfg 31 [] 7 0 }
  let s := if h0.getLsbD 41 then
      (List.range 64).foldl (fun s p => s.setReg R.fxgPtCfg 31 [p] (s.staged R.prmFxgStagePt [p] &&& 0xFF03)) s
    else s
  if h0.getLsbD 52 then s.setReg R.fxgCfg 31 [] (s.staged R.prmFxgStageCfg [] &&& 0xFFFF0FFF) else s

/-- The owner records of a change set put in line (R266). -/
def State.queueOwners (s : State) : State :=
  let n := getField (s.staged R.prmFxgStageHdr0 []) 51 42
  let reqs := (List.range n).map (fun i =>
    let w := s.staged R.prmFxgStageRec [i]
    ({ die := getField w 3 0, kind := getField w 5 4, unit := getField w 10 6, owner := getField w 23 16 } : OwnerReq))
  ({ s with ownerReqs := s.ownerReqs ++ reqs }).countDeferred

/-- The epochs at a swap (R265). -/
def State.swapEpoch (s : State) : State :=
  let r := R.fxgEpoch
  let s := s.setFld r 31 [] 31 16 (s.fld r 31 [] 15 0)
  let s := s.setFld r 31 [] 15 0 (getField (s.staged R.prmFxgStageHdr0 []) 15 0)
  (s.setFld r 31 [] 32 32 1).setFld r 31 [] 47 40 (s.fld R.fxgCfg 31 [] 31 24)

/-- The record of a gate-cycle boundary in the trace of the Primrose die (R563). -/
def State.traceGate (s : State) : State :=
  s.trace 31 (some 3) 0x06 0xFFFF 0 (leBytes 8 (s.reg R.fxgGateCount 31 []).toNat)

/-- The swap at its boundary (R262, R265, R266, R288). -/
def State.swap (s : State) : State :=
  let s := s.advanceTo (s.lcOfArt s.swapAt)
  let fresh := s.fld R.fxgGate 31 [] 0 0 == 0
  let cyc := s.newCycle
  let s := (s.swapLists).swapSettings
  let s := (if fresh then s else s.setReg R.fxgGateCount 31 [] (s.reg R.fxgGateCount 31 [] + 1)).traceGate
  let s := (s.setFld R.fxgGate 31 [] 39 16 cyc).setFld R.fxgGate 31 [] 0 0 1
  let s := s.setReg R.fxgGateStart 31 [] (BitVec.ofInt 64 s.swapAt)
  let s := s.setFld R.fxgChange 31 [] 63 32 (s.fld R.fxgGateCount 31 [] 31 0)
  let s := (s.swapEpoch).queueOwners
  let s := { (s.setFld R.fxgChange 31 [] 2 0 3).restartLists with fxgCopy := [] }
  if fresh then s.stateEvent (R.fxgGate.at 31 []) 0 1 else s

/-- A gate-cycle boundary with no swap (R251, R252): the lists start again, and a draining change set has one cycle
less. -/
def State.boundary (s : State) : State :=
  let t := s.gateStart + s.gateCycle
  let s := s.advanceTo (s.lcOfArt t)
  let s := s.setReg R.fxgGateStart 31 [] (BitVec.ofInt 64 t)
  let s := (s.setReg R.fxgGateCount 31 [] (s.reg R.fxgGateCount 31 [] + 1)).traceGate
  let s := if s.changeState = 3 then s.setFld R.fxgEpoch 31 [] 47 40 (s.fld R.fxgEpoch 31 [] 47 40 - 1) else s
  s.restartLists

/-- Whether a swap is due at the next boundary (R261). -/
def State.swapDue (s : State) : Bool :=
  s.changeState == 2 && (s.fld R.fxgGate 31 [] 0 0 == 0 || decide (s.swapAt ≤ s.gateStart + s.gateCycle))

/-- DRAINING ends (R267). -/
def State.endDrain (s : State) : State :=
  ((s.setFld R.fxgEpoch 31 [] 32 32 0).setFld R.fxgEpoch 31 [] 47 40 0).setFld R.fxgChange 31 [] 2 0 0

/-- Whether a step of the previous epoch is queued or running (R267). -/
def State.prevSteps (s : State) : Bool :=
  let e := s.fld R.fxgEpoch 31 [] 31 16
  s.steps.any (fun r => r.epoch == e && r.st != .ended) ||
  s.cmds.any (fun c => !c.started && c.field 0 1 == 1 && c.field 4 2 == e)

/-- The step that a STEP command submits, from the command and its image header (R123, R272, R490). -/
def State.stepOfCmd (s : State) (c : Cmd) : StepRec :=
  let img := c.field 0x18 8
  let h := s.bytes img 256
  let prov := bitOf (c.field 1 1) 1
  { id := s.nextStep, part := c.part, ring := c.ring, cmd := some c.id, cmdId := c.field 8 4, cls := c.field 2 1,
    radio := bitOf (c.field 1 1) 0, epoch := c.field 4 2, image := img, args := c.field 0x20 8,
    publish := c.field 0x28 4, lbase := c.field 6 2, prov := if prov then some (c.field 0x30 8) else none,
    width := fieldOf h 0x10 2, slice := BitVec.ofNat 32 (fieldOf h 0x14 4), rate := fieldOf h 0x13 1,
    declared := fieldOf h 8 8, ctxMask := fieldOf h 0x12 1,
    entries := (List.range 8).map (fun k => fieldOf h (0x20 + 4 * k) 4), codeLen := fieldOf h 0x1C 4,
    digest := fieldOf h 0x40 32, form := bitOf (fieldOf h 7 1) 1, exactReq := bitOf (fieldOf h 7 1) 0,
    arith := fieldOf h 0x18 4, age := c.lc, seqno := c.id, eligible := !prov, yellow := c.yellow, cost := c.cost,
    lsSeq := c.lsSeq }

/-- A STEP command passed to the admission unit (R491). -/
def State.submitStep (s : State) (c : Cmd) : State :=
  let r := s.stepOfCmd c
  { s.startCmd c with steps := s.steps ++ [r], nextStep := s.nextStep + 1 }

/-- A STEP command that has been fetched and not yet passed on completes as a step does (R473). -/
def State.endCmdStep (s : State) (c : Cmd) (code : Nat) : State :=
  let r := s.stepOfCmd c
  (s.submitStep c).endStep r code 0 0

/-- The queued steps of the previous epoch complete STALE_EPOCH (R267). -/
def State.staleSteps (s : State) : State :=
  let e := s.fld R.fxgEpoch 31 [] 31 16
  let s := (s.steps.filter (fun r => r.st == .waiting && r.epoch == e)).foldl (fun s r => s.endStep r stStale 0 0) s
  (s.cmds.filter (fun c => !c.started && c.field 0 1 == 1 && c.field 4 2 == e)).foldl (fun s c =>
    s.endCmdStep c stStale) s

end Sys2Proof.Machine
end

