-- ==== Sys2Proof/Machine/HostOps.lean ====
section
/-! DEFINITION. The host interface's shared operations: the functions (R481, R502, R510), doorbells and ring registers
(R384, R486, R487, R592), event rings (R497, R499), mailboxes (R501), stamps (R494), and the configuration words of
meters and shapers (R371, R375). -/
namespace Sys2Proof.Machine

/-- PRM_BOOT_STAT.STATE (R511): 0 ROM, 1 AWAIT_IMAGE, 2 VERIFYING, 3 RUNNING. -/
def State.bootState (s : State) : Nat := s.fld R.prmBootStat 0 [] 2 0

/-- Whether a function is present (R502): the PF once its domain is on and PERST# is deasserted, a VF only while the firmware
runs. -/
def State.fnPresent (s : State) (fn : Nat) : Bool :=
  s.pdOn 57 && !s.perstLow && (fn == 0 || (decide (fn < 64) && s.bootState == 3))

/-- A PROTECTION event for an offset of a function's BAR0 (R483, R486, R498). -/
def State.protectBar (s : State) (fn off : Nat) : State := s.protection (.fn fn) off 1

/-- A REFUSED event for a write of an offset of a function's BAR0 (R498). -/
def State.refuseBar (s : State) (fn off : Nat) (v : Word) : State := s.refusedIn fn off v 1

/-! Rings. -/

/-- The completion slots that a new CQ_HEAD passes, marked (R487, R494). -/
def passSlots : Nat → List CqSlot → List CqSlot
  | 0, l => l
  | _, [] => []
  | n + 1, c :: t => if c.passed then c :: passSlots (n + 1) t else { c with passed := true } :: passSlots n t

/-- A doorbell write (R487): discarded whole with an event if a valid value is out of range or would free a slot not yet
written. -/
def State.writeDoorbell (s : State) (fn r : Nat) (v : Word) : State :=
  let g := s.ring r
  let tail := getField v 15 0
  let head := getField v 31 16
  let sqv := v.getLsbD 32
  let cqv := v.getLsbD 33
  let n := s.cqSlots r
  let freed := (head + n - g.cqHead) % n
  let written := (g.slots.filter (fun c => !c.passed)).length
  let bad := (sqv && decide (tail ≥ s.sqSlots r)) || (cqv && (decide (head ≥ n) || decide (freed > written)))
  if bad then s.refuseBar fn (0x100000 + 8 * r) v
  else s.setRing r { g with
    sqTail := if sqv then tail else g.sqTail
    cqHead := if cqv then head else g.cqHead
    slots := if cqv then passSlots freed g.slots else g.slots }

/-- A ring register's word with LOG2N held to 4 to 15 (R512). -/
def ringLog (w : Word) : Word := if 4 ≤ getField w 3 0 then w else setField w 3 0 4

/-- A write of PRM_RING_SQ, PRM_RING_CQ or PRM_RING_VEC by the ring's function (R486, R512). -/
def State.writeRingReg (s : State) (fn r : Nat) (d : RegD) (v part : Word) : State :=
  let off := d.at 0 [r] - barBase
  if s.ringOn r then s.refuseBar fn off v
  else
    let w := d.written (s.reg d 31 [r]) v part false false
    s.setReg d 31 [r] (if d.off = R.prmRingVec.off then w else ringLog w)

/-- A write of PRM_RING_CFG (R384, R592): PARTITION and CLASS stand while EN reads 1; EN from 0 to 1 starts the ring
afresh, unless a command fetched from it is outstanding. -/
def State.writeRingCfg (s : State) (m : Master) (r : Nat) (v part : Word) : State :=
  let d := R.prmRingCfg
  let old := s.reg d 31 [r]
  let w := d.written old v part false false
  let on := old.getLsbD 0
  let moved := getField w 2 1 != getField old 2 1 || getField w 13 8 != getField old 13 8
  let busy := s.cmds.any (fun c => c.ring == r)
  if (on && moved) || (!on && w.getLsbD 0 && busy) then s.refuseReg m d 31 [r] v
  else
    let s := s.setReg d 31 [r] w
    let s := if !on && w.getLsbD 0 then s.setRing r { (s.ring r) with
        sqTail := 0, cqHead := 0, sqHead := 0, cqTail := 0, phase := true, slots := [] } else s
    if on && !(w.getLsbD 0) then
      ({ s with held := s.held.filter (fun h => h.by_ != HeldBy.ring r) }).setHeld r 0
    else s

/-- A meter word written (R371, R375): a configuration that turns the meter on with PIR below CIR, or with a bucket of no
size, is stored with EN at 0 and refused. `second` says which of its two words `d` is. -/
def State.writeMeter (s : State) (m : Master) (w0 w1 : RegD) (die : Nat) (ix : List Nat) (second : Bool) (v part : Word) :
    State :=
  let d := if second then w1 else w0
  let s := s.setReg d die ix (d.written (s.reg d die ix) v part false false)
  let a := s.reg w0 die ix
  let b := s.reg w1 die ix
  let bad := b.getLsbD 56 && (decide (getField b 31 0 < getField a 31 0) || getField a 55 32 == 0 || getField b 55 32 == 0)
  let s := if bad then (s.setFld w1 die ix 56 56 0).refuseReg m d die ix v else s
  s.tcDirty 1 (w0.at die ix)

/-- A policer or shaper word written (R371). -/
def State.writeTcWord (s : State) (kind : Nat) (d : RegD) (die : Nat) (ix : List Nat) (v part : Word) : State :=
  (s.setReg d die ix (d.written (s.reg d die ix) v part false false)).tcDirty kind (d.at die ix)

/-! Completion stamps. -/

/-- A stamp issued for a completion slot (R494): LAT, and after it T_DONE with STAMP_V. -/
def State.stampSlot (s : State) (r slot lat tdone : Nat) : State :=
  let base := s.fld R.prmRingCq 31 [r] 63 6 * 64 + 64 * slot
  let s := (s.hostStore (base + 0x28) (leBytes 4 lat)).hostStore (base + 0x20) (leBytes 8 (tdone % 2 ^ 63 + 2 ^ 63))
  let g := s.ring r
  s.setRing r { g with slots := g.slots.map (fun c => if c.slot = slot then { c with stamped := true } else c) }

/-- PRM_CQ_TDONE written (R494): the stamp that PRM_CQ_STAMP named is issued, or the write is discarded. -/
def State.writeTdone (s : State) (m : Master) (v : Word) : State :=
  match s.stampSel with
  | none => s.refuseReg m R.prmCqTdone 31 [] v
  | some w =>
    let r := getField w 14 0
    let slot := getField w 30 15
    let s := { s with stampSel := none }
    let open_ := (s.ring r).slots.any (fun c => c.slot == slot && c.step && !c.stamped && !(c.released s.lc) &&
      decide (s.lc < c.lc + 1000000))
    if open_ then s.stampSlot r slot (getField w 62 31) (getField v 62 0) else s.refuseReg m R.prmCqTdone 31 [] v

/-! Event rings. -/

/-- A write of PRM_EVT_CFG (R497, R511): while EN reads 1, a change of LOG2N is refused whole; EN from 0 to 1 restarts
the ring. -/
def State.writeEvtCfg (s : State) (fn : Nat) (v part : Word) : State :=
  let d := R.prmEvtCfg
  let old := s.reg d fn []
  let w := d.written old v part false false
  let on := old.getLsbD 15
  if on && getField w 3 0 != getField old 3 0 then s.refuseBar fn d.off v
  else
    let w' := if getField w 3 0 < 6 then setField w 3 0 6 else w
    let s := s.setReg d fn [] w'
    if !on && w'.getLsbD 15 then
      { (s.setReg R.prmEvtStat fn [] 0).setReg R.prmEvtHead fn [] 0 with evt := s.evt.put fn {} }
    else s

/-- A write of PRM_EVT_BASE (R511). -/
def State.writeEvtBase (s : State) (fn : Nat) (v part : Word) : State :=
  let d := R.prmEvtBase
  if s.fld R.prmEvtCfg fn [] 15 15 = 1 then s.refuseBar fn d.off v
  else s.setReg d fn [] (d.written (s.reg d fn []) v part false false)

/-- A write of PRM_EVT_HEAD (R499): space it frees while LOST is not 0 takes an OVERFLOW record first, whose SEQ is that
of the last dropped event. -/
def State.writeEvtHead (s : State) (fn : Nat) (v part : Word) : State :=
  let d := R.prmEvtHead
  let s := s.setReg d fn [] (d.written (s.reg d fn []) v part false false)
  let lost := s.fld R.prmEvtStat fn [] 47 16
  if s.fld R.prmEvtCfg fn [] 15 15 = 0 ∨ lost = 0 ∨ s.evtFree fn = 0 then s
  else
    let s := s.putRecord fn evOverflow 0xFF (leBytes 4 lost) ((s.evtRing fn).seq - 1)
    (s.setFld R.prmEvtStat fn [] 47 16 0).sendMsix fn (s.fld R.prmEvtCfg fn [] 14 4)

/-! Mailboxes. -/

/-- A write of PRM_MB_CTRL by its function (R501, R511). -/
def State.writeMbCtrl (s : State) (fn : Nat) (v part : Word) : State :=
  let d := R.prmMbCtrl
  s.setReg d fn [] (d.written (s.reg d fn []) v part false false)

/-- A write of a word of H2F (R501): discarded with an event while H2F_FULL is 1. -/
def State.writeMbH2f (s : State) (fn j : Nat) (v part : Word) : State :=
  let d := R.prmMbH2f
  if s.fld R.prmMbCtrl fn [] 0 0 = 1 then s.refuseBar fn (d.off + 8 * j) v
  else s.setReg d fn [j] (d.written (s.reg d fn [j]) v part false false)

/-! Steps and copies. -/

/-- The oldest command of a ring that is not a STEP and has not started (R491). -/
def State.nextOther (s : State) (r : Nat) : Option Cmd := s.ringCmd r (fun c => !c.started && c.field 0 1 != 1)

/-- The data of a COPY moved and its command completed (R490, R493), unless an exact-mode step holds it off (R233) or the device is stopped (R558). -/
def State.finishCopy (s : State) (c : Cmd) : State :=
  let host := c.field 0x18 8
  let dev := c.field 0x20 8
  let n := c.field 0x28 4
  if s.exactHeld 0 dev n || s.gstopped then s
  else if c.field 0x2C 1 = 0 then
    let st := s.memWriteStatus c.part dev n
    if st ≠ stOK then s.finishCmd c st 0 0 0 0
    else ((((s.intrude dev n).store dev (s.hostBytes host n))).access (.dma c.part) dev n true).finishCmd c stOK 0 0 0 0
  else
    let st := s.memStatus c.part dev n
    if st = stUncorr then
      (match s.badIn dev n with
      | some w => (s.memError w c.part).finishCmd c st 0 0 0 0
      | none => s.finishCmd c st 0 0 0 0)
    else if st ≠ stOK then s.finishCmd c st 0 0 0 0
    else ((s.hostStore host (s.bytes dev n)).access (.dma c.part) dev n false).finishCmd c stOK 0 0 0 0

/-- The oldest started COPY of a ring. -/
def State.openCopy (s : State) (r : Nat) : Option Cmd := s.ringCmd r (fun c => c.started && c.field 0 1 == 2)

end Sys2Proof.Machine
end

