-- ==== Sys2Proof/Machine/CrkOps.lean ====
section
/-! DEFINITION. The fronthaul side of the Crocus dies (R334 to R352, R365, R372 to R376): lanes and ports, flows, uplink,
downlink and C-plane records, and the frames they receive and send. A Crocus die is named by its number k, 0 or 1. -/
namespace Sys2Proof.Machine

/-! Lanes and ports. -/

/-- QUAD_MODE of a lane's quad (R335). -/
def State.quadMode (s : State) (k l : Nat) : Nat := bitsOf (s.fld R.crkPortCfg (20 + k) [] 7 0) (2 * (l / 4) + 1) (2 * (l / 4))

/-- The first lane of the port that a lane belongs to (R335); none while its quad is off. -/
def State.portOf (s : State) (k l : Nat) : Option Nat :=
  match s.quadMode k l with
  | 0 => some l
  | 1 => some (l / 2 * 2)
  | 2 => some (l / 4 * 4)
  | _ => none

/-- The lanes of a port by its quad's mode (R335). -/
def portLanes (mode : Nat) : Nat := if mode = 0 then 1 else if mode = 1 then 2 else 4

/-- Whether the port at a lane is enabled (R337, R366). -/
def State.portOn (s : State) (k l : Nat) : Bool := s.portOf k l == some l && bitOf (s.fld R.crkPortCfg (20 + k) [] 23 8) l

/-- Whether the port at a lane carries traffic: enabled, in a domain that is on, and every lane of it trained. -/
def State.portUp (s : State) (k l : Nat) : Bool :=
  s.portOn k l && s.pdOn (40 + 2 * k) &&
  (List.range (portLanes (s.quadMode k l))).all (fun i => s.fld R.crkLane (20 + k) [l + i] 5 5 == 1)

/-- The lanes of a port set up or down, each change in the trace (R563). -/
def State.setPortLanes (s : State) (k l v : Nat) : State :=
  (List.range (portLanes (s.quadMode k l))).foldl (fun s i =>
    if s.fld R.crkLane (20 + k) [l + i] 5 5 = v then s
    else (s.setFld R.crkLane (20 + k) [l + i] 5 5 v).traceLink (20 + k) (l + i) v) s

/-- A write of CRK_PORT_CFG (R335, R366): a port that is no longer enabled goes down. -/
def State.writePortCfg (s : State) (k : Nat) (v part : Word) : State :=
  let r := R.crkPortCfg
  let old := s
  let s := s.setReg r (20 + k) [] (r.written (s.reg r (20 + k) []) v part false false)
  (List.range 16).foldl (fun (t : State) l =>
    if old.portOn k l && !(t.portOn k l && t.quadMode k l == old.quadMode k l) then
      (List.range (portLanes (old.quadMode k l))).foldl (fun (t : State) i =>
        if t.fld R.crkLane (20 + k) [l + i] 5 5 = 0 then t
        else (t.setFld R.crkLane (20 + k) [l + i] 5 5 0).traceLink (20 + k) (l + i) 0) t
    else t) s

/-- A write of CRK_SPARE_CMD (R337). -/
def State.writeCrkSpare (s : State) (m : Master) (k : Nat) (v : Word) : State :=
  let l := getField v 3 0
  if !(v.getLsbD 8) then s
  else if match s.portOf k l with
    | some p => s.portOn k p
    | none => false
  then s.refuseReg m R.crkSpareCmd (20 + k) [] v
  else s.setFld R.crkLane (20 + k) [l] 4 0 (if v.getLsbD 4 then 17 else 16)

/-! Numerology. -/

/-- μ of a cell (R291, R343): the model's reading of `Config.cellNumerology`. -/
def cellMu (cell : Nat) : Nat :=
  let x := Config.cellNumerology cell % 3
  if x = 2 then 3 else x

/-- The start of symbol l of a subframe, in units of 1/30.72 µs, with normal cyclic prefix. -/
def symbolTs (mu l : Nat) : Nat := l * (2192 / 2 ^ mu) + (if 1 ≤ l then 16 else 0) + (if 7 * 2 ^ mu < l then 16 else 0)

/-- The symbols of a subframe. -/
def subframeSymbols (mu : Nat) : Nat := 14 * 2 ^ mu

/-- The start of the symbol of a count from the epoch of the radio time base, in nanoseconds (R343). -/
def symbolStart (mu n : Nat) : Int :=
  (((n / subframeSymbols mu * 30720 + symbolTs mu (n % subframeSymbols mu)) * 3125 / 96 : Nat) : Int)

/-- The count of the symbol that holds an instant. -/
def symbolAt (mu : Nat) (ns : Int) : Nat :=
  let t := ns.toNat
  let base := t / 1000000 * subframeSymbols mu
  base + ((List.range (subframeSymbols mu)).filter (fun l => decide (symbolStart mu (base + l) ≤ ns))).length - 1

/-! Flows and their windows. -/

/-- CRK_FLOW of a flow. -/
def State.flowReg (s : State) (k f : Nat) : Word := s.reg R.crkFlow (20 + k) [f]

/-- What the die keeps of a flow. -/
def State.flowOf (s : State) (k f : Nat) : CrkFlow := s.crkFlows.getD (4096 * k + f) {}

/-- The state with a flow replaced. -/
def State.setFlow (s : State) (k f : Nat) (x : CrkFlow) : State := { s with crkFlows := s.crkFlows.put (4096 * k + f) x }

/-- μ of a flow's cell. -/
def State.flowMu (s : State) (k f : Nat) : Nat := cellMu (getField (s.flowReg k f) 44 36)

/-- NPRB of a flow. -/
def State.flowPrbs (s : State) (k f : Nat) : Nat := getField (s.flowReg k f) 60 52

/-- RS of a flow's records (R344, R348). -/
def recordSize (w : Word) : Nat := if getField w 3 2 = 2 then 1024 else 64 + cdiv (getField w 60 52 * 48) 64 * 64

/-- RECS of a flow's window (R344). -/
def recordCount (w win : Word) : Nat := getField win 43 25 * 64 / recordSize w

/-- The node offset of the record of a symbol count (R344). -/
def State.recordAt (s : State) (k f n : Nat) : Nat :=
  let w := s.flowReg k f
  let win := s.reg R.crkFlowWin (20 + k) [f]
  irisBase (getField w 51 50) + getField win 24 0 + n % max 1 (recordCount w win) * recordSize w

/-- A counter of CRK_FLOW_CNT advanced: LATE, EARLY, SRC_LATE, BAD_FORMAT at bits 0, 16, 32, 48 (R366). -/
def State.countFlow (s : State) (k f lo n : Nat) : State := s.bumpFld R.crkFlowCnt (20 + k) [f] (lo + 15) lo n

/-- A write of a Crocus die into Iris SRAM: it lands where the SRAM answers (R29, R520). -/
def State.crkStore (s : State) (k off : Nat) (bs : List Byte) : State :=
  if s.memUp off && !s.chipFenced then (s.store off bs).access (.crocus k) off bs.length true else s

/-- The token that a window names, signalled by a Crocus die (R345, R355). -/
def State.crkToken (s : State) (k : Nat) (win : Word) : State :=
  if !(win.getLsbD 44) then s
  else match tokenTargetOf (getField win 60 45) with
    | none => s
    | some t => s.sendToken t (s.masterCode (.crocus k)) 0 true

/-- A write of CRK_FLOW (R344, R366): MODE 3 and a window of fewer than 2 records store VALID as 0. -/
def State.writeFlow (s : State) (m : Master) (k f : Nat) (v part : Word) : State :=
  let r := R.crkFlow
  let w := r.written (s.flowReg k f) v part false false
  let w := if 6 ≤ getField w 63 61 then setField w 63 61 0 else w
  let w := if getField w 3 2 = 3 then setField w 0 0 0 else w
  let small := w.getLsbD 0 && getField w 3 2 != 1 && decide (recordCount w (s.reg R.crkFlowWin (20 + k) [f]) < 2)
  if small then (s.setReg r (20 + k) [f] (setField w 0 0 0)).refuseReg m r (20 + k) [f] v
  else
    let s := s.setReg r (20 + k) [f] w
    if w.getLsbD 0 then s else s.setFlow k f {}

/-- A write of a window register of the die (R366): BASE in units of 64 B, no LEN above 262,144. -/
def State.writeCrkWin (s : State) (m : Master) (r : RegD) (k : Nat) (ix : List Nat) (v part : Word) : State :=
  let w := r.written (s.reg r (20 + k) ix) v part false false
  if 262144 < getField w 43 25 then s.refuseReg m r (20 + k) ix v
  else s.setReg r (20 + k) ix (setField w 5 0 0)

/-- A write of CRK_FLOW_WIN (R344, R366). -/
def State.writeFlowWin (s : State) (m : Master) (k f : Nat) (v part : Word) : State :=
  let s := s.writeCrkWin m R.crkFlowWin k [f] v part
  let w := s.flowReg k f
  if w.getLsbD 0 && getField w 3 2 != 1 && decide (recordCount w (s.reg R.crkFlowWin (20 + k) [f]) < 2) then
    ((s.setReg R.crkFlow (20 + k) [f] (setField w 0 0 0)).setFlow k f {}).refuseReg m R.crkFlowWin (20 + k) [f] v
  else s

/-! Receiving U-plane data. -/

/-- The frame that an 8-bit frameId names (R343): the nearest to the arrival stamp, the earlier of two. -/
def resolveFrame (id : Nat) (stamp : Int) : Int :=
  let x := stamp - id * 10000000
  id + 256 * ((x - 1280000000 + 2559999999) / 2560000000)

/-- A record being filled, or a fresh one. -/
def CrkFlow.recOf (x : CrkFlow) (n : Nat) : CrkRec := (x.recs.find? (fun r => r.n == n)).getD { n := n }

/-- The flow with a record replaced. -/
def CrkFlow.putRec (x : CrkFlow) (r : CrkRec) : CrkFlow := { x with recs := r :: x.recs.filter (fun y => y.n != r.n) }

/-- A part expanded from block floating point (R342): mantissa × 2^exponent, saturated to 16 bits. -/
def expandPart (ex : Nat) (m : Int) : Int × Bool := satInt 16 (m * 2 ^ ex)

/-- One received PRB (R342, R345): its first copy is written. -/
def State.takePrb (s : State) (k f n p : Nat) (prb : Nat × List Int) : State :=
  if p ≥ s.flowPrbs k f then s
  else
    let x := s.flowOf k f
    let r := x.recOf n
    if bitOf r.map p then s.setFlow k f (x.putRec { r with dup := satAdd r.dup 1 65535 })
    else
      let e := (prb.2.take 24).map (expandPart prb.1)
      let sat := (e.filter (fun y => y.2)).length
      let s := s.crkStore k (s.recordAt k f n + 64 + 48 * p) ((e.map (fun y => leBytes 2 (wrapInt 16 y.1))).flatten)
      s.setFlow k f (x.putRec { r with map := r.map + 2 ^ p, sat := satAdd r.sat sat 65535 })

/-- The PRBs of a section, one after another. -/
def State.takePrbs (s : State) (k f n : Nat) : Nat → List (Nat × List Int) → State
  | _, [] => s
  | p, x :: t => (s.takePrb k f n p x).takePrbs k f n (p + 1) t

/-- Whether a flow takes a section's compression (R341, R366). -/
def compOk (comp meth width : Nat) : Bool :=
  (comp == 5 && ((meth == 0 && width == 16) || (meth == 1 && (width == 9 || width == 12 || width == 14)))) ||
  (comp == 0 && meth == 0 && width == 16) || (comp == 1 && meth == 1 && width == 9) ||
  (comp == 2 && meth == 1 && width == 12) || (comp == 3 && meth == 1 && width == 14)

/-- The symbol count of a section (R343). -/
def sectionSymbol (mu : Nat) (x : USection) (stamp : Int) : Nat :=
  ((resolveFrame x.frameId stamp).toNat * 10 + x.subframe) * subframeSymbols mu + x.slot * 14 + x.symbol

/-- A section of a received U-plane message (R343 to R345). -/
def State.takeSection (s : State) (k f : Nat) (x : USection) (stamp : Int) : State :=
  let mu := s.flowMu k f
  let n := sectionSymbol mu x stamp
  let t := s.reg R.crkFlowTime (20 + k) [f]
  let start := symbolStart mu n
  let fl := s.flowOf k f
  let done := match fl.last with
    | some y => decide (n ≤ y)
    | none => false
  if stamp < start + sext 32 (getField t 31 0) then s.countFlow k f 16 x.prbs.length
  else if done || decide (start + sext 32 (getField t 63 32) ≤ stamp) then s.countFlow k f 0 x.prbs.length
  else
    let r := fl.recOf n
    (s.setFlow k f (fl.putRec { r with secs := satAdd r.secs 1 65535 })).takePrbs k f n x.startPrb x.prbs

/-- The values of the eCPRI sequence that went missing before a message (R343). -/
def seqMissing (last : Option Nat) (seq : Nat) : Nat :=
  match last with
  | none => 0
  | some l =>
    let d := (seq + 256 - l) % 256
    if d = 0 ∨ 128 ≤ d then 0 else d - 1

/-- A seqId taken (R343): what is missing is counted in the record that is open. -/
def State.takeSeq (s : State) (k f seq : Nat) (n : Option Nat) : State :=
  let x := s.flowOf k f
  let gap := seqMissing x.seqIn seq
  let keep := match x.seqIn with
    | some l => decide (128 ≤ (seq + 256 - l) % 256)
    | none => false
  let x := if keep then x else { x with seqIn := some (seq % 256) }
  match n with
  | none => s.setFlow k f x
  | some n =>
    if gap = 0 then s.setFlow k f x
    else
      let r := x.recOf n
      s.setFlow k f (x.putRec { r with gap := satAdd r.gap gap 65535 })

/-- A U-plane message of a flow (R341 to R345): one that uses an unsupported feature is dropped and counted. -/
def State.takeUplane (s : State) (k f : Nat) (m : EcpriMsg) (stamp : Int) : State :=
  let comp := getField (s.flowReg k f) 63 61
  let mu := s.flowMu k f
  let n := m.secs.head?.map (fun x => sectionSymbol mu x stamp)
  let s := s.takeSeq k f m.seqId n
  if m.bad || m.secs.any (fun x => !(compOk comp x.meth x.width)) then
    let s := s.countFlow k f 48 1
    match n with
    | none => s
    | some n =>
      let x := s.flowOf k f
      s.setFlow k f (x.putRec { x.recOf n with bad := true })
  else m.secs.foldl (fun s x => s.takeSection k f x stamp) s

/-- The uplink header of a record (R346). -/
def recordHeader (r : CrkRec) : List Byte :=
  leBytes 8 r.n ++ leBytes 36 r.map ++ leBytes 2 r.secs ++ leBytes 2 r.gap ++ leBytes 2 r.dup ++ leBytes 2 r.sat ++
  leBytes 1 (b2n r.bad) ++ leBytes 11 0

/-- The header of the record of a symbol is written and its token signalled (R345). -/
def State.writeHeader (s : State) (k f n : Nat) : State :=
  let w := s.flowReg k f
  let x := s.flowOf k f
  let done := match x.last with
    | some y => decide (n ≤ y)
    | none => false
  if !(w.getLsbD 0) || w.getLsbD 1 || getField w 3 2 != 0 || done || !(s.pdOn (41 + 2 * k)) then s
  else
    let t := s.reg R.crkFlowTime (20 + k) [f]
    let s := s.advanceTo (s.lcOfArt (symbolStart (s.flowMu k f) n + sext 32 (getField t 63 32)))
    let s := s.crkStore k (s.recordAt k f n) (recordHeader (x.recOf n))
    let s := s.setFlow k f { x with last := some n, recs := x.recs.filter (fun r => decide (n < r.n)) }
    s.crkToken k (s.reg R.crkFlowWin (20 + k) [f])

/-! Sending. -/

/-- A port's egress. -/
def State.port (s : State) (k l : Nat) : CrkPort := s.crkPorts.getD (16 * k + l) {}

/-- The state with a port's egress replaced. -/
def State.setPort (s : State) (k l : Nat) (p : CrkPort) : State := { s with crkPorts := s.crkPorts.put (16 * k + l) p }

/-- The bytes of the transmit share that are in use (R365). -/
def State.txFill (s : State) (k : Nat) : Nat :=
  let sum (l : List TxFrame) : Nat := (l.map TxFrame.len).foldl (· + ·) 0
  sum (s.crkWait.getD k []) +
  ((List.range 16).map (fun l => ((List.range 4).map (fun q => sum ((s.port k l).queues.getD q []))).foldl (· + ·) 0)).foldl (· + ·) 0

/-- The size of the transmit share in bytes (R365). -/
def State.txShare (s : State) (k : Nat) : Nat := (64 - s.fld R.crkPortCfg (20 + k) [] 43 38) * 0x100000

/-- A frame put among those that wait to join their queue. -/
def State.addTx (s : State) (k : Nat) (x : TxFrame) : State := { s with crkWait := s.crkWait.put k (s.crkWait.getD k [] ++ [x]) }

/-- The bytes of a frame with n bytes after its eCPRI common header, and the FCS; tagged or not, at least 64. -/
def ecpriLen (w : Word) (n : Nat) : Nat := max 64 (14 + (if getField w 19 8 = 0xFFF then 0 else 4) + 4 + n + 4)

/-- The runs of set bits of a PRB map, from bit p of n bits on (R347). -/
def prbRuns (map : Nat) : Nat → Nat → Option Nat → List (Nat × Nat)
  | 0, p, some a => [(a, p - a)]
  | 0, _, none => []
  | n + 1, p, o =>
    if bitOf map p then prbRuns map n (p + 1) (some (o.getD p))
    else match o with
      | some a => (a, p - a) :: prbRuns map n (p + 1) none
      | none => prbRuns map n (p + 1) none

/-- Whether a part fits in w signed bits under an exponent (R342). -/
def fitsBfp (w ex : Nat) (x : Int) : Bool :=
  let y := if ex = 0 then x else (x + 2 ^ (ex - 1)) / 2 ^ ex
  decide (-(2 ^ (w - 1)) ≤ y) && decide (y < 2 ^ (w - 1))

/-- A PRB compressed for the wire (R342): the smallest exponent under which every part fits, and the mantissas. -/
def compressPrb (w : Nat) (parts : List Int) : Nat × List Nat :=
  let ex := ((List.range 16).find? (fun e => parts.all (fitsBfp w e))).getD 15
  (ex, parts.map (bfpMantissa w ex))

/-- iqWidth of a flow's COMP, or 16 (R366). -/
def compWidth (comp : Nat) : Nat := if comp = 1 then 9 else if comp = 2 then 12 else if comp = 3 then 14 else 16

/-- A section of a downlink symbol: its sectionId, its first PRB and its PRBs (R342, R347). -/
def State.txSection (s : State) (comp rec_ id : Nat) (run : Nat × Nat) : Nat × Nat × List (Nat × List Nat) :=
  let parts (p : Nat) : List Int := (List.range 24).map (fun j => sext 16 (s.num (rec_ + 64 + 48 * p + 2 * j) 2))
  let one (p : Nat) : Nat × List Nat :=
    if 1 ≤ comp ∧ comp ≤ 3 then compressPrb (compWidth comp) (parts p) else (0, (parts p).map (wrapInt 16))
  (id, run.1, (List.range run.2).map (fun i => one (run.1 + i)))

/-- The bytes of a PRB on the wire; the free value is what modulation compression and a dynamic header make of it. -/
def prbBytes (comp free : Nat) : Nat :=
  if comp = 0 then 48 else if comp ≤ 3 then 1 + 3 * compWidth comp else 1 + free % 48

/-- The seqId of a flow's next message. -/
def State.nextSeq (s : State) (k f : Nat) : Nat × State :=
  let x := s.flowOf k f
  (x.seqOut, s.setFlow k f { x with seqOut := (x.seqOut + 1) % 256 })

/-- Whether a symbol of a sent flow has gone already. -/
def CrkFlow.passed (x : CrkFlow) (n : Nat) : Bool :=
  match x.last with
  | some y => decide (n ≤ y)
  | none => false

/-- A sent flow's symbol: its record is read at symbol start + SEND_NS − 2 µs (R347). -/
def State.sendAt (s : State) (k f n : Nat) : State :=
  let t := s.reg R.crkFlowTime (20 + k) [f]
  let x := s.flowOf k f
  (s.advanceTo (s.lcOfArt (symbolStart (s.flowMu k f) n + sext 32 (getField t 31 0) - 2000))).setFlow k f { x with last := some n }

/-- A downlink record read and sent (R347, R365). -/
def State.sendDownlink (s : State) (k f n : Nat) : State :=
  let w := s.flowReg k f
  if !(w.getLsbD 0) || !(w.getLsbD 1) || getField w 3 2 != 0 || (s.flowOf k f).passed n || !(s.pdOn (41 + 2 * k)) then s
  else
    let s := s.sendAt k f n
    let a := s.recordAt k f n
    let size := recordSize w
    if s.num a 8 ≠ n ∨ s.memUp a = false then s.countFlow k f 32 1
    else match s.badIn a size with
      | some b => (s.memError b 0).countFlow k f 32 1
      | none =>
        let comp := getField w 63 61
        let s := s.access (.crocus k) a size false
        let runs := prbRuns (s.num (a + 8) 36) (s.flowPrbs k f) 0 none
        let d := if comp ≤ 3 then (0, s) else s.draw
        let s := d.2
        let secs := runs.zipIdx.map (fun e => s.txSection comp a (s.num (a + 0x2C) 2 + e.2) e.1)
        let len (x : Nat × Nat × List (Nat × List Nat)) : Nat :=
          ecpriLen w (4 + 4 + 4 + (if comp = 5 then 2 else 0) + x.2.2.length * prbBytes comp d.1)
        let total := (secs.map len).foldl (· + ·) 0
        if s.txShare k < s.txFill k + total then s.countFlow k f 32 1
        else secs.foldl (fun s x =>
          let q := s.nextSeq k f
          q.2.addTx k { lane := getField w 7 4, queue := 1, len := len x, secs := [x], flow := some f, seq := q.1 }) s

/-- A C-plane record read and sent (R347, R348). -/
def State.sendCplane (s : State) (k f n : Nat) : State :=
  let w := s.flowReg k f
  if !(w.getLsbD 0) || !(w.getLsbD 1) || getField w 3 2 != 2 || (s.flowOf k f).passed n || !(s.pdOn (41 + 2 * k)) then s
  else
    let s := s.sendAt k f n
    let a := s.recordAt k f n
    let len := s.num (a + 8) 2
    if s.num a 8 ≠ n ∨ s.memUp a = false ∨ len < 4 ∨ 1000 < len then s.countFlow k f 32 1
    else match s.badIn a 1024 with
      | some b => (s.memError b 0).countFlow k f 32 1
      | none =>
        let bytes := ecpriLen w len
        let s := s.access (.crocus k) a (16 + len) false
        if s.txShare k < s.txFill k + bytes then s.countFlow k f 32 1
        else
          let q := s.nextSeq k f
          q.2.addTx k { lane := getField w 7 4, queue := 0, len := bytes, raw := s.bytes (a + 16) len, flow := some f, seq := q.1 }

end Sys2Proof.Machine
end

