-- ==== Sys2Proof/Machine/DomOps.lean ====
section
/-! DEFINITION. What a power domain loses as it leaves ON, and what it does as it leaves reset (R12, R41, R44, R228, R576,
R591): shared by PRM_PD_CMD and by the chip reset. -/
namespace Sys2Proof.Machine

/-- The register that a key of the register table names, with its die and indexes; none for one in BAR0 space. -/
def keyReg (k : Nat) : Option (Nat × RegD × List Nat) :=
  if k < winBase ∨ winBase + 0x20000000 ≤ k then none
  else
    let x := (k - winBase) / 0x1000000
    match regAt x ((k - winBase) % 0x1000000) with
    | none => none
    | some (r, ix) => some (x, r, ix)

/-- The power domain of a key of the register table; BAR0 space lies in the PCIe and security domain. -/
def keyDomain (k : Nat) : Nat :=
  match keyReg k with
  | none => 57
  | some (x, r, _) => domainOf r x

/-- Whether a key names a register that every Lupin die holds alike (R428). -/
def keyNodeWide (k : Nat) : Bool :=
  match keyReg k with
  | none => false
  | some (_, r, _) => r.dom == .lpnw

/-- Whether every other Lupin domain is off, so that no die keeps the registers that they share. -/
def State.lastLupin (s : State) (n : Nat) : Bool := [44, 45, 46, 47].all (fun x => x == n || !(s.pdOn x))

/-- The registers of a domain take their reset values (R12). -/
def State.clearRegs (s : State) (n : Nat) : State :=
  let last := s.lastLupin n
  let lpn := decide (44 ≤ n) && decide (n ≤ 47)
  { s with regs := s.regs.keep (fun k =>
      if lpn && keyNodeWide k then !last else keyDomain k != n) }

/-- The entries of a table whose keys lie outside [lo, lo + n). -/
def Tab.outside {α : Type} (t : Tab α) (lo n : Nat) : Tab α := t.keep (fun k => !(decide (lo ≤ k) && decide (k < lo + n)))

/-- The lane arrays of Dahlia die d lose their state. -/
def State.loseLanes (s : State) (d : Nat) : State :=
  (List.range 8).foldl (fun s l =>
    let u := SeqUnit.cluster (8 * d + l)
    s.setSeq u { s.seq u with acc := [], bias := [], macs := [], vecs := [] }) s

/-- The sequencers, the scratchpad and the HBM3E stack of Dahlia die d lose their state. -/
def State.loseDahlia (s : State) (d : Nat) : State :=
  let s := (s.zeroRange (hbmBase d) 0x1000000000).zeroRange (spBase d) 0x10000000
  { s with
    seqs := s.seqs.outside (SeqUnit.key (.cluster (8 * d))) 8
    training := s.training.filter (fun x => x != d)
    bankGo := s.bankGo.outside (32 * d) 32
    wipes := s.wipes.filter (fun w => w.die != d)
    ownerReqs := s.ownerReqs.map (fun r => if r.die = d then { r with wiping := false } else r)
    suspFrozen := s.suspFrozen.filter (fun c => s.physCluster c != none && (s.physCluster c).map (fun p => p / 8) != some d)
    shadowRow := s.shadowRow.outside (8 * d) 8
    placements := s.placements.outside (8 * d) 8 }

/-- The DSP cores of Iris number i lose their state. -/
def State.loseCores (s : State) (i : Nat) : State := { s with seqs := s.seqs.outside (SeqUnit.key (.iris (48 * i))) 48 }

/-- The engines, the SRAM, the slot timers and the backhaul link of Iris number i lose their state. -/
def State.loseEngines (s : State) (i : Nat) : State :=
  let s := s.zeroRange (irisBase i) 0x02000000
  { s with eng := s.eng.outside (64 * i) 64, stimers := s.stimers.outside (8 * i) 8, bh := s.bh.del i }

/-- The ports of Crocus number c lose their state. -/
def State.losePorts (s : State) (c : Nat) : State :=
  { s with crkPorts := s.crkPorts.outside (16 * c) 16, crkWait := s.crkWait.del c
           rclkLow := s.rclkLow.filter (fun x => x / 2 != c) }

/-- The front end of Crocus number c loses its state. -/
def State.loseFront (s : State) (c : Nat) : State :=
  { s with crkFlows := s.crkFlows.outside (4096 * c) 4096, crkPaths := s.crkPaths.outside (1024 * c) 1024
           crkWords := s.crkWords.del c }

/-- The pair of Lupin die 22 + k loses its state; the mirrors go with the region descriptors (R415). -/
def State.loseLupin (s : State) (k : Nat) : State :=
  let last := s.lastLupin (44 + k)
  { s with
    homes := s.homes.del k, links := s.links.outside (8 * k) 8, egress := s.egress.outside (256 * k) 256
    yellowQ := s.yellowQ.del k, spareElec := s.spareElec.del k
    mirrors := if last then [] else s.mirrors
    held := s.held.filter (fun h => match h.by_ with
      | .fabric .. => !(decide (R.lpnMtr.at (22 + k) [0] ≤ h.meter) && decide (h.meter < R.lpnMtr.at (23 + k) [0]))
      | _ => true)
    tc := s.tc.keep (fun key => !(decide (R.lpnMtr.at (22 + k) [0] ≤ key) && decide (key < R.lpnMtr.at (23 + k) [0]))) }

/-- The far memory loses its contents (R576). -/
def State.loseFar (s : State) : State :=
  { s.zeroRange 0x010000000000 0x008000000000 with training := s.training.filter (fun x => x != 30) }

/-- The die whose trace unit and event counters a domain holds (R562, R565). -/
def traceDie (n : Nat) : Option Nat := (List.range 31).find? (fun d => domainOf R.trcCfg d == n)

/-- A domain loses its state as it leaves ON (R576). -/
def State.loseDomain (s : State) (n : Nat) : State :=
  let s := if n < 32 then (if n % 2 = 0 then s.loseLanes (n / 2) else s.loseDahlia (n / 2))
    else if n < 40 then (if n % 2 = 0 then s.loseCores (n / 2 - 16) else s.loseEngines (n / 2 - 16))
    else if n < 44 then (if n % 2 = 0 then s.losePorts (n / 2 - 20) else s.loseFront (n / 2 - 20))
    else if n < 48 then s.loseLupin (n - 44)
    else if n = 52 then { s with tier := [] }
    else if n = 53 then s.loseFar
    else s
  let s := match traceDie n with
    | none => s
    | some d => { s with trc := s.trc.del d, pmuLc := s.pmuLc.del d }
  { s.clearRegs n with replicas := s.replicas.filter (fun d => replicaDomain d != n) }

/-- The clusters of a die show their withdrawal as the die's domain leaves reset (R44). -/
def State.showWithdrawn (s : State) (d : Nat) : State :=
  (List.range 8).foldl (fun s l =>
    if s.withdrawn (8 * d + l) then s.setFld R.dhlClStatus d [l] 1 1 1 else s) s

/-- A domain leaves reset as it reaches ON (R44, R228, R240, R565, R576, R591): a Dahlia die's sealed region is wiped and its
HBM3E stack trains; LPDDR5X trains once the PHY is on; the die's cycle counter starts. -/
def State.enterDomain (s : State) (n : Nat) : State :=
  let s := match traceDie n with
    | none => s
    | some d => { s with pmuLc := s.pmuLc.put d s.lc }
  if n < 32 then
    if n % 2 = 0 then s
    else
      let d := n / 2
      let s := s.showWithdrawn d
      { s with wipes := s.wipes ++ [{ die := d, cause := 4, slices := 255 }], training := s.training ++ [d] }
  else if n = 53 then { s with training := s.training ++ [30] }
  else s

end Sys2Proof.Machine
end

