-- ==== Sys2Proof/Machine/LsOps.lean ====
section
/-! DEFINITION. The lock-step unit (R471 to R475): its records, its comparison and its stop. -/
namespace Sys2Proof.Machine

/-- The state of the lock-step unit: 0 OFF, 1 RUNNING, 2 STOPPED (R478). -/
def State.lsState (s : State) : Nat := s.fld R.prmLsStat 31 [] 1 0

/-- The 64 B of a record (R473). -/
def lsRecord (seq kind status : Nat) (digest : List Byte) : List Byte :=
  leBytes 8 seq ++ leBytes 1 kind ++ leBytes 3 0 ++ leBytes 4 status ++ (digest ++ List.replicate 32 0).take 32 ++ leBytes 16 0

/-- A record written to the peer's inbox with a block put as context 1,048 (R473). -/
def State.lsPut (s : State) (seq kind status : Nat) (digest : List Byte) : State :=
  s.fabIssue { id := 0, issuer := .lockstep, step := 0, part := 0, radio := false, kind := .put,
               dst := s.fld R.prmLsPeer 31 [] 15 0, addr := s.fld R.prmLsPeer 31 [] 63 16 + seq % 4096 * 64, size := 64,
               operand := 0, cmp := 0, akind := 0, res := false, data := lsRecord seq kind status digest, loc := 0,
               token := none, seq := seq } s.lc

/-- The unit's outstanding puts complete FENCED; their later answers are discarded (R473). -/
def State.lsDropPuts (s : State) : State := { s with remote := s.remote.filter (fun (o : RemoteOp) => o.issuer != .lockstep) }

/-- A stop (R475): a global stop, a stop record to the peer, and STOPPED with its cause. -/
def State.lsStop (s : State) (cause seq : Nat) : State :=
  if s.lsState ≠ 1 then s
  else
    let s := (s.globalStop 3).lsPut seq 2 0 []
    let s := s.lsDropPuts
    ((s.setFld R.prmLsStat 31 [] 1 0 2).setFld R.prmLsStat 31 [] 3 2 cause).setFld R.prmLsStat 31 [] 63 32 seq

/-- The status of a put of the unit (R475): any but OK is a TIMEOUT. -/
def State.lsPutDone (s : State) (status seq : Nat) : State := if status = stOK then s else s.lsStop 2 seq

/-- The record of a SEQ in the own inbox (R473): its kind, its status and its digest, if it has arrived. -/
def State.lsInbox (s : State) (seq : Nat) : Option (Nat × Nat × List Byte) :=
  let a := s.fld R.prmLsInbox 31 [] 47 0 + seq % 4096 * 64
  let kind := s.num (a + 8) 1
  if s.num a 8 = seq ∧ (kind = 1 ∨ kind = 2) then some (kind, s.num (a + 12) 4, s.bytes (a + 16) 32) else none

/-- AGREED advanced over the steps from it upward that have agreed (R474): those whose own digest has been compared. -/
def State.lsCompare (s : State) (seq : Nat) : State :=
  match s.lsOwn.find seq, s.lsInbox seq with
  | some own, some (1, _, d) =>
    if own.2 = d then
      let s := { s with lsOwn := s.lsOwn.put seq (own.1, []) }
      s
    else s.lsStop 1 seq
  | _, _ => s

/-- AGREED moves past every step from it upward whose digests have agreed (R474). -/
def State.lsAdvance (s : State) : Nat → State
  | 0 => s
  | n + 1 =>
    let a := s.fld R.prmLsSeq 31 [] 63 32
    match s.lsOwn.find a with
    | some (_, []) => ({ s with lsOwn := s.lsOwn.del a }).setFld R.prmLsSeq 31 [] 63 32 (a + 1) |>.lsAdvance n
    | _ => s

/-- A record of the own inbox looked at (R474, R475): a stop record stops the unit, a digest is compared. -/
def State.lsLook (s : State) (seq : Nat) : State :=
  if s.lsState ≠ 1 then s
  else match s.lsInbox seq with
    | some (2, _, _) => s.lsStop 3 seq
    | some _ => (s.lsCompare seq).lsAdvance 4096
    | none => s

end Sys2Proof.Machine
end

