-- ==== Sys2Proof/Machine/FabHome.lean ====
section
/-! DEFINITION. Fabric homes (R397, R398, R404, R409 to R411, R533, R535), mirrored regions (R416 to R420), and the
completion of remote operations (R399, R405, R414). -/
namespace Sys2Proof.Machine

/-! Regions. -/

/-- The region descriptor n (R395): word 0 and word 1. -/
def State.region (s : State) (n : Nat) : Word × Word := (s.reg R.lpnRegion 22 [2 * n], s.reg R.lpnRegion 22 [2 * n + 1])

/-- Whether a valid descriptor covers [off, off + n) (R395, R398). -/
def State.regionCovers (s : State) (i off n : Nat) : Bool :=
  let w := s.region i
  let base := getField w.1 47 0
  w.2.getLsbD 25 && decide (base ≤ off) && decide (off + n ≤ base + getField w.2 17 0 * 0x200000)

/-- The valid descriptor that covers an access, if one does. -/
def State.regionFor (s : State) (off n : Nat) : Option Nat := (List.range 4096).find? (fun i => s.regionCovers i off n)

/-- ROLE of a region (R395). -/
def State.regionRole (s : State) (i : Nat) : Nat := getField (s.region i).2 27 26
/-- STATE of a region (R416). -/
def State.regionState (s : State) (i : Nat) : Nat := getField (s.region i).2 30 28
/-- PARTNER of a region (R395). -/
def State.regionPartner (s : State) (i : Nat) : Nat := getField (s.region i).2 47 32
/-- PARTITION of a region (R395). -/
def State.regionPart (s : State) (i : Nat) : Nat := getField (s.region i).2 23 18

/-- A region moves to a mirror state, with its event (R417). -/
def State.setMirror (s : State) (i st : Nat) : State :=
  let old := s.regionState i
  (s.setFld R.lpnRegion 22 [2 * i + 1] 30 28 st).stateEvent (R.lpnRegion.at 22 [2 * i + 1]) old st

/-- The mirroring record of a region. -/
def State.mirror (s : State) (i : Nat) : Mirror := s.mirrors.getD i {}

/-- The state with a mirroring record replaced. -/
def State.putMirror (s : State) (i : Nat) (m : Mirror) : State := { s with mirrors := s.mirrors.put i m }

/-! Checks. -/

/-- Whether a request writes (R398). -/
def fabWrites : FabKind → Bool
  | .rst => true
  | .put => true
  | .rat => true
  | .copy => true
  | _ => false

/-- Whether the offsets of a request reach memory that the fabric serves on behalf of a partition (R35, R218, R226): an
atomic reaches exchange regions, HBM3E and LPDDR5X only. -/
def State.fabReach (s : State) (kind : FabKind) (part off n : Nat) : Bool :=
  (words64 off n).all (fun a => s.memUp a && s.partReach part a && (match regionOf a with
    | .hbm .. => true
    | .lpddr _ => true
    | .xch .. => true
    | .sp .. => kind != .rat
    | .iris .. => kind != .rat
    | _ => false))

/-- The node that sent a request (R401). -/
def reqNode (tag : Nat) : Nat := tag % 2 ^ 16

/-- Check 3 of R398 with the mirror states of R416: whether the request is answered NOT_OWNER. -/
def State.notOwner (s : State) (i : Nat) (r : FabReq) : Bool :=
  let w := s.region i
  let owner := getField w.1 63 48
  let node := reqNode r.tag
  let role := s.regionRole i
  let st := s.regionState i
  if r.kind == .copy then role != 2 || node != s.regionPartner i
  else
    (fabWrites r.kind && node != owner) || (!fabWrites r.kind && node != owner && !(w.2.getLsbD 24)) ||
    (role == 2 && st != 5 && (fabWrites r.kind || st != 1))

/-- Checks 1 to 4 of R398, in their order: the status of the first that fails, or OK. -/
def State.fabCheck (s : State) (r : FabReq) : Nat :=
  match s.regionFor r.off r.size with
  | none => stNoUnit
  | some i =>
    if !(s.pdOn (44 + (homeDie r.off - 22))) || !(s.fabReach r.kind (s.regionPart i) r.off r.size) then stNoUnit
    else if s.chipFenced || s.fenced 2 (s.regionPart i) then stFenced
    else if s.notOwner i r then stNotOwner
    else if s.regionState i == 5 then stRegionLost
    else stOK

/-! Answers. -/

/-- An answer to a request. -/
def answerOf (r : FabReq) (status value hint : Nat) (full : Bool) (data : List Byte) : FabReply :=
  { tag := r.tag, stamp := r.stamp, pkt := r.pkt, status := status, full := full, hint := hint, value := value, data := data }

/-- An answer sent back (R401, R426): to this node's own issuer, or into the queue of the link that its route names. -/
def State.sendReply (s : State) (p : FabReply) : State :=
  let n := reqNode p.tag
  if n = s.nodeId then { s with localReps := s.localReps ++ [p] }
  else
    let w := s.routeOf n
    if !(bitOf w 15) then s
    else s.linkPush (22 + bitsOf w 1 0)
      { msg := .rep p, level := 2, link := bitsOf w 4 2, left := p.data.length + 32, cost := p.data.length + 32 }

/-! Receipts. -/

/-- A home. -/
def State.home (s : State) (k : Nat) : Home := s.homes.getD k {}

/-- The state with a home replaced. -/
def State.setHome (s : State) (k : Nat) (h : Home) : State := { s with homes := s.homes.put k h }

/-- Whether an APPLIED receipt has expired (R404). -/
def Receipt.expired (r : Receipt) (lc : Nat) : Bool := r.reply.isSome && decide (r.lc + 2000000 ≤ lc)

/-- The receipts of a home that have not expired. -/
def State.receiptsOf (s : State) (k : Nat) : List Receipt := (s.home k).receipts.filter (fun r => !(r.expired s.lc))

/-- The receipt that an attempt matches (R401). -/
def State.receiptFor (s : State) (k : Nat) (r : FabReq) : Option Receipt :=
  (s.receiptsOf k).find? (fun x => x.tag == r.tag && x.stamp == r.stamp)

/-- A PENDING entry allocated for an atomic, with PEAK (R404, R428). -/
def State.allocReceipt (s : State) (k : Nat) (r : FabReq) : State :=
  if r.kind != .rat then s
  else
    let l := s.receiptsOf k ++ [{ tag := r.tag, stamp := r.stamp }]
    let s := s.setHome k { s.home k with receipts := l }
    if l.length > s.fld R.lpnRcpt (22 + k) [] 33 17 then s.setFld R.lpnRcpt (22 + k) [] 33 17 l.length else s

/-- The entry of an atomic made APPLIED with its reply, or freed where the atomic was refused (R404). -/
def State.closeReceipt (s : State) (k : Nat) (p : FabReply) : State :=
  let h := s.home k
  let mine (x : Receipt) : Bool := x.tag == p.tag && x.stamp == p.stamp
  if p.status = stOK then
    s.setHome k { h with receipts := h.receipts.map (fun (x : Receipt) => if mine x then { x with reply := some p, lc := s.lc } else x) }
  else s.setHome k { h with receipts := h.receipts.filter (fun x => !(mine x)) }

/-- The answer of an applied request: its receipt closed, and sent. -/
def State.finishReq (s : State) (k : Nat) (r : FabReq) (p : FabReply) : State :=
  (if r.kind == .rat then s.closeReceipt k p else s).sendReply p

/-! Application. -/

/-- The value an atomic stores (R173). -/
def atomicNew (kind old operand cmp size : Nat) : Nat :=
  let m := 2 ^ (8 * size)
  let b := operand % m
  match kind with
  | 0 => (old + b) % m
  | 1 => (old + b) % m
  | 2 => (toFP32 (FNum.sum [fp32Num (BitVec.ofNat 32 old), fp32Num (BitVec.ofNat 32 b)])).1.toNat
  | 3 => b
  | 9 => b
  | 4 => if old = cmp % m then b else old
  | 0xA => if old = cmp % m then b else old
  | 5 => if sext 64 old ≤ sext 64 b then old else b
  | 6 => if sext 64 old ≤ sext 64 b then b else old
  | 7 => min old b
  | _ => max old b

/-- The bytes that a request leaves at its target, if it writes. -/
def storedOf (r : FabReq) (old : Nat) : List Byte :=
  if r.kind == .rat then leBytes r.size (atomicNew r.akind old r.operand r.cmp r.size) else r.data

/-- A write of inbound traffic (R218, R242, R460): counted where it enters a running step's banks. -/
def State.fabStore (s : State) (off : Nat) (bs : List Byte) : State := (s.intrude off bs.length).store off bs

/-- Check 5 of R398, and a store that covers part of a word in error (R243): whether the request meets one. -/
def State.fabBad (s : State) (r : FabReq) : Option Nat :=
  let w := eccWidth (regionOf r.off)
  (eccWords r.off r.size).find? (fun a => s.badWords.contains a &&
    (!fabWrites r.kind || r.kind == .rat || !(decide (r.off ≤ a) && decide (a + w ≤ r.off + r.size))))

/-- A request applied to memory: its answer, and the state (R398, R399, R173). -/
def State.applyReq (s : State) (r : FabReq) : FabReply × State :=
  match s.fabBad r with
  | some a => (answerOf r stUncorr 0 0 false [], s.memError a ((s.regionFor r.off r.size).map s.regionPart |>.getD 0))
  | none =>
    let old := s.num r.off (if r.kind == .rld || r.kind == .rat then r.size else 0)
    let data := if r.kind == .get then s.bytes r.off r.size else []
    let m := Master.fabric 0 ((s.regionFor r.off r.size).map s.regionPart |>.getD 0)
    let s := if fabWrites r.kind then (s.fabStore r.off (storedOf r old)).access m r.off (storedOf r old).length true else s
    let s := if r.kind == .rld || r.kind == .rat || r.kind == .get then s.access m r.off r.size false else s
    (answerOf r stOK (if r.kind == .rld || r.kind == .rat then old else 0) 0 false data, s)

/-- The region whose partner must hold a write before it is acknowledged (R416, R418). -/
def State.mirrored (s : State) (r : FabReq) : Option Nat :=
  if !fabWrites r.kind || r.kind == .copy then none
  else match s.regionFor r.off r.size with
    | none => none
    | some i => if s.regionRole i = 1 ∧ (s.regionState i = 1 ∨ s.regionState i = 3) then some i else none

/-- A mirror copy of the bytes as they stand after a write, sent to the partner (R418). -/
def State.sendCopy (s : State) (i : Nat) (r : FabReq) (p : FabReply) : State :=
  let m := s.mirror i
  let id := s.nextOp
  let s := s.putMirror i { m with seqOut := m.seqOut + 1, waits := m.waits ++ [{ op := id, req := r, reply := p, lc := s.lc }] }
  s.fabIssue { id := id, issuer := .mirror i, step := 0, part := 0, radio := false, kind := .copy,
               dst := s.regionPartner i, addr := r.off, size := r.size, operand := 0, cmp := 0, akind := 0, res := false,
               data := s.bytes r.off r.size, loc := 0, token := none, seq := m.seqOut } s.lc

/-- A request applied and answered; a write of a mirrored region waits for its partner (R398, R418). -/
def State.serveReq (s : State) (k : Nat) (r : FabReq) : State :=
  let a := s.applyReq r
  if a.1.status ≠ stOK then a.2.finishReq k r a.1
  else match a.2.mirrored r with
    | none => a.2.finishReq k r a.1
    | some i => a.2.sendCopy i r a.1

/-! Lines. -/

/-- Whether an exact-mode step holds a request off its banks (R233). -/
def State.reqHeld (s : State) (r : FabReq) : Bool := s.exactHeld 0 r.off r.size

/-- The entry of a line, if the home keeps one. -/
def State.lineOf (s : State) (k line : Nat) : Option FabLine := (s.home k).lines.find? (fun l => l.line == line)

/-- The lines of a home with one replaced; a line without a queue that may apply again is kept no longer. -/
def putLine (lc : Nat) (x : FabLine) (l : List FabLine) : List FabLine :=
  (l.filter (fun y => y.line != x.line && (!y.queue.isEmpty || decide (lc < y.freeLc)))) ++ [x]

/-- The state with a line of a home replaced. -/
def State.setLine (s : State) (k : Nat) (x : FabLine) : State :=
  s.setHome k { s.home k with lines := putLine s.lc x (s.home k).lines }

/-- The hot lines that a home tracks (R409). -/
def State.tracked (s : State) (k : Nat) : Nat := ((s.home k).lines.filter (fun l => !l.queue.isEmpty)).length

/-- Whether a request is older than another by its stamp, the lower tag breaking a tie (R411). -/
def olderReq (stamp : Int) (tag : Nat) (stamp' : Int) (tag' : Nat) : Bool := decide (stamp < stamp') || (stamp == stamp' && decide (tag < tag'))

/-- A BUSY_HOT answer (R410, R411): counted, with its hint, and the token taken for an older request. -/
def State.busyReq (s : State) (k : Nat) (r : FabReq) (d : Nat) : State :=
  let s := (s.bumpFld R.lpnHotstat (22 + k) [] 47 16 1).pmu (22 + k) 0x64 0 1
  let h := s.home k
  let take := r.kind != .copy && (match h.token with
    | none => true
    | some (tag, stamp, _) => olderReq r.stamp r.tag stamp tag)
  let s := if take then s.setHome k { h with token := some (r.tag, r.stamp, s.lc) } else s
  s.sendReply (answerOf r stBusyHot 0 (max 1 (cdiv (d * 8) 100)) false [])

/-- A load, store or atomic that passed its checks meets its line (R409 to R411). -/
def State.lineReq (s : State) (k : Nat) (r : FabReq) : State :=
  let line := r.off / 64
  let h := s.home k
  let holder := match h.token with
    | some (tag, stamp, _) => tag == r.tag && stamp == r.stamp
    | none => false
  let x := (s.lineOf k line).getD { line := line, freeLc := 0 }
  let free := x.queue.isEmpty && decide (x.freeLc ≤ s.lc) && !s.reqHeld r
  let s' := if holder then s.setHome k { h with token := none } else s
  if free then ((s'.setLine k { x with freeLc := s.lc + 8 }).allocReceipt k r).serveReq k r
  else if !holder && x.queue.length ≥ 64 then s.busyReq k r x.queue.length
  else if !holder && x.queue.isEmpty && s.tracked k ≥ 256 then s.busyReq k r 64
  else
    let s' := if holder then s'.bumpFld R.lpnHotstat (22 + k) [] 63 48 1 else s'
    (s'.setLine k { x with queue := x.queue ++ [r] }).allocReceipt k r

/-! Mirror copies. -/

/-- Copies applied in sequence order, with those that arrived early and whose turn has come (R418). -/
def State.applyCopies (s : State) (k i : Nat) : Nat → State
  | 0 => s
  | n + 1 =>
    let m := s.mirror i
    match m.early.find? (fun r => some r.seq == m.seqIn) with
    | none => s
    | some r =>
      let s := s.putMirror i { m with seqIn := some (r.seq + 1), early := m.early.filter (fun x => x.seq != r.seq) }
      let a := s.applyReq r
      (a.2.finishReq k r a.1).applyCopies k i n

/-- A mirror copy that passed its checks (R417, R418): the first resync copy takes STALE to RECEIVING; copies apply in
sequence order, and one applied before is acknowledged again. -/
def State.copyReq (s : State) (k : Nat) (r : FabReq) : State :=
  match s.regionFor r.off r.size with
  | none => s
  | some i =>
    let first := s.regionState i == 6 && r.resync
    let s := if first then s.setMirror i 4 else s
    let m := s.mirror i
    let m := { m with copyLc := s.lc, seqIn := if first then some r.seq else m.seqIn }
    match m.seqIn with
    | none => s.putMirror i { m with early := m.early ++ [r] }
    | some n =>
      if r.seq < n then (s.putMirror i m).sendReply (answerOf r stOK 0 0 false [])
      else (s.putMirror i { m with early := m.early.filter (fun x => x.seq != r.seq) ++ [r] }).applyCopies k i (m.early.length + 1)

/-- A release notice from the partner (R417, R420): a MIRRORED secondary becomes STALE. -/
def State.released (s : State) (i : Nat) : State :=
  if s.regionRole i = 2 ∧ s.regionState i = 1 then (s.setMirror i 6).putMirror i {} else s

/-! Arrival. -/

/-- A request at its home (R393, R397, R398, R403, R404, R533). -/
def State.arriveReq (s : State) (r : FabReq) : State :=
  let die := homeDie r.off
  let k := die - 22
  if !s.fabricUp then s
  else
    let s := s.pmu die 0x63 0 1
    if s.tbNs 2 - r.sent > 1000000 then s.bumpFld R.lpnRcpt2 die [] 63 32 1
    else if r.incarn ≠ s.fld R.lpnNode 22 [] 23 16 then s.sendReply (answerOf r stPeerReset 0 0 false [])
    else match if r.kind == .rat then s.receiptFor k r else none with
      | some x => (match x.reply with
        | none => s
        | some p => ((s.bumpFld R.lpnRcpt2 die [] 31 0 1).pmu die 0x65 0 1).sendReply p)
      | none =>
        if r.kind == .release then
          match s.regionFor r.off 1 with
          | some i => (if reqNode r.tag == s.regionPartner i then s.released i else s).sendReply (answerOf r stOK 0 0 false [])
          | none => s.sendReply (answerOf r stNoUnit 0 0 false [])
        else
          let st := s.fabCheck r
          if st ≠ stOK then s.sendReply (answerOf r st 0 0 false [])
          else if r.kind == .rat && decide ((s.receiptsOf k).length ≥ 65536) then
            (s.bumpFld R.lpnRcpt die [] 63 34 1).sendReply (answerOf r stBusyHot 0 0 true [])
          else match r.kind with
            | .put => if s.reqHeld r then s.setLine k { (s.lineOf k (r.off / 64)).getD { line := r.off / 64, freeLc := s.lc } with
                queue := ((s.lineOf k (r.off / 64)).map FabLine.queue).getD [] ++ [r] } else s.serveReq k r
            | .get => if s.reqHeld r then s.setLine k { (s.lineOf k (r.off / 64)).getD { line := r.off / 64, freeLc := s.lc } with
                queue := ((s.lineOf k (r.off / 64)).map FabLine.queue).getD [] ++ [r] } else s.serveReq k r
            | .copy => s.copyReq k r
            | _ => s.lineReq k r

/-! Completion of remote operations. -/

/-- A write that waited for its partner acknowledged (R418, R420). -/
def State.ackWait (s : State) (w : MirrorWait) : State := s.finishReq (homeDie w.req.off - 22) w.req w.reply

/-- The partner's acknowledgment of a copy (R418). -/
def State.copyAcked (s : State) (i op status : Nat) : State :=
  let m := s.mirror i
  match m.waits.find? (fun w => w.op == op) with
  | none => s
  | some w =>
    if status ≠ stOK then s
    else (s.putMirror i { m with waits := m.waits.filter (fun x => x.op != op) }).ackWait w

/-- An operation leaves the outstanding list. -/
def State.dropOp (s : State) (id : Nat) : State := { s with remote := s.remote.filter (fun (o : RemoteOp) => o.id != id) }

/-- An operation of whose requests every one has its result completes (R18, R399, R405): the status to its issuer. -/
def State.closeOp (s : State) (o : RemoteOp) : State :=
  let st := (o.pkts.filterMap FabPkt.result).foldl stFirst stOK
  let s := if st = stUnknown then s.bumpFld R.lpnReqstat o.die [] 47 32 1 else s
  match o.issuer with
  | .ctx _ _ => s.onOp o.id (fun o => { o with status := some st })
  | .ring _ c => (s.dropOp o.id).completeId c st 0 0 o.hint o.value
  | .core _ => s.dropOp o.id
  | .lockstep => (s.dropOp o.id).lsPutDone st o.seq
  | .mirror i => (s.dropOp o.id).copyAcked i o.id st

/-- A request of an operation takes its result (R405); the last one completes the operation. -/
def State.answerPkt (s : State) (id j status hint value : Nat) : State :=
  let s := s.onOp id (fun o => { (o.onPkt j (fun p => { p with result := some status, answered := true, hotDue := none })) with
    hint := if status = stBusyHot then hint else o.hint, value := if status = stOK then value else o.value })
  match s.opOf id with
  | none => s
  | some o => if o.status.isNone && o.pkts.all (fun p => p.result.isSome) then s.closeOp o else s

/-- Whether a request has been answered BUSY_HOT or FULL on every attempt after its window has closed (R405). -/
def RemoteOp.hotClosed (o : RemoteOp) (p : FabPkt) (lc : Nat) : Bool :=
  p.result.isNone && decide (o.t0 + 500000 ≤ lc) && p.hots == p.sent

/-- The operation that an answer belongs to (R401, R405). -/
def State.opOfReply (s : State) (p : FabReply) : Option RemoteOp :=
  s.remote.find? (fun o => o.tag == p.tag && o.stamp == p.stamp && o.status.isNone &&
    ((o.pkts[p.pkt]?).map (fun (x : FabPkt) => x.result.isNone)).getD false)

/-- The data of a get packet written at its destination (R399), unless its issuer's step has ended (R283). -/
def State.landGet (s : State) (o : RemoteOp) (p : FabReply) : State :=
  if o.kind == .get && p.status == stOK && !o.orphan then
    (s.store (o.loc + 4096 * p.pkt) (p.data.take (o.pktSize p.pkt))).access (.fabric 0 o.part) (o.loc + 4096 * p.pkt)
      (o.pktSize p.pkt) true
  else s

/-- An answer at its requester (R402, R405): it completes its request, arms a hot retry, or is LATE at Lupin die d. -/
def State.arriveReply (s : State) (d : Nat) (p : FabReply) : State :=
  match s.opOfReply p with
  | none => s.bumpFld R.lpnReqstat (22 + d % 4) [] 63 48 1
  | some o =>
    if p.full || p.status = stBusyHot then
      let s := s.onOp o.id (fun o => o.onPkt p.pkt (fun x => { x with
        hots := x.hots + 1, hint := p.hint, answered := true, hotDue := if p.full then none else some (s.lc + 100 * p.hint) }))
      match (s.opOf o.id).bind (fun o => (o.pkts[p.pkt]?).map (fun x => (o, x))) with
      | some (o, x) => if o.hotClosed x s.lc then s.answerPkt o.id p.pkt stBusyHot x.hint 0 else s
      | none => s
    else (s.landGet o p).answerPkt o.id p.pkt p.status 0 p.value

/-! Timers. -/

/-- The requests of an operation that a test picks, by their numbers. -/
def RemoteOp.pick (o : RemoteOp) (f : FabPkt → Bool) : List Nat := (o.pkts.zipIdx.filter (fun e => f e.1)).map (fun e => e.2)

/-- Whether a request may still be sent again at an LC tick (R402). -/
def RemoteOp.inWindow (o : RemoteOp) (lc : Nat) : Bool := decide (lc ≤ o.t0 + 500000)

/-- LOSS_RETRY (R402): 20 µs after the last attempt without an answer, a further attempt, at most 8 of them. -/
def State.lossRetry (s : State) (id : Nat) : State :=
  match s.opOf id with
  | none => s
  | some o =>
    let open_ (p : FabPkt) : Bool := p.result.isNone && !p.answered && decide (p.losses < 8) && o.inWindow (p.lastLc + 20000)
    match ((o.pkts.filter open_).map (fun p => p.lastLc + 20000)).min? with
    | none => s
    | some due =>
      if o.status.isSome then s
      else
        let s := s.advanceTo due
        (o.pick (fun p => open_ p && decide (p.lastLc + 20000 ≤ s.lc))).foldl (fun s j => s.resend o j true) s

/-- HOT_RETRY (R402): the hint has elapsed, and the attempt is sent again. -/
def State.hotRetry (s : State) (id : Nat) : State :=
  match s.opOf id with
  | none => s
  | some o =>
    let due (p : FabPkt) : Nat := p.hotDue.getD 0
    let open_ (p : FabPkt) : Bool := p.result.isNone && p.hotDue.isSome && o.inWindow (due p)
    match ((o.pkts.filter open_).map due).min? with
    | none => s
    | some t =>
      if o.status.isSome then s
      else
        let s := s.advanceTo t
        (o.pick (fun p => open_ p && decide (due p ≤ s.lc))).foldl (fun s j => s.resend o j false) s

/-- The attempt window of an operation closes (R405): requests answered only BUSY_HOT or FULL complete BUSY_HOT. -/
def State.windowClose (s : State) (id : Nat) : State :=
  match s.opOf id with
  | none => s
  | some o =>
    if o.status.isSome then s
    else
      let s := s.advanceTo (o.t0 + 500000)
      (o.pkts.zipIdx.filter (fun e => o.hotClosed e.1 s.lc)).foldl (fun s e => s.answerPkt id e.2 stBusyHot e.1.hint 0) s

/-- The receipt window of an operation ends (R405). -/
def State.unknownTimeout (s : State) (id : Nat) : State :=
  match s.opOf id with
  | none => s
  | some o =>
    if o.status.isSome then s
    else
      let s := s.advanceTo (o.t0 + 2000000)
      (o.pick (fun p => p.result.isNone)).foldl (fun s j => s.answerPkt id j stUnknown 0 0) s

/-- Every outstanding operation that a test picks completes at once with a status; its later answers are LATE (R414,
R521). -/
def State.endOps (s : State) (p : RemoteOp → Bool) (status : Nat) : State :=
  (s.remote.filter (fun o => o.status.isNone && p o)).foldl (fun s o =>
    (o.pick (fun x => x.result.isNone)).foldl (fun s j => s.answerPkt o.id j status 0 0) s) s

/-! Mirror transitions. -/

/-- A primary leaves MIRRORED or RESYNC for SINGLE (R417, R420): every write that waits is acknowledged, its copies are
given up, and the partner gets a release notice. -/
def State.toSingle (s : State) (i : Nat) : State :=
  let m := s.mirror i
  let s := s.setMirror i 2
  let s := { s with remote := s.remote.filter (fun (o : RemoteOp) => o.issuer != Issuer.mirror i) }
  let s := (s.putMirror i { m with waits := [] })
  let s := m.waits.foldl (fun s w => s.ackWait w) s
  s.fabIssue { id := 0, issuer := .mirror i, step := 0, part := 0, radio := false, kind := .release,
               dst := s.regionPartner i, addr := getField (s.region i).1 47 0, size := 1, operand := 0, cmp := 0, akind := 0,
               res := false, data := [], loc := 0, token := none } s.lc

/-- What a peer set DOWN does to the mirrored regions that name it (R417). -/
def State.partnerDown (s : State) (node : Nat) : State :=
  (List.range 4096).foldl (fun s i =>
    let w := s.region i
    if !(w.2.getLsbD 25) || s.regionPartner i ≠ node then s
    else if s.regionRole i = 1 ∧ (s.regionState i = 1 ∨ s.regionState i = 3) then s.toSingle i
    else if s.regionRole i = 2 ∧ s.regionState i = 4 then s.setMirror i 5
    else s) s

end Sys2Proof.Machine
end

