-- ==== Sys2Proof/Machine/FabUnits.lean ====
section
/-! DEFINITION. The registers of the fabric (R392, R393, R396, R413, R417, R423, R428) and its links, lanes and wavelengths
(R422 to R426, R429). -/
namespace Sys2Proof.Machine

/-! Node-wide registers. -/

/-- A write of a node-wide register (R428): through a window other than Lupin die 22's it changes nothing and raises an
event. -/
def State.nodeWide (s : State) (m : Master) (r : RegD) (die : Nat) (ix : List Nat) (v : Word) (k : State → State) : State :=
  if die = 22 then k s else s.refuseReg m r die ix v

/-- A write of LPN_NODE (R393). -/
def State.writeNode (s : State) (m : Master) (v part : Word) : State :=
  let r := R.lpnNode
  let old := s.reg r 22 []
  let w := r.written old v part false false
  if r.locked old then s.plainWrite m r 22 [] v part
  else if !(w.getLsbD 24) then s.setReg r 22 [] w
  else if getField w 15 0 = 0xFFFF then s.refuseReg m r 22 [] v
  else s.setReg r 22 [] (setField w 25 25 1)

/-- Whether a write that sets VALID of descriptor n is refused (R396), from its two words. -/
def State.regionBad (s : State) (n : Nat) (w0 w1 : Word) : Bool :=
  let base := getField w0 47 0
  let top := base + getField w1 17 0 * 0x200000
  let partner := getField w1 47 32
  decide (top > 0x1000000000000) || getField w1 17 0 == 0 ||
  (getField w1 27 26 != 0 && (partner == 0xFFFF || partner == s.nodeId)) ||
  (List.range 4096).any (fun i =>
    let d := s.region i
    let b := getField d.1 47 0
    i != n && d.2.getLsbD 25 && decide (b < top) && decide (base < b + getField d.2 17 0 * 0x200000))

/-- A write of a word of a region descriptor (R395, R396, R417). -/
def State.writeRegion (s : State) (m : Master) (ix : Nat) (v part : Word) : State :=
  let r := R.lpnRegion
  let n := ix / 2
  let old := s.region n
  if old.2.getLsbD 25 then
    if ix % 2 = 1 ∧ part.getLsbD 25 ∧ ¬ v.getLsbD 25 then s.setFld r 22 [ix] 25 25 0 else s
  else if ix % 2 = 0 then
    s.setReg r 22 [ix] (setField (r.written old.1 v part false false) 20 0 0)
  else
    let w := r.written old.2 v part false false &&& 0x0000FFFF7FFFFFFF
    let w := setField w 30 28 (getField old.2 30 28)
    let w := if getField w 27 26 = 3 then setField w 27 26 0 else w
    if !(w.getLsbD 25) then s.setReg r 22 [ix] w
    else if s.regionBad n old.1 w then (s.setReg r 22 [ix] (setField w 25 25 0)).refuseReg m r 22 [ix] v
    else
      let st := if getField w 27 26 = 1 then 2 else if getField w 27 26 = 2 then 6 else 0
      (s.setReg r 22 [ix] (setField w 30 28 st)).putMirror n { waits := (s.mirror n).waits }

/-- A write of four peer entries (R413, R414, R417): an entry set DOWN ends what is outstanding to its node. -/
def State.writePeer (s : State) (k : Nat) (v part : Word) : State :=
  let r := R.lpnPeer
  let old := s.reg r 22 [k]
  let w := r.written old v part false false
  let s := s.setReg r 22 [k] w
  (List.range 4).foldl (fun s i =>
    if w.getLsbD (16 * i + 8) && !(old.getLsbD (16 * i + 8)) then
      let node := 4 * k + i
      (s.endOps (fun o => !o.local_ && o.dst == node) stPeerReset).partnerDown node
    else s) s

/-- The regions that copy to their partner now (R419). -/
def State.resyncs (s : State) : Nat :=
  ((List.range 4096).filter (fun i => (s.region i).2.getLsbD 25 && s.regionRole i == 1 && s.regionState i == 3)).length

/-- A write of LPN_MIRROR_CMD (R417, R419, R420, R428). -/
def State.writeMirrorCmd (s : State) (m : Master) (die : Nat) (v : Word) : State :=
  let i := getField v 11 0
  let op := getField v 15 12
  let role := s.regionRole i
  let st := s.regionState i
  let valid := (s.region i).2.getLsbD 25
  if !(v.getLsbD 16) then s
  else if valid && op == 1 && role == 1 && st == 2 && decide (s.resyncs < 4) then
    (s.setMirror i 3).putMirror i { startLc := s.lc, waits := (s.mirror i).waits }
  else if valid && op == 2 && role == 2 && st == 1 then
    (s.setFld R.lpnRegion 22 [2 * i + 1] 27 26 1).setMirror i 2
  else if valid && op == 3 && role == 1 && (st == 1 || st == 3) then s.toSingle i
  else s.refuseReg m R.lpnMirrorCmd die [] v

/-! Links. -/

/-- A link's state, with its trace record (R563). -/
def State.setLinkSt (s : State) (die j st : Nat) : State := (s.setFld R.lpnLink die [j] 9 8 st).traceLink die j st

/-- A link goes DOWN (R425): it discards its replay buffer and its queue, with a LINK event. -/
def State.linkDown (s : State) (die j : Nat) : State :=
  let s := (s.setFld R.lpnLink die [j] 9 8 0).bumpFld R.lpnLinkCnt die [j] 63 48 1
  (s.setLink die j {}).linkEvent die j 0

/-- The first lane and the width of a link's word (R428). -/
def linkLanes (w : Word) : Nat × Nat := (getField w 4 0, 2 ^ getField w 6 5)

/-- Whether a link uses a lane. -/
def linkHas (w : Word) (l : Nat) : Bool := decide ((linkLanes w).1 ≤ l) && decide (l < (linkLanes w).1 + (linkLanes w).2)

/-- Whether a configuration of link j breaks alignment, runs past lane 23 or overlaps another enabled link (R423). -/
def State.linkBad (s : State) (die j : Nat) (w : Word) : Bool :=
  let p := linkLanes w
  p.1 % p.2 != 0 || decide (p.1 + p.2 > 24) ||
  (List.range 8).any (fun i => i != j && (s.reg R.lpnLink die [i]).getLsbD 7 &&
    (List.range 24).any (fun l => linkHas w l && linkHas (s.reg R.lpnLink die [i]) l))

/-- A write of LPN_LINK (R423, R428). -/
def State.writeLink (s : State) (m : Master) (die j : Nat) (v part : Word) : State :=
  let r := R.lpnLink
  let old := s.reg r die [j]
  let w := r.written old v part false false
  let bad := w.getLsbD 7 && s.linkBad die j w
  let w' := if bad then setField w 7 7 0 else w
  let same := getField w' 7 0 == getField old 7 0
  let s := if !same && getField old 9 8 != 0 then s.linkDown die j else s
  let s := s.setReg r die [j] (setField w' 9 8 (s.linkSt die j))
  let s := if w'.getLsbD 7 && s.linkSt die j == 0 then (s.setLink die j {}).setLinkSt die j 1 else s
  if bad then s.refuseReg m r die [j] v else s

/-- The lanes of a link. -/
def State.lanesOf (s : State) (die j : Nat) : List Nat := (List.range 24).filter (linkHas (s.reg R.lpnLink die [j]))

/-- A lane trained, its wavelength locked (R428, R429). -/
def State.laneUp (s : State) (die l : Nat) : State :=
  let w := s.fld R.lpnLane die [l] 7 5
  (s.setFld R.lpnLane die [l] 8 8 1).setFld R.phxFp (die + 4) [l / 4] w w 1

/-- The link that runs over a lane, if one is enabled. -/
def State.linkOfLane (s : State) (die l : Nat) : Option Nat :=
  (List.range 8).find? (fun j => (s.reg R.lpnLink die [j]).getLsbD 7 && linkHas (s.reg R.lpnLink die [j]) l)

/-- A spare of a kind that is free for a lane (R425): physical lane 24 or 25, or wavelength 4 of its fibre pair. -/
def State.freeSpare (s : State) (die l : Nat) (optical : Bool) : Option Nat :=
  if optical then (if s.fld R.phxFp (die + 4) [l / 4] 9 9 = 0 ∧
      ¬ ((List.range 8).any (fun j => (s.link die j).sparing.any (fun p => p.1 / 4 == l / 4 && p.2 == 4))) then some 4 else none)
  else [24, 25].find? (fun x => !((s.spareElec.getD (die - 22) []).contains x))

/-- A lane fault detected (R425): sparing starts, or the link goes DOWN. -/
def State.laneFault (s : State) (die l : Nat) (optical : Bool) (codewords : Nat) : State :=
  let s := if codewords = 0 then s else s.bumpFld R.lpnLane die [l] 63 32 codewords
  if 0 < codewords ∧ codewords ≤ 16 then s
  else
    let s := s.setFld R.lpnLane die [l] 8 8 0
    let w := s.fld R.lpnLane die [l] 7 5
    let s := if optical && codewords == 0 then
        ((s.setFld R.phxFp (die + 4) [l / 4] w w 0).bumpFld R.phxFp (die + 4) [l / 4] 63 32 1).pmu (die + 4) 0xC1 0 1
      else s
    match s.linkOfLane die l with
    | none => s
    | some j =>
      if s.linkSt die j < 2 then s
      else match s.freeSpare die l optical with
        | none => s.linkDown die j
        | some x =>
          let s := if optical then s else { s with spareElec := s.spareElec.put (die - 22) (x :: s.spareElec.getD (die - 22) []) }
          let k := s.link die j
          (s.setLink die j { k with sparing := k.sparing ++ [(l, x)] }).setLinkSt die j 3

/-- A lane moved to its spare (R425, R428, R429). -/
def State.laneSpared (s : State) (die j : Nat) (p : Nat × Nat) : State :=
  let s := s.bumpFld R.lpnLinkCnt die [j] 47 32 1
  let s := if p.2 = 4 then (s.setFld R.lpnLane die [p.1] 7 5 4).setFld R.phxFp (die + 4) [p.1 / 4] 9 9 1
    else s.setFld R.lpnLane die [p.1] 4 0 p.2
  (s.laneUp die p.1).traceLink die p.1 1

/-- The link resumes after sparing (R425): it sends again from its first unacknowledged flit. -/
def State.spareResume (s : State) (die j : Nat) : State :=
  if s.linkSt die j ≠ 3 then s
  else
    let k := s.link die j
    let s := k.sparing.foldl (fun s p => s.laneSpared die j p) s
    let s := s.setLink die j { k with sparing := [], replay := if k.buf.isEmpty then none else some 0, ackLc := s.lc, progressLc := s.lc }
    s.setLinkSt die j 2

/-- The unit that a link sends from next: the highest precedence, the oldest first (R426). -/
def nextUnit : List FabUnit → Option FabUnit
  | [] => none
  | u :: t => match nextUnit t with
    | none => some u
    | some x => if x.level < u.level then some x else some u

/-- The first of a queue's units of a level with a flit's bytes taken from it; one that is sent whole leaves. -/
def takeFlit (level : Nat) : List FabUnit → List FabUnit
  | [] => []
  | u :: t => if u.level = level then (if u.left ≤ 256 then t else { u with left := u.left - 256 } :: t) else u :: takeFlit level t

/-- A flit sent (R424, R426): a replay before anything else, then the next unit in the order of precedence. -/
def State.sendFlit (s : State) (die j : Nat) : State :=
  let k := s.link die j
  if s.linkSt die j ≠ 2 then s
  else match k.replay with
    | some i =>
      let s := (s.bumpFld R.lpnLinkCnt die [j] 31 0 1).pmu die 0x62 0 1
      s.setLink die j { k with replay := if i + 1 ≥ k.buf.length then none else some (i + 1) }
    | none =>
      match nextUnit k.queue with
      | none => s
      | some u =>
        if k.buf.length ≥ 4095 then s
        else
          let s := s.pmu die 0x61 0 1
          s.setLink die j { k with
            queue := takeFlit u.level k.queue, buf := k.buf ++ [k.next], next := (k.next + 1) % 4096
            ackLc := if k.buf.isEmpty then s.lc else k.ackLc }

/-- The flits after a sequence number, which an acknowledgment leaves unacknowledged. -/
def afterSeq (seq : Nat) : List Nat → List Nat
  | [] => []
  | x :: t => if x = seq then t else afterSeq seq t

/-- An acknowledgment (R424): every flit up to its number leaves the replay buffer. -/
def State.ackFlits (s : State) (die j seq : Nat) : State :=
  let k := s.link die j
  if !(k.buf.contains seq) then s
  else
    let b := afterSeq seq k.buf
    let n := k.buf.length - b.length
    s.setLink die j { k with
      buf := b, ackLc := s.lc, progressLc := s.lc
      replay := match k.replay with
        | none => none
        | some i => if b.isEmpty then none else some (i - n) }

/-- A replay from the first unacknowledged flit (R424). -/
def State.replayLink (s : State) (die j : Nat) : State :=
  let k := s.link die j
  if s.linkSt die j ≠ 2 ∨ k.buf.isEmpty then s else s.setLink die j { k with replay := some 0, ackLc := s.lc }

/-- 2 µs without an acknowledgment (R424). -/
def State.ackTimeout (s : State) (die j : Nat) : State :=
  let k := s.link die j
  if s.linkSt die j ≠ 2 ∨ k.buf.isEmpty then s else (s.advanceTo (k.ackLc + 2000)).replayLink die j

/-- 1 ms without progress (R425). -/
def State.stallDown (s : State) (die j : Nat) : State :=
  let k := s.link die j
  if s.linkSt die j = 0 ∨ (k.buf.isEmpty && k.queue.isEmpty) then s
  else (s.advanceTo (k.progressLc + 1000000)).linkDown die j

/-- A link finishes training (R423). -/
def State.linkTrained (s : State) (die j : Nat) : State :=
  if s.linkSt die j ≠ 1 ∨ ¬ s.pdOn (die + 22) ∨ ¬ s.pdOn (die + 26) then s
  else
    let s := (s.lanesOf die j).foldl (fun s l => s.laneUp die l) s
    s.setLinkSt die j 2

/-- The head of a die's yellow queue enters its link's queue (R379), if no green request waits in the pair. -/
def State.yellowSend (s : State) (die : Nat) : State :=
  let s := s.pumpEgress
  let green := (List.range 8).any (fun j => (s.link die j).queue.any (fun u => u.level == 4))
  match s.yellowQ.getD (die - 22) [] with
  | [] => s
  | u :: t =>
    if green then s
    else ({ s with yellowQ := s.yellowQ.put (die - 22) t }.linkPush die u).pumpEgress

/-! Commands of the host fabric queues. -/

/-- The remote operation of a FABRIC command (R394, R490, R491). -/
def State.opOfCmd (s : State) (c : Cmd) : RemoteOp :=
  let g := c.field 0x18 8
  let op := c.field 0x3C 1
  let kind : RemoteKind := if op = 8 then .rld else if op = 9 then .rst else if op = 10 then .rat else if op = 11 then .put else .get
  let akind := c.field 0x3D 1
  let size := if op = 10 then (if akind = 1 ∨ akind = 2 ∨ akind = 9 ∨ akind = 10 then 4 else 8) else c.field 0x38 4
  let node := g / 2 ^ 48
  { id := 0, issuer := .ring c.ring c.id, step := 0, part := c.part, radio := false, kind := kind,
    dst := if node = 0xFFFF then s.nodeId else node, addr := g % 2 ^ 48, size := size, operand := c.field 0x28 8,
    cmp := c.field 0x30 8, akind := akind, res := true, loc := c.field 0x20 8, token := none,
    data := if op = 9 then leBytes size (c.field 0x28 8) else if op = 11 then s.bytes (c.field 0x20 8) size else [],
    cls := s.fld R.prmRingCfg 31 [c.ring] 2 1 }

/-- A FABRIC command of an OP starts (R491): the oldest of its ring's commands that has not, if it is one. -/
def State.startFabric (s : State) (r op : Nat) : State :=
  match s.nextOther r with
  | none => s
  | some c =>
    if c.field 0 1 ≠ 3 ∨ c.field 0x3C 1 ≠ op then s
    else
      let n := c.field 0x38 4
      let loc := c.field 0x20 8
      match if op = 11 then s.badIn loc n else none with
      | some a => (s.memError a c.part).finishCmd c stUncorr 0 0 0 0
      | none =>
        let id := s.nextOp
        let s := (s.startCmd c).fabIssue (s.opOfCmd c) s.lc
        let s := if op = 11 then s.access (.dma c.part) loc n false else s
        match s.opOf id with
        | some o => (match o.status with
          | some st => (s.dropOp id).finishCmd c st 0 0 0 0
          | none => s)
        | none => s

end Sys2Proof.Machine
end

