-- ==== Sys2Proof/Machine/EngMath.lean ====
section
/-! DEFINITION. The arithmetic of the Iris engines: transforms (R313), LDPC rate matching and decoding (R314 to R318),
cyclic redundancy checks, constellations, LLRs and quality records (R320 to R323). -/
namespace Sys2Proof.Machine

/-! Transforms. -/

/-- π in units of 2^−80. -/
def piFix : Int := 3797952473636338580787993

/-- The terms of a Taylor series of alternating sign in units of 2^−80: x²/((k+1)(k+2)) times the last, n of them. -/
def taylor (x2 : Int) : Nat → Nat → Int → Int
  | 0, _, _ => 0
  | n + 1, k, term => term + taylor x2 n (k + 2) (-(term * x2 / 2 ^ 80) / ((k + 1) * (k + 2) : Nat))

/-- cos and sin of (π/2)(r/N) for r < N, in units of 2^−80. -/
def quarterTurn (r n : Nat) : Int × Int :=
  let x := piFix * r / (2 * n)
  let x2 := x * x / 2 ^ 80
  (taylor x2 16 0 (2 ^ 80), taylor x2 16 1 x)

/-- cos and sin of 2πj/N, in units of 2^−80. -/
def turn (j n : Nat) : Int × Int :=
  let j := j % n
  let p := quarterTurn (4 * j % n) n
  match 4 * j / n with
  | 0 => p
  | 1 => (-p.2, p.1)
  | 2 => (-p.1, -p.2)
  | _ => (p.2, -p.1)

/-- A complex INT16 sample from 4 bytes (R48): the real part in the low half. -/
def sampleOf (b : List Byte) : Int × Int := (sext 16 (leNat (b.take 2)), sext 16 (leNat ((b.drop 2).take 2)))

/-- A complex INT16 sample's 4 bytes. -/
def sampleBytes (c : Int × Int) : List Byte := leBytes 2 (wrapInt 16 c.1) ++ leBytes 2 (wrapInt 16 c.2)

/-- The samples of a list of bytes. -/
def samplesOf : Nat → List Byte → List (Int × Int)
  | 0, _ => []
  | n + 1, b => sampleOf b :: samplesOf n (b.drop 4)

/-- The value of output k of a transform, in units of 2^−80 (R313): the sign of the exponent is negative for a forward
transform. -/
def dftValue (x : List (Int × Int)) (n k : Nat) (inverse : Bool) : Int × Int :=
  x.zipIdx.foldl (fun acc e =>
    let t := turn (e.2 * k) n
    let s := if inverse then t.2 else -t.2
    (acc.1 + e.1.1 * t.1 - e.1.2 * s, acc.2 + e.1.1 * s + e.1.2 * t.1)) (0, 0)

/-- A component times 2^−SH, rounded to nearest and saturated; it may differ from that by at most 1, as a free value
says; with whether it saturated (R313). -/
def engRound (v : Int) (sh : Nat) (slack : Nat) : Int × Bool :=
  let q := 2 ^ (80 + sh)
  let y := (v + q / 2) / q
  let z := max (-32768) (min y 32767)
  (max (-32768) (min (z + ((slack % 3 : Nat) - 1 : Int)) 32767), z != y)

/-- A transform of one item (R313): its output samples and how many components saturated, from a function that gives the
free slack of each component. -/
def transform (x : List (Int × Int)) (n sh cp : Nat) (inverse : Bool) (slack : Nat → Nat) : List (Int × Int) × Nat :=
  let out := (List.range n).map (fun k =>
    let v := dftValue x n k inverse
    (engRound v.1 sh (slack (2 * k)), engRound v.2 sh (slack (2 * k + 1))))
  let y := out.map (fun c => (c.1.1, c.2.1))
  let sat := (out.map (fun c => b2n c.1.2 + b2n c.2.2)).foldl (· + ·) 0
  (if cp = 0 then y else y.drop (n - cp) ++ y, sat)

/-! Bits and cyclic redundancy checks. -/

/-- The first n bits of a list of bytes, least significant first. -/
def bitsLsb (n : Nat) (b : List Byte) : List Bool := (List.range n).map (fun i => (b.getD (i / 8) 0).getLsbD (i % 8))

/-- Bits as bytes, least significant first. -/
def packLsb (l : List Bool) : List Byte :=
  (List.range (cdiv l.length 8)).map (fun j => BitVec.ofNat 8 (((List.range 8).map (fun i => b2n (l.getD (8 * j + i) false) * 2 ^ i)).foldl (· + ·) 0))

/-- The remainder of a bit sequence by a generator of n bits (TS 38.212 clause 5.1), from a register of 0. -/
def crcOf (n poly : Nat) (l : List Bool) : Nat :=
  l.foldl (fun r b => let t := r * 2 % 2 ^ n
                      if bitOf r (n - 1) != b then Nat.xor t poly else t) 0

/-- n bits of a number, most significant first. -/
def msbBits (n v : Nat) : List Bool := (List.range n).map (fun i => bitOf v (n - 1 - i))

/-- CRC24B (R316, R318). -/
def crc24b (l : List Bool) : Nat := crcOf 24 0x800063 l

/-- Whether the last n bits of a sequence are a valid CRC of the rest, XORed with a mask. -/
def crcValid (n poly mask : Nat) (l : List Bool) : Bool :=
  let k := l.length - n
  decide (n ≤ l.length) && l.drop k == msbBits n (Nat.xor (crcOf n poly (l.take k)) mask)

/-! LDPC. -/

/-- K_b, the columns of a base graph that carry information, and M, its rows (R315). -/
def ldpcShape (bg : Nat) : Nat × Nat := if bg = 1 then (22, 46) else (10, 42)

/-- Whether a number is a lifting size (R312). -/
def isLifting (z : Nat) : Bool :=
  [2, 3, 5, 7, 9, 11, 13, 15].any (fun a => (List.range 8).any (fun j => a * 2 ^ j == z && decide (z ≤ 384)))

/-- The start of a redundancy version in the circular buffer (TS 38.212 clause 5.4.2.1). -/
def ldpcK0 (bg zc ncb rv : Nat) : Nat :=
  let f (a b : Nat) : Nat := if bg = 1 then a * ncb / (66 * zc) * zc else b * ncb / (50 * zc) * zc
  match rv with
  | 1 => f 17 13
  | 2 => f 33 25
  | 3 => f 56 43
  | _ => 0

/-- The positions of the circular buffer that are not filler, from the start of a redundancy version on, in the order in
which they are sent, once round (R314). -/
def sentOrder (bg zc f ncb rv : Nat) : List Nat :=
  let k := (ldpcShape bg).1 * zc
  let filler (p : Nat) : Bool := decide (k - f - 2 * zc ≤ p) && decide (p < k - 2 * zc)
  let k0 := ldpcK0 bg zc ncb rv
  ((List.range ncb).map (fun i => (k0 + i) % ncb)).filter (fun p => !(filler p))

/-- The position, in the order before bit interleaving, of bit t of a block of E bits (TS 38.212 clause 5.4.2.2). -/
def interleave (e qm t : Nat) : Nat := t % qm * (e / qm) + t / qm

/-- A sum saturated to 8 signed bits. -/
def sat8 (i : Int) : Int := max (-128) (min i 127)

/-- The values of the circular buffer recovered from a block's LLRs, with what a HARQ buffer held (R314): repeated
positions add, filler reads +127. -/
def rateRecover (bg zc f ncb rv qm : Nat) (llr : List Int) (stored : Option (List Int)) : List Int :=
  let e := llr.length
  let order := (sentOrder bg zc f ncb rv).toArray
  let k := (ldpcShape bg).1 * zc
  let base : Array Int := (List.replicate ncb (0 : Int)).toArray
  let got := llr.zipIdx.foldl (fun (a : Array Int) x =>
    let p := order.getD (interleave e qm x.2 % max order.size 1) 0
    a.setIfInBounds p (sat8 (a.getD p 0 + x.1))) base
  got.toList.zipIdx.map (fun x =>
    let v := match stored with
      | none => x.1
      | some h => sat8 (x.1 + h.getD x.2 0)
    if k - f - 2 * zc ≤ x.2 ∧ x.2 < k - 2 * zc then 127 else v)

/-- The columns that a row of a base graph joins, with their shifts (R315). -/
def rowEdges (bg zc row cols : Nat) : List (Nat × Nat) :=
  (List.range cols).filterMap (fun c => (Config.ldpcShift bg row c zc).map (fun v => (c, v)))

/-- The least of a list of magnitudes but for one index. -/
def minOthers (l : List Nat) (i : Nat) : Nat := ((l.zipIdx.filter (fun e => e.2 != i)).map (fun e => e.1)).min?.getD 0

/-- One check of a row (R315): posteriors and the row's messages replaced. -/
def checkNode (zc z base : Nat) (edges : List (Nat × Nat)) (q r : Array Int) : Array Int × Array Int :=
  let var (e : Nat × Nat) : Nat := e.1 * zc + (z + e.2) % zc
  let ins := edges.zipIdx.map (fun e => q.getD (var e.1) 0 - r.getD (base + e.2) 0)
  let mags := ins.map Int.natAbs
  let neg := (ins.filter (fun x => decide (x < 0))).length
  (edges.zip ins).zipIdx.foldl (fun a e =>
    let x := e.1.2
    let m : Int := (min (3 * minOthers mags e.2 / 4) 127 : Nat)
    let odd := (neg - b2n (decide (x < 0))) % 2 == 1
    let msg := if odd then -m else m
    (a.1.setIfInBounds (var e.1.1) (max (-512) (min (x + msg) 511)), a.2.setIfInBounds (base + e.2) msg)) (q, r)

/-- One iteration over m rows, in ascending order (R315). -/
def ldpcIterate (bg zc m cols : Nat) (q r : Array Int) : Array Int × Array Int :=
  (List.range m).foldl (fun a row =>
    let edges := rowEdges bg zc row cols
    (List.range zc).foldl (fun a z => checkNode zc z ((row * zc + z) * cols) edges a.1 a.2) a) (q, r)

/-- Whether every one of m row checks holds on the hard decisions (R316). -/
def checksHold (bg zc m cols : Nat) (q : Array Int) : Bool :=
  (List.range m).all (fun row =>
    let edges := rowEdges bg zc row cols
    (List.range zc).all (fun z =>
      (edges.filter (fun e => decide (q.getD (e.1 * zc + (z + e.2) % zc) 0 < 0))).length % 2 == 0))

/-- The outcome of decoding a block: its posteriors, the iterations it ran, and whether the row checks held at the stop. -/
structure LdpcOut where
  q : Array Int
  iters : Nat
  pass : Bool
  deriving DecidableEq, Repr

/-- The decoder (R315, R316): at most `fuel` more iterations, stopping as ET selects. -/
def ldpcDecode (bg zc m cols et : Nat) (crcToo : Array Int → Bool) : Nat → Nat → Array Int → Array Int → LdpcOut
  | 0, n, q, _ => { q := q, iters := n, pass := checksHold bg zc m cols q }
  | fuel + 1, n, q, r =>
    let a := ldpcIterate bg zc m cols q r
    let ok := checksHold bg zc m cols a.1
    if et ≠ 0 && ok && (et != 2 || crcToo a.1) then { q := a.1, iters := n + 1, pass := true }
    else ldpcDecode bg zc m cols et crcToo fuel (n + 1) a.1 a.2

/-! Constellations. -/

/-- The level of a Gray-labelled PAM axis from its bits, the first of which selects the sign (R320). -/
def pamLevel : List Bool → Int
  | [] => 0
  | b :: t => (if b then -1 else 1) * ((2 ^ t.length : Nat) - pamLevel t)

/-- A level times A = 8,192 over the square root of a power, to the nearest integer (R320). -/
def scaleLevel (l : Int) (power : Nat) : Int :=
  let n := (Nat.sqrt (4 * (l.natAbs * l.natAbs * 2 ^ 26) / max power 1) + 1) / 2
  if l < 0 then -(n : Int) else n

/-- The bits of a q-bit point on its in-phase and quadrature axes: the even- and the odd-indexed ones (R320). -/
def axisBits (l : List Bool) : List Bool × List Bool :=
  ((l.zipIdx.filter (fun e => e.2 % 2 == 0)).map (fun e => e.1), (l.zipIdx.filter (fun e => e.2 % 2 == 1)).map (fun e => e.1))

/-- The power of a PAM of m bits with levels ±1, ±3, …, times 3 over 3 (R320). -/
def pamPower (m : Nat) : Nat := (4 ^ m - 1) / 3

/-- A·x for a point: by MOD 0 (with the element's index), MOD 1 to 5, or a point of R320 (MOD 6 and table entries). -/
def constPoint (mod_ idx : Nat) (l : List Bool) : Int × Int :=
  let a := axisBits l
  let i := pamLevel a.1
  let q := pamLevel a.2
  if mod_ = 0 then
    let s := if l.getD 0 false then -1 else 1
    let v := scaleLevel s 2
    if idx % 2 = 0 then (v, v) else (-v, v)
  else if mod_ ≤ 5 then (scaleLevel i (2 * pamPower a.1.length), scaleLevel q (2 * pamPower a.2.length))
  else (scaleLevel i (pamPower a.1.length), scaleLevel q (pamPower a.2.length))

/-- The bits of a point's label, the lowest-indexed first. -/
def labelBits (q v : Nat) : List Bool := (List.range q).map (fun i => bitOf v i)

/-- The squared distance of two points. -/
def dist2 (a b : Int × Int) : Nat := ((a.1 - b.1) * (a.1 - b.1) + (a.2 - b.2) * (a.2 - b.2)).toNat

/-- The least of a list, or 0. -/
def leastOf (l : List Nat) : Nat := l.min?.getD 0

/-- num / den rounded to nearest, ties to even. -/
def roundEven (num : Int) (den : Nat) : Int :=
  let f := num / (den : Int)
  let r := 2 * (num - f * den)
  if r < den then f else if r > den then f + 1 else if f % 2 = 0 then f else f + 1

/-- The LLRs of an element (R321). -/
def elementLlrs (mod_ q idx : Nat) (y : Int × Int) (nv lsh csh : Nat) : List Int :=
  let pts := (List.range (2 ^ q)).map (fun v => (v, dist2 y (constPoint mod_ idx (labelBits q v))))
  (List.range q).map (fun i =>
    let d (b : Bool) : Nat := leastOf ((pts.filter (fun p => bitOf p.1 i == b)).map (fun p => p.2))
    sat8 (roundEven (((d true : Int) - d false) * 2 ^ lsh) (max nv 1 * 16384 * 2 ^ (2 + csh))))

/-- The nearest point of an element's constellation (R322). -/
def nearestPoint (mod_ q idx : Nat) (y : Int × Int) : Int × Int :=
  let pts := (List.range (2 ^ q)).map (fun v => constPoint mod_ idx (labelBits q v))
  pts.foldl (fun b p => if dist2 y p < dist2 y b then p else b) (pts.headD (0, 0))

/-- EVM_DB where the quotient is at least 1 (R323): the largest n up to 255 with 10^(2n − 1) × err^80 ≤ sig^80. -/
def evmDb (sig err : Nat) : Nat :=
  ((List.range 256).filter (fun n => n == 0 || decide (10 ^ (2 * n - 1) * err ^ 80 ≤ sig ^ 80))).foldl max 0

/-- LQI (R323) from the sum of the NV entries of `groups` groups: the largest n up to 255 with
mean^80 × 10^(2n) ≤ 10^81. -/
def lqiOf (sum groups : Nat) : Nat :=
  ((List.range 256).filter (fun n => n == 0 || decide (sum ^ 80 * 10 ^ (2 * n) ≤ 10 ^ 81 * (4096 * groups) ^ 80))).foldl max 0

end Sys2Proof.Machine
end

