-- ==== Sys2Proof/Machine/EngOps.lean ====
section
/-! DEFINITION. The engine queues of the Iris dies (R304 to R324): descriptors and their checks, what each kind of job
reads and writes, and how a job starts and ends. -/
namespace Sys2Proof.Machine

/-! Descriptors. -/

/-- A field of a descriptor (R308, R312). -/
def dsc (d : List Byte) (o n : Nat) : Nat := leNat ((d.drop o).take n)

/-- SRC of a descriptor. -/
def dscSrc (d : List Byte) : Nat := dsc d 0x10 8
/-- DST of a descriptor. -/
def dscDst (d : List Byte) : Nat := dsc d 0x18 8
/-- COUNT of a descriptor. -/
def dscCount (d : List Byte) : Nat := dsc d 4 4

/-- Whether a range of a job lies in its own die's SRAM (R309). -/
def inSram (iris : Nat) (r : Nat × Nat) : Bool := decide (irisBase iris ≤ r.1) && decide (r.1 + r.2 ≤ irisBase iris + 0x2000000)

/-- The byte offset of item b, of items of the given sizes, each from a 64-B boundary (R312). -/
def itemAt (sizes : List Nat) (b : Nat) : Nat := ((sizes.take b).map (fun n => roundUp n 64)).foldl (· + ·) 0

/-- The bytes that items of the given sizes span. -/
def itemsSpan (sizes : List Nat) : Nat := itemAt sizes (sizes.length - 1) + sizes.getLastD 0

/-- The number left when every factor 2, 3 and 5 is taken out; `fuel` bounds the factors. -/
def smoothRest : Nat → Nat → Nat
  | 0, n => n
  | f + 1, n => if n = 0 then n else if n % 2 = 0 then smoothRest f (n / 2) else if n % 3 = 0 then smoothRest f (n / 3)
                else if n % 5 = 0 then smoothRest f (n / 5) else n

/-- Whether a number is a power of two from a to b. -/
def pow2In (n a b : Nat) : Bool := decide (a ≤ n) && decide (n ≤ b) && (List.range 16).any (fun i => 2 ^ i == n)

/-! The sizes and checks of each kind (R309, R312). -/

/-- K of an LDPC job (R314). -/
def ldpcK (d : List Byte) : Nat := (ldpcShape (dsc d 0x20 1)).1 * dsc d 0x24 2

/-- E of block b of an LDPC job (R312). -/
def ldpcE (d : List Byte) (b : Nat) : Nat := if b < dsc d 0x30 2 then dsc d 0x28 4 else dsc d 0x2C 4

/-- The bits of an LDPC job's blocks before or after coding: K − F, less the CRC that the encoder appends (R317, R318). -/
def ldpcInfo (d : List Byte) (kind : Nat) : Nat :=
  ldpcK d - dsc d 0x26 2 - (if kind = 3 ∧ dsc d 0x22 1 = 1 then 24 else 0)

/-- The bits of CRC of a polar job (R312). -/
def polarCrc (d : List Byte) : Nat × Nat :=
  match dsc d 0x28 1 with
  | 1 => (6, 0x21)
  | 2 => (11, 0x621)
  | _ => (24, 0xB2B117)

/-- The payload bits of a polar item (R319). -/
def polarInfo (d : List Byte) : Nat := dsc d 0x22 2 - (polarCrc d).1

/-- The bytes of a polar decoder's item: the payload, then from a 4-B boundary the word with CRC_OK (R319). -/
def polarOut (d : List Byte) : Nat := roundUp (cdiv (polarInfo d) 8) 4 + 4

/-- The bits that element r of a demap job carries (R320). -/
def demapBits (rd : Nat → Byte) (iris : Nat) (d : List Byte) (r : Nat) : Nat :=
  let m := dsc d 0x20 1
  if m = 7 then
    let k := dsc d 0x24 2 + r
    (rd (irisBase iris + dsc d 0x30 4 + k / 2)).toNat / 16 ^ (k % 2) % 16
  else if m ≤ 1 then m + 1 else 2 * m

/-- The sizes of the input items of a job. -/
def engIns (kind : Nat) (d : List Byte) : List Nat :=
  let n := dscCount d
  match kind with
  | 1 => List.replicate n (4 * (dsc d 0x20 2 + if dsc d 0x22 1 = 0 then dsc d 0x24 2 else 0))
  | 2 => (List.range n).map (ldpcE d)
  | 3 => List.replicate n (cdiv (ldpcInfo d 3) 8)
  | 4 => List.replicate n (cdiv (polarInfo d) 8)
  | 5 => List.replicate n (dsc d 0x24 4)
  | _ => [4 * n]

/-- The sizes of the output items of a job; a decoder's result array is the last. -/
def engOuts (rd : Nat → Byte) (iris kind : Nat) (d : List Byte) : List Nat :=
  let n := dscCount d
  match kind with
  | 1 => List.replicate n (4 * (dsc d 0x20 2 + if dsc d 0x22 1 = 1 then dsc d 0x24 2 else 0))
  | 2 => List.replicate n (cdiv (ldpcInfo d 2) 8) ++ [4 * n]
  | 3 => (List.range n).map (fun b => cdiv (ldpcE d b) 8)
  | 4 => List.replicate n (cdiv (dsc d 0x24 4) 8)
  | 5 => List.replicate n (polarOut d)
  | _ => [((List.range n).map (demapBits rd iris d)).foldl (· + ·) 0]

/-- The HARQ buffer of a block and of a job (R314). -/
def harqAt (d : List Byte) (b : Nat) : Nat × Nat := (dsc d 0x38 8 + b * roundUp (dsc d 0x34 4) 64, dsc d 0x34 4)

/-- Whether a job uses its HARQ buffer. -/
def usesHarq (kind : Nat) (d : List Byte) : Bool := kind == 2 && dsc d 0x23 1 % 4 != 0

/-- The HARQ range of a job. -/
def harqSpan (d : List Byte) : Nat × Nat := (dsc d 0x38 8, dscCount d * roundUp (dsc d 0x34 4) 64)

/-- The other ranges of a demap job, by their fields (R312): noise array, quality record, table and accumulator. -/
def demapRanges (iris : Nat) (d : List Byte) : List (Nat × Nat) :=
  let n := dscCount d
  let f (o size skip : Nat) : List (Nat × Nat) := if dsc d o 4 = 0xFFFFFFFF then [] else [(irisBase iris + dsc d o 4 + skip, size)]
  f 0x28 (2 * cdiv n 12) 0 ++ f 0x2C 32 0 ++ f 0x30 2048 0 ++ f 0x34 (4 * n) (4 * dsc d 0x24 2)

/-- Whether the parameters of a kind lie in their ranges and its reserved bytes are 0 (R312). -/
def paramsOk (kind : Nat) (d : List Byte) : Bool :=
  let n := dscCount d
  match kind with
  | 1 =>
    let len := dsc d 0x20 2
    let m := dsc d 0x22 1
    decide (m ≤ 3) && decide (dsc d 0x23 1 ≤ 15) && decide (dsc d 0x24 2 ≤ 1024) && dsc d 0x26 26 == 0 &&
    (if m ≤ 1 then pow2In len 128 4096
     else dsc d 0x24 2 == 0 && (len == 139 || len == 839 ||
       (decide (0 < len) && decide (len ≤ 3276) && len % 12 == 0 && smoothRest 16 (len / 12) == 1)))
  | 2 =>
    let bg := dsc d 0x20 1
    let z := dsc d 0x24 2
    let k := ldpcK d
    let ncb := dsc d 0x34 4
    (bg == 1 || bg == 2) && decide (1 ≤ n) && decide (n ≤ 256) && isLifting z && decide (dsc d 0x26 2 + 24 ≤ k) &&
    (List.range n).all (fun b => decide (1 ≤ ldpcE d b) && decide (ldpcE d b ≤ 262144)) && decide (dsc d 0x30 2 ≤ n) &&
    decide (dsc d 0x32 1 ≤ 3) && [1, 2, 4, 6, 8, 10].contains (dsc d 0x33 1) && decide (k - dsc d 0x26 2 + 2 * z ≤ ncb) &&
    decide (ncb ≤ (if bg = 1 then 66 else 50) * z) && decide (1 ≤ dsc d 0x21 1) && decide (dsc d 0x21 1 ≤ 32) &&
    decide (dsc d 0x22 1 ≤ 2) && decide (dsc d 0x23 1 ≤ 3)
  | 3 =>
    let bg := dsc d 0x20 1
    let z := dsc d 0x24 2
    let k := ldpcK d
    let ncb := dsc d 0x34 4
    (bg == 1 || bg == 2) && decide (1 ≤ n) && decide (n ≤ 256) && isLifting z && decide (dsc d 0x26 2 + 24 ≤ k) &&
    (List.range n).all (fun b => decide (1 ≤ ldpcE d b) && decide (ldpcE d b ≤ 262144)) && decide (dsc d 0x30 2 ≤ n) &&
    decide (dsc d 0x32 1 ≤ 3) && [1, 2, 4, 6, 8, 10].contains (dsc d 0x33 1) && decide (k - dsc d 0x26 2 + 2 * z ≤ ncb) &&
    decide (ncb ≤ (if bg = 1 then 66 else 50) * z) && dsc d 0x21 1 == 0 && decide (dsc d 0x22 1 ≤ 1) && dsc d 0x23 1 == 0 &&
    dsc d 0x38 8 == 0
  | 6 =>
    let m := dsc d 0x20 1
    let back := dsc d 2 2 == 0xFFFE
    decide (m ≤ 7) && decide (dsc d 0x21 1 ≤ 7) && decide (dsc d 0x22 1 ≤ 3) && dsc d 0x23 1 == 0 &&
    decide (1 ≤ n) && decide (n ≤ 4096) && decide (dsc d 0x24 2 + n ≤ 4096) && (m == 7 || dsc d 0x24 2 == 0) && dsc d 0x26 2 == 0 && dsc d 0x38 8 == 0 &&
    dsc d 0x28 4 != 0xFFFFFFFF && (m != 7 || dsc d 0x30 4 != 0xFFFFFFFF) && (back || (decide (m ≤ 5) && dsc d 0x34 4 == 0xFFFFFFFF)) &&
    [0x28, 0x2C, 0x30, 0x34].all (fun o => dsc d o 4 == 0xFFFFFFFF || decide (dsc d o 4 ≤ 0x1FFFFFF))
  | _ =>
    let len := dsc d 0x20 2
    let k := dsc d 0x22 2
    let e := dsc d 0x24 4
    pow2In len 32 1024 && decide (12 ≤ k) && decide (k ≤ 1013) && decide (k ≤ e) && decide (k < len) && decide (e ≤ 8192) &&
    decide (1 ≤ dsc d 0x28 1) && decide (dsc d 0x28 1 ≤ 3) && decide (dsc d 0x29 1 ≤ 7) &&
    (dsc d 0x29 1 / 4 == 0 || dsc d 0x28 1 == 3) && dsc d 0x2C 20 == 0

/-- Whether two ranges of a list overlap. -/
def anyOverlap : List (Nat × Nat) → Bool
  | [] => false
  | x :: t => t.any (fun y => decide (0 < x.2) && decide (0 < y.2) && decide (x.1 < y.1 + y.2) && decide (y.1 < x.1 + x.2)) || anyOverlap t

/-- Whether a job passes the checks of R309. -/
def State.jobOk (s : State) (iris q : Nat) (d : List Byte) : Bool :=
  let kind := s.kindOf iris q
  let cell := dsc d 2 2
  let ins := (dscSrc d, itemsSpan (engIns kind d))
  let base := dsc d 0 1 == kind && dsc d 1 1 == 0 && (decide (cell ≤ 511) || decide (cell ≥ 0xFFFE)) && paramsOk kind d &&
    dscSrc d % 64 == 0 && dscDst d % 64 == 0
  if !base then false
  else
    let outs := (dscDst d, itemsSpan (engOuts s.byte iris kind d))
    let more := if kind = 6 then demapRanges iris d else []
    let harq := if usesHarq kind d then [harqSpan d] else []
    let harqOk := !(usesHarq kind d) || (dsc d 0x38 8 % 64 == 0 && (inSram iris (harqSpan d) || (match regionOf (dsc d 0x38 8) with
      | .hbm x o => s.dieOn x && decide (o + (harqSpan d).2 ≤ 0x1000000000) && (words64 (harqSpan d).1 (harqSpan d).2).all s.memUp
      | _ => false)))
    inSram iris ins && inSram iris outs && more.all (inSram iris) && harqOk && !(anyOverlap ([ins, outs] ++ more ++ harq)) &&
    (kind != 6 || (List.range (dscCount d)).all (fun r => decide (demapBits s.byte iris d r ≤ 12)))

/-! What a job does, item by item (R310). -/

/-- An item of a job: what it reads, what it writes, and what it adds to the results. -/
structure EngItem where
  reads : List (Nat × Nat)
  writes : List (Nat × List Byte)
  res0 : Nat := 0
  res1 : Nat := 0
  time : Nat := 0
  draws : Nat := 0
  blocks : Nat := 0
  early : Nat := 0
  nopass : Nat := 0
  missing : Nat := 0

/-- One more item of a job: the first that reads a word in error ends it, and no later item writes (R310). -/
def State.engItem (s : State) (o : EngOut) (x : EngItem) : EngOut :=
  if o.bad.isSome then o
  else match x.reads.findSome? (fun r => s.badIn r.1 r.2) with
    | some a => { o with bad := some a, status := stUncorr }
    | none => { o with
        reads := o.reads ++ x.reads, res0 := o.res0 + x.res0, res1 := o.res1 + x.res1, time := o.time + x.time, writes := o.writes ++ x.writes,
        draws := o.draws + x.draws, blocks := o.blocks + x.blocks, early := o.early + x.early,
        nopass := o.nopass + x.nopass, missing := o.missing + x.missing }

/-- A transform of item b (R311, R313). -/
def State.fftItem (s : State) (d : List Byte) (b : Nat) : EngItem :=
  let n := dsc d 0x20 2
  let mode := dsc d 0x22 1
  let cp := dsc d 0x24 2
  let size := (engIns 1 d).getD b 0
  let src := dscSrc d + itemAt (engIns 1 d) b
  let x := samplesOf (size / 4) (s.bytes src size)
  let x := if mode = 0 then x.drop cp else x
  let y := transform x n (dsc d 0x23 1) (if mode = 1 then cp else 0) (mode % 2 == 1) (fun i => Config.freeValue (s.free + 2 * n * b + i))
  let out := (y.1.map sampleBytes).flatten
  { reads := [(src, size)], writes := [(dscDst d + b * roundUp out.length 64, out)], res0 := y.2, draws := 2 * n,
    time := if n = 139 ∨ n = 839 then n else cdiv (n + cp) 4 }

/-- m_b of block b of an LDPC decode (R315). -/
def ldpcRows (d : List Byte) (b : Nat) : Nat :=
  let p := ldpcShape (dsc d 0x20 1)
  min p.2 (max 4 (cdiv (ldpcE d b) (dsc d 0x24 2) + 2 - p.1))

/-- Block b of an LDPC decode (R314 to R317, R324). -/
def State.ldpcDecItem (s : State) (d : List Byte) (b : Nat) : EngItem :=
  let bg := dsc d 0x20 1
  let z := dsc d 0x24 2
  let f := dsc d 0x26 2
  let ncb := dsc d 0x34 4
  let k := ldpcK d
  let e := ldpcE d b
  let hf := dsc d 0x23 1
  let src := dscSrc d + itemAt (engIns 2 d) b
  let hq := harqAt d b
  let signed (l : List Byte) : List Int := l.map BitVec.toInt
  let stored := if hf % 2 = 1 then some (signed (s.bytes hq.1 hq.2)) else none
  let w := rateRecover bg z f ncb (dsc d 0x32 1) (dsc d 0x33 1) (signed (s.bytes src e)) stored
  let live := (w.zipIdx.filter (fun x => !(decide (k - f - 2 * z ≤ x.2) && decide (x.2 < k - 2 * z)))).map (fun x => x.1)
  let reads := (src, e) :: (if hf % 2 = 1 then [hq] else [])
  let size := cdiv (k - f) 8
  let at_ := dscDst d + b * roundUp size 64
  let res := dscDst d + dscCount d * roundUp size 64 + 4 * b
  if live.all (fun x => x == 0) then
    { reads := reads, writes := [(at_, List.replicate size 0), (res, leBytes 4 0x100)], res0 := 1, time := 24, blocks := 1,
      missing := 1 }
  else
    let m := ldpcRows d b
    let cols := (ldpcShape bg).1 + m
    let q0 : Array Int := ((List.replicate (2 * z) 0 ++ w ++ List.replicate (cols * z) 0).take (cols * z)).toArray
    let hard (q : Array Int) : List Bool := (List.range (k - f)).map (fun i => decide (q.getD i 0 < 0))
    let many := decide (dscCount d > 1)
    let o := ldpcDecode bg z m cols (dsc d 0x22 1) (fun q => !many || crcValid 24 0x800063 0 (hard q)) (dsc d 0x21 1) 0 q0
      (List.replicate (m * z * cols) 0).toArray
    let bits := hard o.q
    let ok := crcValid 24 0x800063 0 bits
    let word := o.iters + b2n o.pass * 64 + b2n ok * 128
    let keep := if bitOf hf 1 then [(hq.1, w.map (fun x => BitVec.ofInt 8 x))] else []
    { reads := reads, writes := keep ++ [(at_, packLsb bits), (res, leBytes 4 word)], res0 := b2n (!o.pass), res1 := o.iters,
      time := 24 + o.iters * m * cdiv z 96, blocks := 1, early := b2n (decide (o.iters < dsc d 0x21 1)), nopass := b2n (!o.pass) }

/-- Block b of an LDPC encode (R318). -/
def State.ldpcEncItem (s : State) (d : List Byte) (b : Nat) : EngItem :=
  let bg := dsc d 0x20 1
  let z := dsc d 0x24 2
  let f := dsc d 0x26 2
  let k := ldpcK d
  let e := ldpcE d b
  let n := ldpcInfo d 3
  let size := cdiv n 8
  let src := dscSrc d + b * roundUp size 64
  let raw := bitsLsb n (s.bytes src size)
  let info := if dsc d 0x22 1 = 1 then raw ++ msbBits 24 (crc24b raw) else raw
  let full := info ++ List.replicate f false
  let code (i : Nat) : Bool := if i < k then full.getD i false else Config.ldpcParity bg z full (i - k)
  let order := (sentOrder bg z f (dsc d 0x34 4) (dsc d 0x32 1)).toArray
  let out := (List.range e).map (fun t => code (order.getD (interleave e (dsc d 0x33 1) t % max order.size 1) 0 + 2 * z))
  { reads := [(src, size)], writes := [(dscDst d + itemAt ((List.range (dscCount d)).map (fun b => cdiv (ldpcE d b) 8)) b, packLsb out)],
    time := 8 + cdiv (max k (e / 2)) 64 }

/-- The mask on a polar item's CRC: the RNTI on its last 16 bits (R312). -/
def polarMask (d : List Byte) : Nat := if bitOf (dsc d 0x29 1) 2 then dsc d 0x2A 2 else 0

/-- Item b of a polar encode (R319). -/
def State.polarEncItem (s : State) (d : List Byte) (b : Nat) : EngItem :=
  let n := polarInfo d
  let size := cdiv n 8
  let src := dscSrc d + b * roundUp size 64
  let raw := bitsLsb n (s.bytes src size)
  let c := polarCrc d
  let bits := raw ++ msbBits c.1 (Nat.xor (crcOf c.1 c.2 raw) (polarMask d))
  let e := dsc d 0x24 4
  let out := (List.range e).map (Config.polarCode (dsc d 0x20 2) e (dsc d 0x29 1) bits)
  { reads := [(src, size)], writes := [(dscDst d + b * roundUp (cdiv e 8) 64, packLsb out)], time := 16 + cdiv (dsc d 0x20 2) 16 }

/-- Item b of a polar decode (R319). -/
def State.polarDecItem (s : State) (d : List Byte) (b : Nat) : EngItem :=
  let e := dsc d 0x24 4
  let k := dsc d 0x22 2
  let src := dscSrc d + b * roundUp e 64
  let llr := (s.bytes src e).map BitVec.toInt
  let c := polarCrc d
  let bits := (List.range k).map (Config.polarPath (dsc d 0x20 2) k e (dsc d 0x28 1) (dsc d 0x29 1) llr)
  let ok := crcValid c.1 c.2 (polarMask d) bits
  let pay := packLsb (bits.take (polarInfo d))
  let out := (pay ++ List.replicate 4 0).take (polarOut d - 4) ++ leBytes 4 (b2n ok * 128)
  { reads := [(src, e)], writes := [(dscDst d + b * roundUp (polarOut d) 64, out)], res0 := b2n (!ok), time := 96 + 2 * dsc d 0x20 2 }

/-- The NV entry of element r, 0 read as 1 (R321). -/
def State.nvOf (s : State) (iris : Nat) (d : List Byte) (r : Nat) : Nat := max 1 (s.num (irisBase iris + dsc d 0x28 4 + 2 * (r / 12)) 2)

/-- Element r of a demap job (R320 to R322). -/
def State.demapItem (s : State) (iris : Nat) (d : List Byte) (r : Nat) : EngItem :=
  let m := dsc d 0x20 1
  let q := demapBits s.byte iris d r
  let nv := s.nvOf iris d r
  let erased := nv == 0xFFFF
  let y := sampleOf (s.bytes (dscSrc d + 4 * r) 4)
  let at_ := ((List.range r).map (demapBits s.byte iris d)).foldl (· + ·) 0
  let llr := if erased then List.replicate q 0 else elementLlrs m q r y nv (dsc d 0x21 1) (dsc d 0x22 1)
  let acc := irisBase iris + dsc d 0x34 4 + 4 * (dsc d 0x24 2 + r)
  let more := if dsc d 0x34 4 = 0xFFFFFFFF || erased then []
    else [(acc, leBytes 4 (min (2 ^ 32 - 1) (s.num acc 4 + dist2 y (nearestPoint m q r y) / 4096)))]
  { reads := [(dscSrc d + 4 * r, 4), (irisBase iris + dsc d 0x28 4 + 2 * (r / 12), 2)],
    writes := (dscDst d + at_, llr.map (fun x => BitVec.ofInt 8 x)) :: more }

/-- Whether the error energy exceeds the signal's by more than the range of EVM_DB holds. -/
def tooBad (sig err : Nat) : Bool := Nat.blt (10 * sig ^ (80 : Nat)) (err ^ (80 : Nat))

/-- The quality record of a demap job (R323); the free value is EVM_DB where the error exceeds the signal. -/
def State.qualityRecord (s : State) (iris : Nat) (d : List Byte) : List Byte :=
  let n := dscCount d
  let m := dsc d 0x20 1
  let rs := (List.range n).filter (fun r => s.nvOf iris d r != 0xFFFF && demapBits s.byte iris d r != 0)
  let pts := rs.map (fun r =>
    let y := sampleOf (s.bytes (dscSrc d + 4 * r) 4)
    let x := nearestPoint m (demapBits s.byte iris d r) r y
    (dist2 y x, dist2 x (0, 0)))
  let err : Nat := min (2 ^ 64 - 1) ((pts.map (fun p => p.1)).foldl (· + ·) 0)
  let sig : Nat := min (2 ^ 64 - 1) ((pts.map (fun p => p.2)).foldl (· + ·) 0)
  let gs := (List.range (cdiv n 12)).map (fun p => s.nvOf iris d (12 * p))
  let live := gs.filter (fun v => v != 0xFFFF)
  let evm : Nat := if rs.isEmpty then 0 else if err = 0 then 255
    else if tooBad sig err then Config.freeValue s.free % 256 else evmDb sig err
  let lqi := if live.isEmpty then 0 else lqiOf (live.foldl (· + ·) 0) live.length
  leBytes 8 err ++ leBytes 8 sig ++ leBytes 2 rs.length ++ leBytes 2 (gs.length - live.length) ++ leBytes 1 evm ++ leBytes 1 lqi ++
  leBytes 2 (dsc d 2 2) ++ leBytes 1 (dsc d 0x22 1) ++ leBytes 7 0

/-- What a job of a kind ends with (R310, R311). -/
def State.runJob (s : State) (iris kind : Nat) (d : List Byte) : EngOut :=
  let n := dscCount d
  let each (f : Nat → EngItem) : EngOut := (List.range n).foldl (fun o b => s.engItem o (f b)) {}
  match kind with
  | 1 => let o := each (s.fftItem d); { o with res0 := min o.res0 65535 }
  | 2 =>
    let o := each (s.ldpcDecItem d)
    { o with time := o.time + (match usesHarq 2 d, regionOf (dsc d 0x38 8) with
      | true, .hbm .. => 110
      | _, _ => 0) }
  | 3 => each (s.ldpcEncItem d)
  | 4 => each (s.polarEncItem d)
  | 5 => each (s.polarDecItem d)
  | _ =>
    let o := each (s.demapItem iris d)
    let o := { o with time := o.time + cdiv n (if dsc d 0x20 1 ≤ 4 then 8 else 4) }
    if dsc d 0x2C 4 = 0xFFFFFFFF || o.bad.isSome then o
    else { o with writes := o.writes ++ [(irisBase iris + dsc d 0x2C 4, s.qualityRecord iris d)], draws := o.draws + 1 }

/-! The life of a job. -/

/-- Whether the next job of a queue may start (R306, R307, R558). -/
def State.mayStart (s : State) (iris q : Nat) : Bool :=
  let e := s.engq iris q
  e.running.isNone && !e.jobs.isEmpty && (!e.gate || decide (0 < e.token)) && !s.gstopped && s.pdOn (33 + 2 * iris)

/-- The next job of a queue starts (R306, R307, R309): it reads its descriptor; one that fails the checks, or whose queue
is fenced, ends with nothing but its STATUS. -/
def State.startJob (s : State) (iris q : Nat) : State :=
  let e := s.engq iris q
  match e.jobs with
  | [] => s
  | j :: t =>
    if !(s.mayStart iris q) then s
    else
      let s := s.advanceTo (max j.startLc e.freeLc)
      let d := s.bytes j.desc 64
      let fenced := s.chipFenced || s.fenced 1 (0x200 + 64 * iris + q)
      let out : Option EngOut :=
        if fenced then some { status := stFenced }
        else match s.badIn j.desc 64 with
          | some a => some { status := stUncorr, bad := some a }
          | none => if s.jobOk iris q d then none else some { status := stNoUnit }
      s.setEngq iris q { e with
        jobs := t, running := some j, startLc := s.lc, bytes := d, out := out, token := if e.gate then e.token - 1 else e.token }

/-- The engine of a kind runs the job that a queue has started (R306, R311). -/
def State.engine (s : State) (kind iris q : Nat) : State :=
  let e := s.engq iris q
  if s.kindOf iris q ≠ kind || e.running.isNone || e.out.isSome || s.gstopped then s
  else
    let o := s.runJob iris kind e.bytes
    ({ s with free := s.free + o.draws }).setEngq iris q { e with out := some o }

/-- A job ends (R307, R310, R332): what it wrote stands, its STATUS is written last, its token is signalled. -/
def State.endJob (s : State) (iris q : Nat) : State :=
  let e := s.engq iris q
  match e.running, e.out with
  | some j, some o =>
    if s.gstopped then s
    else
      let s := s.advanceTo (e.startLc + o.time)
      let m := Master.unit (.iris j.core)
      let s := o.reads.foldl (fun s r => s.accessBy m false r.1 r.2 false) s
      let s := o.writes.foldl (fun s w => (s.store w.1 w.2).accessBy m false w.1 w.2.length true) s
      let s := match o.bad with
        | some a => s.memError a 0
        | none => s
      let word := o.status + 2 ^ 15 + o.res0 % 65536 * 2 ^ 16 + o.res1 % 2 ^ 32 * 2 ^ 32
      let s := s.store (j.desc + 8) (leBytes 8 word)
      let d := 16 + iris
      let s := (s.bumpFld R.irsLdpcStat d [] 31 0 o.blocks).bumpFld R.irsLdpcStat d [] 63 32 o.early
      let s := (s.bumpFld R.irsLdpcFail d [] 31 0 o.nopass).bumpFld R.irsLdpcFail d [] 63 32 o.missing
      let k := s.kindOf iris q
      let s := s.pmuAt d 0x23 none 1
      let s := match k with
        | 2 => s.pmuAt d 0x24 none o.res1
        | 1 => s.pmuAt d 0x25 none (cdiv (dsc e.bytes 0x20 2 * dscCount e.bytes) 64)
        | _ => s
      let s := s.trace d (some 4) 0x07 q 0 (leBytes 1 q ++ leBytes 1 o.status ++ leBytes 2 (dsc e.bytes 2 2) ++ leBytes 4 0 ++ leBytes 8 o.time)
      let s := s.setEngq iris q { e with running := none, out := none, bytes := [], done := satAdd e.done 1 (2 ^ 32 - 1), freeLc := s.lc }
      s.sendToken j.token (0x400 + j.core) 0 true
  | _, _ => s

end Sys2Proof.Machine
end

