-- ==== Sys2Proof/Machine/SeqEvents.lean ====
section
/-! DEFINITION. The meanings of the sequencer's event rows: results becoming visible (R95), contexts resuming (R87),
arrivals (R109, R110, R113), weight-stream staging (R58, R61, R62), bank wins of unscheduled masters (R115, R116, R231),
COMMIT (R119) and NOP (R89). -/
namespace Sys2Proof.Machine

/-- NOP (R89): the bundle issues with nothing in its CTL slot. -/
def execNop (u : SeqUnit) (b : Bundle) (s : State) : Host.Outcome State Fault Refusal :=
  .next (s.issue u (b.withCtl .nop))

/-- EXEC_PAST_CODE_END (R92): a running context whose next bundle index has reached CODE_BUNDLES raises the
illegal-operation exception in the cycle in which it would issue. -/
def execExecPastCodeEnd (u : SeqUnit) (s : State) : Host.Outcome State Fault Refusal :=
  let q := s.seq u
  match q.run with
  | none => .next s
  | some k =>
    if q.canIssue && decide ((q.ctx k).pc ≥ q.codeLen) then .next (s.issue u {}) else .next s

/-- MEMORY_ERROR_DETECTED (R135): the earliest uncorrectable data on its way to the sequencer reaches it; with none on its
way, the error is one of the fetch of the next bundle. -/
def execMemoryErrorDetected (u : SeqUnit) (off : Nat) (s : State) : Host.Outcome State Fault Refusal :=
  let q := s.seq u
  let isErr (e : Effect) : Bool := match e with
    | .memError _ => true
    | _ => false
  if !q.active then .next s
  else match q.dueOf isErr with
    | some t => .next (s.settleTo u t)
    | none => match q.run with
      | none => .next s
      | some k =>
        if !q.canIssue then .next s
        else .next (((s.settle u q.next).memError off (s.unitPart u)).raise u k exMemory 0 (s.globalAddr off) false)

/-- RESULT_VISIBLE (R95, R96): the next result of the unit becomes visible, with every other of its cycle. -/
def execResultVisible (u : SeqUnit) (s : State) : Host.Outcome State Fault Refusal :=
  .next (s.landFirst u (fun _ => true))

/-- MAC_ACCUM_READY (R54, R191): the accumulators of the operation that ends first become readable, and token 63 gains
1. -/
def execMacAccumReady (u : SeqUnit) (s : State) : Host.Outcome State Fault Refusal :=
  .next (s.landFirst u (fun e => match e with
    | .mac .. => true
    | _ => false))

/-- LIST_OP_COMPLETE (R174): the list operation that ends first completes and signals its token. -/
def execListOpComplete (u : SeqUnit) (s : State) : Host.Outcome State Fault Refusal :=
  let q := s.seq u
  .next (s.landFirst u (fun e => match e with
    | .dmaEnd id => q.dmas.any (fun d => d.id == id && d.list)
    | _ => false))

/-- The effects of one DMA delayed by the cycles of a repeated HBM3E read (R62, R106, R238). -/
def Seq.delayDma (q : Seq) (id n : Nat) : Seq :=
  let hit (p : Pend) : Bool := match p.what with
    | .dmaEnd i => i == id
    | _ => false
  let moved := (q.pend.filter hit).map (fun p => { p with due := p.due + n })
  { q with pend := moved.foldl (fun l p => insertPend p l) (q.pend.filter (fun p => !(hit p))),
           portFree := q.portFree + n, hbmHold := satAdd q.hbmHold n (2 ^ 32 - 1) }

/-- Whether an end of a DMA lies in an HBM3E stack. -/
def ownHbmDma (d : Dma) : Bool :=
  let hbm (a : Nat) : Bool := match regionOf a with
    | .hbm .. => true
    | _ => false
  d.srcs.any (fun p => hbm p.1) || d.writes.any (fun w => hbm w.1)

/-- A DMA whose reads an exact-mode step held off takes them when they are served (R233). -/
def State.rereadDma (s : State) (d : Dma) : Dma :=
  if d.wait then { d with writes := d.writes.map (fun w => (w.1, s.pieceBytes d.srcs)), bad := s.badIn2 d.srcs } else d

/-- DMA_COMPLETE (R105, R106, R113): the i-th outstanding DMA completes. One to or from another die arrives dt cycles on,
unless an exact-mode step still holds its ends (R233); one of the own HBM3E stack first takes the dt cycles of a repeated
read (R62), which corrected an error (R238, R243). -/
def execDmaComplete (u : SeqUnit) (i dt : Nat) (s : State) : Host.Outcome State Fault Refusal :=
  let q := s.seq u
  match (q.dmas.filter (fun d => !d.list))[i]? with
  | none => .next s
  | some d =>
    if d.remote then
      if d.writes.any (fun w => s.exactHeld q.step w.1 w.2.length) ||
          (d.wait && d.srcs.any (fun p => s.exactHeld q.step p.1 p.2)) then .next s
      else
        let s := s.settle u (q.arrival dt)
        let s := d.writes.foldl (fun s w => s.intrudeBut (some q.step) w.1 w.2.length) s
        .next (s.endDma u (s.rereadDma d))
    else
      let s := if dt = 0 || !(ownHbmDma d) then s
        else ((s.setSeq u (q.delayDma d.id (min dt 48))).bumpFld R.dhlHbmEcc (unitDie u) [] 31 0 1).pmuAt (unitDie u) 0x0B none 1
      .next (s.landFirst u (fun e => match e with
        | .dmaEnd id => id == d.id
        | _ => false))

/-- CONTEXT_RESUME (R86, R87): the context that the switch point selected reaches its issue cycle; with none selected,
the first READY context is selected. -/
def execContextResume (u : SeqUnit) (s : State) : Host.Outcome State Fault Refusal :=
  let q := s.seq u
  if !q.canIssue then .next s
  else match q.run with
    | some _ => .next (s.settle u q.next)
    | none => .next ((s.setSeq u (q.resume (numCtx u))).observe u q)

/-- REMOTE_REPLY_ARRIVAL (R109, R172): the oldest answered operation of a context delivers its reply, dt cycles on. -/
def execRemoteReplyArrival (u : SeqUnit) (k dt : Nat) (s : State) : Host.Outcome State Fault Refusal :=
  match s.remote.find? (fun r => r.issuer == .ctx u k && r.status.isSome) with
  | none => .next s
  | some r => .next (s.replyTo u k ((s.seq u).arrival dt) r)

/-- A token's target unit reached (R110, R111, R295, R307): the count rises, or the token is discarded with a TOKEN event
in the sender's ring. -/
def State.deliverToken (s : State) (m : TokenMsg) (dt : Nat) : State :=
  let discard := s.tokenEvent m.part m.target m.fromUnit 0
  if m.target.kind = 0 then
    match s.physCluster m.target.unit with
    | none => discard
    | some c =>
      let q := s.seq (.cluster c)
      if !q.active || q.part ≠ m.part || m.dead then discard
      else
        let t := q.arrival dt
        (s.settle (.cluster c) t).arriveToken (.cluster c) m.target.token t m.fromUnit
  else if !m.radio then discard
  else if m.target.kind = 1 then
    if m.target.unit ≥ 192 then discard
    else
      let u := SeqUnit.iris m.target.unit
      let t := (s.seq u).arrival dt
      (s.settle u t).arriveToken u m.target.token t m.fromUnit
  else
    let i := m.target.unit / 64
    let n := m.target.unit % 64
    let e := s.engq i n
    if m.target.token ≠ 0 || s.kindOf i n = 0 then discard
    else if e.token ≥ 65535 then
      (s.setEngq i n { e with sat := true }).tokenEvent 0 m.target m.fromUnit 1
    else s.setEngq i n { e with token := e.token + 1 }

/-- TOKEN_ARRIVAL (R110 to R112): the i-th token on its way arrives, dt cycles on. -/
def execTokenArrival (i dt : Nat) (s : State) : Host.Outcome State Fault Refusal :=
  match s.tokens[i]? with
  | none => .next s
  | some m => .next (({ s with tokens := s.tokens.eraseIdx i }).deliverToken m dt)

/-- A contended bank cycle counted for a master, won or lost (R234). -/
def State.countBank (s : State) (die m : Nat) (won : Bool) : State :=
  if s.fld R.dhlSpCfg die [] 9 9 = 0 then s
  else if won then s.bumpFld R.dhlSpConf die [m] 31 0 1 else s.bumpFld R.dhlSpConf die [m] 63 32 1

/-- UNSCHEDULED_BANK_WIN (R115, R116, R231 to R234): a master of class `mcls` (fabric inbound 0, host 1, debug 2) wins a
bank cycle that the cluster needs, and the cluster freezes for one lane cycle. It cannot against an exact-mode step, nor
within 7 lane cycles of the last such win. -/
def execUnscheduledBankWin (u : SeqUnit) (mcls bank : Nat) (wr : Bool) (s : State) :
    Host.Outcome State Fault Refusal :=
  let q := s.seq u
  let now := q.cycles
  let soon := match q.lastWin with
    | none => false
    | some w => decide (now < w + 8)
  if !q.active || q.exact || soon then .next s
  else
    let q := { q.freeze false 1 with lastWin := some now }
    let q := if wr && q.slice.getLsbD (bank / 16) then { q with ndIntrude := satAdd q.ndIntrude 1 65535 } else q
    let s := (s.setSeq u q).observe u (s.seq u)
    match u with
    | .iris _ => .next s
    | .cluster c => .next ((s.countBank (c / 8) (8 + min mcls 2) true).countBank (c / 8) (c % 8) false)

/-- WEIGHT_STREAM_FIRST_STAGING (R61): the first 64 B of the pending weight stream reach staging in their cycle. -/
def execWeightStreamFirstStaging (u : SeqUnit) (s : State) : Host.Outcome State Fault Refusal :=
  let q := s.seq u
  match q.wpend with
  | none => .next s
  | some w =>
    if q.free w.first then
      let s := s.settle u w.first
      .next (s.setSeq u { s.seq u with wpend := some { w with staged := true } })
    else .next s

/-- A wide-shallow operation in flight that waits n cycles for a repeated HBM3E read: its occupancy, its results and the
port move by n (R62). -/
def Seq.holdMac (q : Seq) (m : MacBusy) (n : Nat) : Seq :=
  let hit (p : Pend) : Bool := decide (p.due = m.readable) && (match p.what with
    | .mac .. => true
    | _ => false)
  let moved := (q.pend.filter hit).map (fun p => { p with due := p.due + n })
  { q with
    pend := moved.foldl (fun l p => insertPend p l) (q.pend.filter (fun p => !(hit p)))
    macs := q.macs.map (fun x => if x = m then { x with until_ := x.until_ + n, readable := x.readable + n } else x)
    halfFree := (q.halfFree.1 + n, q.halfFree.2 + n), portFree := q.portFree + n,
    hbmHold := satAdd q.hbmHold n (2 ^ 32 - 1) }

/-- WEIGHT_STREAM_HALF_REFILL (R58, R62): a released staging half is refilled. The order of refills is part of a MAC's
timing (R60); a read repeated after a corrected error adds `extra` lane cycles, at most 48, to the operation that the
stream feeds, or to the first staging of a stream still pending. -/
def execWeightStreamHalfRefill (u : SeqUnit) (extra : Nat) (s : State) : Host.Outcome State Fault Refusal :=
  let q := s.seq u
  let n := min extra 48
  let s' := if n = 0 then s else (s.bumpFld R.dhlHbmEcc (unitDie u) [] 31 0 1).pmuAt (unitDie u) 0x0B none 1
  if !q.form || !q.active || u.isIris then .next s
  else match q.macs.find? (fun m => decide (q.cyc < m.until_)) with
    | some m => .next (s'.setSeq u (q.holdMac m n))
    | none => match q.wpend with
      | some w => if w.staged then .next s
          else .next (s'.setSeq u { q with wpend := some { w with first := w.first + n }, portFree := q.portFree + n })
      | none => .next s

end Sys2Proof.Machine
end

