-- ==== Sys2Proof/Machine/IrisOps.lean ====
section
/-! DEFINITION. The Iris slot timers (R297, R298, R332), the loading of images onto DSP cores (R299 to R301, R333), and the
backhaul link of an Iris die (R326 to R331). -/
namespace Sys2Proof.Machine

/-! Images. -/

/-- IRS_CORE_IMGST.STATE of a core (R333). -/
def State.imgState (s : State) (i c : Nat) : Nat := s.fld R.irsCoreImgst (16 + i) [c] 2 0

/-- The state with IRS_CORE_IMGST.STATE replaced. -/
def State.setImg (s : State) (i c v : Nat) : State := s.setFld R.irsCoreImgst (16 + i) [c] 2 0 v

/-- The node offset of a core's image (R333). -/
def State.imgAt (s : State) (i c : Nat) : Nat := s.fld R.irsCoreImg (16 + i) [c] 47 0

/-- Whether the load of an image is refused (R124, R299). -/
def State.irisImageBad (s : State) (i off : Nat) : Bool :=
  let h := s.bytes off 256
  let exact := s.exactMode (s.fld R.fxgEpoch 31 [] 15 0) 0
  let n := 256 + 32 * fieldOf h 0x1C 4
  !(inSram i (off, 256)) || s.memStatus 0 off 256 != stOK || headerBad h 1 2048 || !(bitOf (fieldOf h 7 1) 2) ||
  fieldOf h 0x10 2 != 1 || fieldOf h 0x13 1 != 0 || fieldOf h 0x14 4 != 0 || (bitOf (fieldOf h 7 1) 0 && !exact) ||
  signatureDiffers (fieldOf h 0x60 16) (s.effSignature exact) ||
  !(inSram i (off, n)) || s.memStatus 0 off n != stOK || digestBad (s.imageBytes off)

/-- Whether every context of a core is in a state that a test allows. -/
def Seq.ctxsAll (q : Seq) (p : CtxSt → Bool) : Bool := (List.range 4).all (fun k => p (q.ctx k).st)

/-- What an image that stops leaves on its way to memory and to other units: its transfers and stores, by their cycles from
now. -/
def Seq.leftOver (q : Seq) : List Pend :=
  (q.pend.filter (fun p => match p.what with
    | .mem .. => true
    | .memList .. => true
    | .signal .. => true
    | .dmaEnd .. => true
    | .memError .. => true
    | _ => false)).map (fun p => { p with due := p.due - q.cyc })

/-- The load of a core's image begins (R301): the old image stops, the registers of R127 and R138 are reset, and the
bundles are copied. -/
def State.startImage (s : State) (i c : Nat) : State :=
  let u := SeqUnit.iris (48 * i + c)
  let q := s.seq u
  let off := s.imgAt i c
  let h := s.bytes off 256
  let n := fieldOf h 0x1C 4
  let exact := s.exactMode (s.fld R.fxgEpoch 31 [] 15 0) 0
  let q : Seq :=
    { ctxs := (List.range 4).map (fun k => (k, { arith := arithInit (fieldOf h 0x18 4) exact }))
      exact := exact, radio := true, declared := fieldOf h 8 8, code := s.imageCode off n, codeLen := n
      codeDigest := fieldOf h 0x40 32, pend := q.leftOver, dmas := q.dmas, nextId := q.nextId, lcStart := s.lc
      dbgHalted := q.dbgHalted, dbgCause := q.dbgCause, dbgIndex := q.dbgIndex, dbgHaltLc := q.dbgHaltLc }
  (s.setSeq u q).setImg i c 2

/-- A write of IRS_CORE_IMG (R299, R300, R333). -/
def State.writeImg (s : State) (m : Master) (i c : Nat) (v part : Word) : State :=
  let r := R.irsCoreImg
  let d := 16 + i
  let st := s.imgState i c
  let go := v.getLsbD 52 && part.getLsbD 52
  if go && (st == 1 || st == 2) then s.refuseReg m r d [c] v
  else
    let w := setField (r.written (s.reg r d [c]) v part false false) 7 0 0
    let s := s.setReg r d [c] w
    if !go then s
    else
      let q := s.seq (.iris (48 * i + c))
      let busy := !(w.getLsbD 48) && !(q.ctxsAll (fun x => x == .idle || x == .halted || x == .faulted))
      if s.deadUnits.contains (0x100 + 48 * i + c) then s.refusedIn 0 (s.globalAddr (r.at d [c])) v 0
      else if busy || s.irisImageBad i (getField w 47 0) then
        (s.setImg i c 4).refusedIn 0 (s.globalAddr (r.at d [c])) v 0
      else if w.getLsbD 48 then s.setImg i c 1
      else s.startImage i c

/-- The copy of a core's image ends, and context 0 issues its entry bundle 4 signal cycles later (R84, R301). -/
def State.runImage (s : State) (i c : Nat) : State :=
  let u := SeqUnit.iris (48 * i + c)
  let q := s.seq u
  if s.imgState i c ≠ 2 ∨ s.gstopped then s
  else
    let copy := cdiv (q.codeLen * 32) 256
    let s := s.advanceTo (q.lcStart + cdiv (copy * 1000) 1410)
    let h := s.bytes (s.imgAt i c) 256
    let arg := s.reg R.irsCoreArg (16 + i) [c]
    let mask := fieldOf h 0x12 1
    let ctx (k : Nat) : Ctx :=
      let x := q.ctx k
      if !(bitOf mask k) then x
      else { x with
        st := if k = 0 then .running else .ready
        pc := fieldOf h (0x20 + 4 * k) 4
        s := [(0, 0), (1, 1), (2, arg), (3, BitVec.ofNat 64 k)] }
    let q : Seq := { q with
      ctxs := (List.range 4).map (fun k => (k, ctx k)), active := true, started := true, cyc := 0, lcStart := s.lc, run := some 0
      next := 4, pend := q.pend.map (fun (p : Pend) => { p with due := p.due - copy }) }
    (s.setSeq u q).setImg i c 3

/-! Slot timers. -/

/-- The first instant PHASE + n × PERIOD, n ≥ 0, that is later than an instant (R297). -/
def nextTickNs (phase : Int) (period : Nat) (after : Int) : Int :=
  if after < phase then phase else phase + ((after - phase) / period + 1) * period

/-- A token of a slot timer reaches a core, dt signal cycles after the tick (R112, R297). A saturated arrival's event names
a sender that the spec gives no code: a free value. -/
def State.timerToken (s : State) (u : SeqUnit) (n dt : Nat) : State :=
  let q := s.seq u
  let c := q.cyclesIn u (s.lc - q.lcStart) + dt
  let t := if q.dbgHalted then q.cyc else if q.run.isSome && q.canIssue then min (max c q.cyc) (max q.cyc q.next) else max c q.cyc
  let d := s.draw
  (d.2.settle u t).arriveToken u n t (d.1 % 65536)

/-- What a tick does at one core (R297, R298, R300). -/
def State.timerCore (s : State) (i t dt c : Nat) : State :=
  let d := 16 + i
  let u := SeqUnit.iris (48 * i + c)
  let n := s.fld R.irsStimerCfg d [t] 29 24
  let img := s.reg R.irsCoreImg d [c]
  let q := s.seq u
  let s := if s.imgState i c = 1 && img.getLsbD 48 && getField img 51 49 == t &&
      q.ctxsAll (fun x => x == .idle || x == .halted || x == .waitToken) then s.startImage i c else s
  if !(bitOf (s.fld R.irsStimerCores d [t] 47 0) c) then s
  else
    let s := if 0 < (s.seq u).tokens.getD n 0 then
        (s.bumpFld R.irsCoreImgst d [c] 47 16 1).emit 0 evRadioOverrun d (leBytes 2 (0x8000 + 48 * i + c))
      else s
    s.timerToken u n dt

/-- A tick of a slot timer (R297, R298, R300). -/
def State.timerTick (s : State) (i t dt : Nat) : State :=
  let d := 16 + i
  if s.fld R.irsStimerCfg d [t] 31 31 = 0 || !(s.pdOn (33 + 2 * i)) then s
  else
    let ns := nextTickNs (s.reg R.irsStimerPhase d [t]).toInt (s.fld R.irsStimerCfg d [t] 23 0) (s.stimers.getD (8 * i + t) 0)
    let s := s.advanceTo (s.lcOfArt ns)
    let s := { s with stimers := s.stimers.put (8 * i + t) ns }
    let s := s.setReg R.irsStimerCount d [t] (s.reg R.irsStimerCount d [t] + 1)
    if s.pdOn (32 + 2 * i) then (List.range 48).foldl (fun s c => s.timerCore i t (min dt 170) c) s else s

/-- A write of IRS_STIMER_CFG (R332, R471). -/
def State.writeStimer (s : State) (m : Master) (i t : Nat) (v part : Word) : State :=
  let r := R.irsStimerCfg
  let d := 16 + i
  let w := r.written (s.reg r d [t]) v part false false
  let set := part.getLsbD 31 && w.getLsbD 31
  let p := getField w 23 0
  if w.getLsbD 31 && (decide (p < 1000) || decide (10000000 < p) || (set && s.lsState == 1)) then
    (s.setReg r d [t] (setField w 31 31 0)).refuseReg m r d [t] v
  else
    let s := s.setReg r d [t] w
    if set then
      ({ s with stimers := s.stimers.put (8 * i + t) s.artNs }).setReg R.irsStimerCount d [t] 0
    else s

/-- A write of IRS_EQ (R307, R332): GATE takes its value and the count goes to 0; SAT is cleared by writing 1. -/
def State.writeEq (s : State) (i q : Nat) (v part : Word) : State :=
  let e := s.engq i q
  let sat := e.sat && !(v.getLsbD 13 && part.getLsbD 13)
  if part.getLsbD 12 then s.setEngq i q { e with gate := v.getLsbD 12, token := 0, sat := sat }
  else s.setEngq i q { e with sat := sat }

/-! The backhaul link. -/

/-- The backhaul link of an Iris die. -/
def State.bhOf (s : State) (i : Nat) : Bh := s.bh.getD i {}

/-- The state with a backhaul link replaced. -/
def State.setBh (s : State) (i : Nat) (b : Bh) : State := { s with bh := s.bh.put i b }

/-- The management messages (R328). -/
def bhLoadReq (seq : Nat) (table : List Byte) : List Byte := leBytes 1 1 ++ leBytes 1 seq ++ table ++ leBytes 4 (Config.crc32 table).toNat

/-- The offer ended, its SEQ released (R329). -/
def Bh.release (b : Bh) : Bh := { b with st := .idle, seq := 0, table := [], released := (b.seq, b.table) :: b.released }

/-- Whether an entry of a loading table is above 12 (R327). -/
def tableInvalid (t : List Byte) : Bool := t.any (fun b => decide (b.toNat % 16 > 12) || decide (b.toNat / 16 > 12))

/-- Software offers a table (R329). -/
def Bh.offer (b : Bh) (lc seq : Nat) (t : List Byte) : Bh :=
  if b.st ≠ .idle ∨ seq = 0 ∨ 255 < seq ∨ seq = b.cur ∨ b.released.contains (seq, t) then b
  else { b with st := .offered, seq := seq, table := t, resends := 0, sentLc := lc, sent := bhLoadReq seq t }

/-- 1 ms passed without an ACK (R329). -/
def Bh.resend (b : Bh) (lc : Nat) : Bh :=
  if b.resends < 3 then { b with resends := b.resends + 1, sentLc := lc, sent := bhLoadReq b.seq b.table } else b.release

/-- The transmitter's pending table comes into force from its switch frame on (R330). -/
def Bh.switchTx (b : Bh) (frame : Nat) : Bh :=
  match b.pend with
  | none => b
  | some (sq, f, t) => if (frame + 65536 - f) % 65536 < 32768 then { b with txSeq := sq, txFrom := f, txTable := t, pend := none } else b

/-- An ACK message (R328). -/
def bhAck (seq f : Nat) : List Byte := leBytes 1 2 ++ leBytes 1 seq ++ leBytes 2 f

/-- The transmitting end answers a LOAD_REQ while it builds a frame (R330). -/
def Bh.answerLoad (b : Bh) (frame : Nat) (msg : List Byte) : Bh :=
  let b := b.switchTx frame
  let sq := fieldOf msg 1 1
  let t := (msg.drop 2).take 2048
  let nack (why : Nat) : Bh := { b with sent := leBytes 1 3 ++ leBytes 1 sq ++ leBytes 1 why }
  let pendF : Option Nat := match b.pend with
    | some (x, f, _) => if x = sq then some f else none
    | none => none
  if sq = 0 then nack 3
  else match pendF with
    | some f => { b with sent := bhAck sq f }
    | none =>
      if sq = b.txSeq then { b with sent := bhAck sq b.txFrom }
      else if msg.length ≠ 2054 ∨ fieldOf msg 2050 4 ≠ (Config.crc32 t).toNat then nack 1
      else if tableInvalid t then nack 2
      else
        let f := (frame + 8) % 65536
        { b with pend := some (sq, f, t), sent := bhAck sq f }

/-- The transmitter returns to table 0 from a frame on and drops its pending table (R331). -/
def Bh.fallTx (b : Bh) (frame : Nat) : Bh := { b with txSeq := 0, txFrom := frame % 65536, txTable := [], pend := none }

/-- The receiving end sends FALLBACK (R329, R331). -/
def Bh.sendFallback (b : Bh) : Bh :=
  let b := if b.st = .idle then b else b.release
  { b with fails := 0, sent := leBytes 1 4 ++ leBytes 1 0 }

/-- The moves that a decoded header makes (R329). -/
def Bh.header (b : Bh) (seq frame : Nat) : Bh :=
  if b.st ≠ .idle ∧ seq = b.seq then
    { b with st := .idle, released := if b.cur = 0 then b.released else (b.cur, b.curTable) :: b.released
             cur := b.seq, curTable := b.table, seq := 0, table := [] }
  else if b.st = .armed ∧ (frame + 65536 - b.switch) % 65536 < 32768 then b.release
  else b

/-- Whether the receiving end holds a table (R331). -/
def Bh.holds (b : Bh) (seq : Nat) : Bool := seq == 0 || seq == b.cur || (b.st != .idle && seq == b.seq)

/-- A frame received (R326, R329, R331): its header, if it decodes, and whether its payload decodes. -/
def Bh.frame (b : Bh) (lc : Nat) (header : Option Nat) (payload : Bool) : Bh :=
  let bad (b : Bh) : Bh :=
    let b := { b with fails := b.fails + 1 }
    if 16 ≤ b.fails then b.sendFallback else b
  match header with
  | none => bad b
  | some h =>
    let sq := bitsOf h 7 0
    let b := { b with headerLc := lc }
    if !(b.holds sq) then bad ({ (b.header sq (bitsOf h 23 8)) with unknown := b.unknown + 1 })
    else
      let b := b.header sq (bitsOf h 23 8)
      if payload then { b with fails := 0 } else bad b

end Sys2Proof.Machine
end

