-- ==== Sys2Proof/Machine/ResetOps.lean ====
section
/-! DEFINITION. Resets (R514 to R525, R544): their trigger, fencing and draining, what each level loses, and what follows one
that misses its time. -/
namespace Sys2Proof.Machine

/-! The reset domains. -/

/-- The number of a reset state in FXG_RST_STAT.STATE (R544). -/
def ResetSt.code : ResetSt → Nat
  | .fencing => 1 | .draining => 2 | .resetting => 3 | .held => 4

/-- Whether a level and target name a reset domain (R514, R515). -/
def State.resetTarget (s : State) (level target : Nat) : Bool :=
  if level = 0 then decide (target < 8 * s.numClusters) || (decide (1056 ≤ target) && decide (target ≤ 1087)) ||
    (decide (0x800 ≤ target) && decide (target ≤ 0x807))
  else if level = 1 then decide (target < s.numClusters) || (decide (0x100 ≤ target) && decide (target < 0x100 + 192)) ||
    (decide (0x200 ≤ target) && decide (target < 0x300) && queueKind ((target - 0x200) % 64) != 0)
  else if level = 2 then decide (1 ≤ target) && decide (target ≤ 63)
  else decide (level ≤ 4) && target == 0

/-- Whether the domain of a level and target lies inside another, or is it (R514, R522): a context inside its cluster, or
inside the partition whose step its cluster runs, or whose ring it serves; everything inside the chip. -/
def State.resetInside (s : State) (l t l' t' : Nat) : Bool :=
  (l == l' && t == t') || (decide (3 ≤ l') && decide (l ≤ l')) ||
  (l == 0 && l' == 1 && decide (t < 1024) && t / 8 == t') ||
  (l == 0 && l' == 2 && decide (t < 1024) && (match s.physCluster (t / 8) with
    | none => false
    | some p => (s.holder p).any (fun r => r.part == t'))) ||
  (l == 0 && l' == 2 && decide (1056 ≤ t) && decide (t ≤ 1087) && s.cmds.any (fun c => 1056 + c.ring % 32 == t) &&
    s.cmds.all (fun c => 1056 + c.ring % 32 != t || c.part == t'))

/-- FXG_RST_STAT describes the reset that changed state last (R544), and the change raises a STATE event (R519). -/
def State.showReset (s : State) (r : ResetRec) (old new_ result : Nat) : State :=
  let d := R.fxgRstStat
  let s := ((((s.setFld d 31 [] 2 0 new_).setFld d 31 [] 5 3 r.level).setFld d 31 [] 19 6 r.target).setFld d 31 [] 23 20
    r.cause).setFld d 31 [] 25 24 result
  s.stateEvent (d.at 31 []) old new_

/-- The state with a reset's record replaced. -/
def State.setReset (s : State) (r : ResetRec) : State :=
  { s with resets := s.resets.map (fun x => if x.id = r.id then r else x) }

/-- The reset of a number that runs on its own and has not missed its time. -/
def State.resetOf (s : State) (id : Nat) : Option ResetRec :=
  s.resets.find? (fun r => r.id == id && r.under.isNone && !r.late)

/-- A reset moves to a state (R519). -/
def State.moveReset (s : State) (r : ResetRec) (st : ResetSt) : State :=
  (s.setReset { r with st := st }).showReset r r.st.code st.code 2

/-- FXG_RST_LAST (R534, R544): the cause of an L3 or L4 and LC at its trigger. -/
def State.lastReset (s : State) (level cause : Nat) : State :=
  if level < 3 then s
  else
    let d := R.fxgRstLast
    ((s.setFld d 31 [] 3 0 cause).setFld d 31 [] 4 4 (b2n (level == 4))).setFld d 31 [] 63 8 s.lc

/-- A running dump ends ABORTED (R531); the records already written stand. -/
def State.abortDump (s : State) : State :=
  if s.fld R.prmDumpStat 31 [] 1 0 = 1 then { s.setFld R.prmDumpStat 31 [] 1 0 3 with dump := none } else s

/-- A reset triggered (R519, R522, R526, R542): inside a domain already being reset it is absorbed; it takes over every
reset that its domain covers. An L3 or L4 ends a running dump and the debug grant (R531, R549). L4 sends PWRCYC_REQ and asserts PWRCYC_REQ_N. -/
def State.triggerReset (s : State) (level target cause : Nat) (hold : Bool) : State :=
  if s.resets.any (fun x => s.resetInside level target x.level x.target) then s
  else
    let id := s.nextReset
    let r : ResetRec := { id := id, level := level, target := target, hold := hold, cause := cause, trigLc := s.lc }
    let covered := s.resets.map (fun x => if s.resetInside x.level x.target level target then { x with under := some id } else x)
    let s := { s with resets := covered ++ [r], nextReset := id + 1 }
    let s := (s.bumpFld R.fxgRstStat 31 [] 63 32 1).lastReset level cause
    let s := if level = 1 ∧ target < s.numClusters then { s with suspFrozen := target :: s.suspFrozen } else s
    let s := if level = 4 then { s with pwrcyc := some cause } else s
    let s := if 3 ≤ level then s.abortDump.setFld R.prmDbgStat 31 [] 17 16 0 else s
    s.showReset r 0 1 2

/-! Fencing. -/

/-- The remote operations of a step's clusters complete FENCED at once; their later answers are discarded (R521). -/
def State.dropStepOps (s : State) (r : StepRec) : State :=
  { s with remote := s.remote.filter (fun (o : RemoteOp) => !(o.step == r.id && (match o.issuer with
      | .ctx (.cluster _) _ => true
      | _ => false))) }

/-- A step at the fence of its domain (R521, R554): one whose commit condition held commits; one that waits completes; any
other stops and will complete FENCED. -/
def State.fenceStep (s : State) (r : StepRec) : State :=
  match r.st with
  | .ended => s
  | .waiting => s.endStep r stFenced 0 0
  | _ =>
    if s.commitReady r && !r.replay then s.commitStep r
    else
      let cs := r.clusters.filter (fun p => !(r.aborted.contains p))
      let r := { r with st := .draining, clusters := cs, status := if r.st = .draining then r.status else stFenced }
      let s := (s.setStep r).dropStepOps r
      cs.foldl (fun s p =>
        let s := s.resumeUnit (.cluster p)
        s.setSeq (.cluster p) { s.seq (.cluster p) with stopped := true, run := none }) s

/-- The steps of a list at their fence. -/
def State.fenceSteps (s : State) (p : StepRec → Bool) : State :=
  (s.steps.filter p).foldl (fun s r => match s.stepAt r.id with
    | none => s
    | some r => s.fenceStep r) s

/-- The fetched commands that a test picks complete FENCED (R517, R520, R521); a step that waits or runs ends by itself. -/
def State.fenceCmds (s : State) (p : Cmd → Bool) : State :=
  (s.cmds.filter p).foldl (fun s c =>
    if c.field 0 1 = 1 then (if c.started then s else s.endCmdStep c stFenced)
    else
      let s := { s with remote := s.remote.filter (fun (o : RemoteOp) => match o.issuer with
        | .ring _ x => x != c.id
        | _ => true) }
      s.finishCmd c stFenced 0 0 0 0) s

/-- Every job of an engine queue ends FENCED, the running one first (R309, R521). -/
def State.fenceQueue (s : State) (i q : Nat) : Nat → State
  | 0 => s
  | n + 1 =>
    let e := s.engq i q
    let job := match e.running with
      | some j => some (j, e.jobs)
      | none => match e.jobs with
        | [] => none
        | j :: t => some (j, t)
    match job with
    | none => s
    | some (j, t) =>
      let s := s.store (j.desc + 8) (leBytes 8 (stFenced + 2 ^ 15))
      let s := s.setEngq i q { e with running := none, out := none, bytes := [], jobs := t, done := satAdd e.done 1 (2 ^ 32 - 1) }
      (s.sendToken j.token (0x400 + j.core) 0 true).fenceQueue i q n

/-- An Iris core stops (R517, R521, R554). -/
def State.fenceCore (s : State) (n : Nat) : State :=
  let u := SeqUnit.iris n
  let s := s.resumeUnit u
  let s := s.setSeq u { s.seq u with stopped := true, run := none }
  { s with remote := s.remote.filter (fun (o : RemoteOp) => !(o.ofUnit u)) }

/-- A tier-DMA engine gives up its descriptor and stops with HEAD at it (R517). -/
def State.fenceTier (s : State) (e : Nat) : State := ({ s with tier := s.tier.del e }).stopTier e

/-- Every remote operation of the device completes FENCED (R534). -/
def State.fenceRemote (s : State) : State := { s with remote := [], localReqs := [], localReps := [] }

/-- The work of a domain at its fence (R517, R521). -/
def State.fenceWork (s : State) (level target : Nat) : State :=
  if level = 0 then
    if target < 1024 then
      match s.physCluster (target / 8) with
      | none => s
      | some p => s.fenceSteps (fun r => (s.holder p).any (fun h => h.id == r.id))
    else if target < 1088 then s.fenceCmds (fun c => c.field 0 1 == 3 && 1056 + c.ring % 32 == target)
    else s.fenceTier (target - 0x800)
  else if level = 1 then
    if target < 128 then
      match s.physCluster target with
      | none => s
      | some p => s.fenceSteps (fun r => (s.holder p).any (fun h => h.id == r.id))
    else if target < 0x200 then s.fenceCore (target - 0x100)
    else s.fenceQueue ((target - 0x200) / 64) ((target - 0x200) % 64) 17
  else if level = 2 then (s.fenceSteps (fun r => r.part == target && !r.replay)).fenceCmds (fun c => c.part == target)
  else
    let s := (s.fenceSteps (fun _ => true)).fenceCmds (fun _ => true)
    let s := (List.range 192).foldl (fun s n => s.fenceCore n) s
    let s := s.eng.foldl (fun s e => s.fenceQueue (e.1 / 64) (e.1 % 64) 17) s
    { s.fenceRemote with tier := [] }

/-- FENCING ends (R519 to R521): every path into the domain refuses, and its work is ended. -/
def State.endFencing (s : State) (r : ResetRec) : State :=
  (s.moveReset r .draining).fenceWork r.level r.target

/-! Draining. -/

/-- Whether a step belongs to the work of a domain. -/
def State.stepInDomain (s : State) (level target : Nat) (r : StepRec) : Bool :=
  if level = 0 then decide (target < 1024) && (match s.physCluster (target / 8) with
    | none => false
    | some p => r.clusters.contains p)
  else if level = 1 then (match s.physCluster target with
    | none => false
    | some p => decide (target < 128) && r.clusters.contains p)
  else if level = 2 then r.part == target && !r.replay
  else true

/-- A draining step of a domain ends if its operations have (R521). A replay goes without a completion. -/
def State.drainStep (s : State) (r : StepRec) : State := if r.st != .draining then s else s.endDrained r

/-- The links and the fronthaul ports go DOWN as the chip resets (R534). -/
def State.dropLinks (s : State) : State :=
  let s := (List.range 32).foldl (fun s i => if s.linkSt (22 + i / 8) (i % 8) = 0 then s else s.linkDown (22 + i / 8) (i % 8)) s
  (List.range 32).foldl (fun s i =>
    if s.portOn (i / 16) (i % 16) && s.portUp (i / 16) (i % 16) then
      (s.setPortLanes (i / 16) (i % 16) 0).linkEvent (20 + i / 16) (i % 16) 0
    else s) s

/-- Every unit's transfers and results that end by themselves land. -/
def State.drainCore (s : State) (n : Nat) : State :=
  let u := SeqUnit.iris n
  match ((s.seq u).pend.map Pend.due).max? with
  | none => s
  | some t => s.settle u t

/-- DRAINING ends once all work has ended (R519): the domain is held, or its state is reset. -/
def State.endDraining (s : State) (r : ResetRec) : State :=
  let s := (s.steps.filter (s.stepInDomain r.level r.target)).foldl (fun s x => match s.stepAt x.id with
    | none => s
    | some x => s.drainStep x) s
  let s := if r.level = 1 ∧ 0x100 ≤ r.target ∧ r.target < 0x200 then s.drainCore (r.target - 0x100) else s
  if s.steps.any (fun x => s.stepInDomain r.level r.target x && x.st == .draining) then s
  else
    let s := if 3 ≤ r.level then s.dropLinks else s
    if r.hold then (s.moveReset r .held).setReset { r with st := .held, heldFrom := s.lc }
    else
      let s := if r.level = 3 then s.setFld R.prmBootStat 0 [] 2 0 0 else s
      s.moveReset r .resetting

/-! What a level loses. -/

/-- The registers of a cluster block that L1 resets (R126, R137, R209, R287, R476, R517, R571); all but the debug ones are
state of the sequencer itself. -/
def State.clearClusterRegs (s : State) (p : Nat) : State :=
  { s with regs := s.regs.keep (fun k =>
      match keyReg k with
      | none => true
      | some (x, r, ix) => !(x == p / 8 && ix.headD 99 == p % 8 && r.dims.headD (0, 0) == (8, 0x1000) &&
          ["DHL_CTX_ARITH", "DHL_CTX_AFLAGS", "DHL_DBG_BP"].contains r.name)) }

/-- L1 of a Dahlia cluster (R517): its contexts, tokens, streams, accumulators, instruction memory and counters go; the row
map, retirements and withdrawal stay. -/
def State.resetCluster (s : State) (p : Nat) : State :=
  let u := SeqUnit.cluster p
  let q := s.seq u
  let s := (s.release p).deadTokens p
  (s.setSeq u { rowMap := q.rowMap, spareUsed := q.spareUsed, retiredPhys := q.retiredPhys }).clearClusterRegs p

/-- L1 of an Iris core (R517): its image and contexts go, OVR stays. -/
def State.resetCore (s : State) (n : Nat) : State :=
  let s := (s.setSeq (.iris n) {}).setImg (n / 48) (n % 48) 0
  { s with regs := s.regs.keep (fun k =>
      match keyReg k with
      | none => true
      | some (x, r, ix) => !(x == 16 + n / 48 && ix.headD 99 == n % 48 && r.name == "IRS_DBG_BP")) }

/-- L1 of an Iris engine queue (R517): its engine state goes. -/
def State.resetQueue (s : State) (i q : Nat) : State := s.setEngq i q {}

/-- The ring that a key of the register table belongs to: one of PRM_RING_CFG, or of the ring registers in BAR0. -/
def keyRing (k : Nat) : Option Nat :=
  let cfg := R.prmRingCfg.at 31 [0]
  let sq := barBase + R.prmRingSq.off
  if cfg ≤ k ∧ k < cfg + 0x100000 then some ((k - cfg) / 32)
  else if sq ≤ k ∧ k < sq + 0x100000 then some ((k - sq) / 32)
  else none

/-- One ring loses EN and its registers (R484, R517). -/
def State.resetRing (s : State) (r : Nat) : State :=
  let s := (s.setFld R.prmRingCfg 31 [r] 0 0 0).setFld R.prmRingCfg 31 [r] 16 16 0
  { s with
    regs := s.regs.outside (R.prmRingSq.at 0 [r]) 32, rings := s.rings.del r
    held := s.held.filter (fun h => h.by_ != .ring r) }

/-- The rings of a partition lose EN and their registers (R517). A ring that nothing lists has both at reset. -/
def State.resetRings (s : State) (part : Nat) : State :=
  let rs := s.regs.filterMap (fun e => keyRing e.1) ++ s.rings.map (fun e => e.1)
  (rs.filter (fun r => s.ringPart r == part)).foldl (fun s r => s.resetRing r) s

/-- A function's block in BAR0 takes its reset values: its registers, its mailbox, its MSI-X table and its event ring
(R484, R517). -/
def State.resetFn (s : State) (n : Nat) : State :=
  let lo := fnBase + n * 0x100000
  { s with regs := s.regs.outside lo 0x100000, evt := s.evt.del n }

/-- The counters of a partition (R289, R517). -/
def State.resetCounters (s : State) (p : Nat) : State :=
  [R.fxgPtDecl, R.fxgPtTime, R.fxgPtStretch, R.fxgPtConflict, R.fxgPtHbm, R.fxgPtWait, R.fxgPtSaved, R.fxgPtAbortCyc,
    R.fxgPtCounts, R.fxgPtNdet].foldl (fun s r => s.setReg r 31 [p] 0) s

/-- L2 of partition n (R517). -/
def State.resetPartition (s : State) (n : Nat) : State :=
  let s := ((s.resetRings n).resetFn n).resetCounters n
  { s with wsets := s.wsets.filter (fun e => e.2.owner != n) }

/-- Whether L3 loses a register of domains 54 to 59 (R289, R384, R463, R475, R517, R518, R525): gate lists, change sets,
epochs, partition settings, rings, event rings, lock-step, and what the functions of the partitions hold. -/
def lostAtChip (k : Nat) : Bool :=
  if k < winBase then false
  else match keyReg k with
    | some (_, r, _) => ["FXG_EPOCH", "FXG_GATE", "FXG_GATE_START", "FXG_GATE_COUNT", "FXG_CHANGE", "FXG_CL_STATE", "FXG_CL_EDGE",
        "FXG_PT_CFG", "FXG_PT_DECL", "FXG_PT_TIME", "FXG_PT_STRETCH", "FXG_PT_CONFLICT", "FXG_PT_HBM", "FXG_PT_WAIT",
        "FXG_PT_SAVED", "FXG_PT_ABORT_CYC", "FXG_PT_COUNTS", "FXG_PT_NDET", "FXG_ADMIN_LIST", "FXG_OPER_LIST",
        "PRM_FXG_STAGE_LIST", "PRM_FXG_STAGE_HDR0", "PRM_FXG_STAGE_HDR1", "PRM_FXG_STAGE_MASK", "PRM_FXG_STAGE_CFG",
        "PRM_FXG_STAGE_PT", "PRM_FXG_STAGE_REC", "PRM_ASIG0", "PRM_ASIG1", "PRM_LS_CFG", "PRM_LS_PEER", "PRM_LS_INBOX",
        "PRM_LS_STAT", "PRM_LS_SEQ", "PRM_RING_CFG", "PRM_RING_SHP", "PRM_RING_SHP_CREDIT", "PRM_PWR_CFG"].contains r.name
    | none =>
      if barBase ≤ k then true
      else
        let o := (k - fnBase) % 0x100000
        decide (fnBase + 0x100000 ≤ k) || (decide (0x40 ≤ o) && decide (o < 0x60)) || o == R.prmBootStat.off || o == R.prmSecStat.off

/-- What is left of the device's own state besides registers once everything is lost (R517): LC and the time bases, the
identity, the lands, host memory, the debug port, and what the model keeps for itself. -/
def State.bare (s : State) : State :=
  { pending := s.pending, free := s.free, ident := s.ident, lc := s.lc, tb := s.tb, ofs := s.ofs, ofsStep := s.ofsStep
    syncLc := s.syncLc, alignPend := s.alignPend, replicas := s.replicas, regs := s.regs, host := s.host
    nextOp := s.nextOp, nextStep := s.nextStep, resets := s.resets, nextReset := s.nextReset, nextCmd := s.nextCmd
    tc := s.tc, trc := s.trc, pmuLc := s.pmuLc, twLast := s.twLast, msix := s.msix, hbLc := s.hbLc, pwrcyc := s.pwrcyc
    porLow := s.porLow, perstLow := s.perstLow, thermtrip := s.thermtrip, perstReset := s.perstReset, sensed := s.sensed
    boots := s.boots, tapIr := s.tapIr, authOfs := s.authOfs, power := s.power
    ansStatus := s.ansStatus, ansData := s.ansData }

/-- L3 (R517, R518, R525, R531, R549, R560, R576): every domain below 54 goes OFF, children before parents, and what domains 54
to 59 lose is lost; a running dump ends ABORTED; the heartbeat watchdog is off; a global stop and the debug grant end; after an
assertion of PERST# the PCIe and security domain is reset too (R516); the device awaits its image once PERST# is deasserted. -/
def State.chipReset (s : State) : State :=
  let s := (List.range 54).foldl (fun s i => (s.loseDomain (53 - i)).setPd (53 - i) 0) s
  let s := s.abortDump
  let s := { s with regs := s.regs.keep (fun k => !(lostAtChip k)) }.bare
  let s := s.setFld R.prmWdogCfg 31 [] 14 14 0
  let s := s.setReg R.prmReplayStat 31 [] 0
  let s := { s with tc := s.tc.keep (fun k => !(lostAtChip k)) }
  let s := ((s.setFld R.prmDbgStat 31 [] 1 1 0).setFld R.prmDbgStat 31 [] 4 2 0).setFld R.prmDbgStat 31 [] 17 16 0
  let s : State := if s.perstReset then { s.loseDomain 57 with perstReset := false } else s
  (s.setFld R.prmBootStat 0 [] 2 0 (if s.perstLow then 0 else 1)).setFld R.fxgRstStat 31 [] 63 32 0

/-- The state of a domain reset as its level gives (R517). -/
def State.resetDomain (s : State) (level target : Nat) : State :=
  if level = 0 then s
  else if level = 1 then
    if target < 128 then
      match s.physCluster target with
      | none => s
      | some p => s.resetCluster p
    else if target < 0x200 then s.resetCore (target - 0x100)
    else s.resetQueue ((target - 0x200) / 64) ((target - 0x200) % 64)
  else if level = 2 then s.resetPartition target
  else s.chipReset

/-- A reset is done (R517, R519): its domain, and those it took over, return to IDLE. L4 ends only with the supplies. -/
def State.endReset (s : State) (r : ResetRec) : State :=
  if r.level ≥ 4 then s
  else
    let s := s.resetDomain r.level r.target
    let s := { s with resets := s.resets.filter (fun x => x.id != r.id && x.under != some r.id) }
    s.showReset r 3 0 0

/-! Escalation. -/

/-- The LC ticks within which a level completes (R514). -/
def resetTime (level : Nat) : Nat :=
  if level = 0 then 20000 else if level = 1 then 200000 else if level = 2 then 5000000 else if level = 3 then 400000000 else 1000000

/-- A unit withdrawn until L3 (R523): a cluster as R44 gives; a core shows EMPTY; a queue reads KIND 0. -/
def State.withdrawUnit (s : State) (target : Nat) : State :=
  if target < 128 then
    match s.physCluster target with
    | none => s
    | some p => s.withdraw p
  else
    let s := { s with deadUnits := target :: s.deadUnits }
    if target < 0x200 then s.setImg ((target - 0x100) / 48) ((target - 0x100) % 48) 0 else s

/-- The tenant partition whose work a unit held at a timed-out L1 (R523). -/
def State.heldTenant (s : State) (target : Nat) : Option Nat :=
  if target < 128 then
    match s.physCluster target with
    | none => none
    | some p => match s.holder p with
      | none => none
      | some r => if r.part = 0 then none else some r.part
  else none

/-- A reset that misses its time escalates (R523). -/
def State.escalate (s : State) (r : ResetRec) : State :=
  let s := s.advanceTo (r.trigLc + resetTime r.level + r.heldTicks)
  let s := (s.setReset { r with late := true }).setFld R.fxgRstStat 31 [] 25 24 1
  if r.level = 0 then
    if r.target < 1024 then s.triggerReset 1 (r.target / 8) 6 false else s.triggerReset 3 0 6 false
  else if r.level = 1 then
    let t := s.heldTenant r.target
    let s := s.withdrawUnit r.target
    match t with
    | none => s
    | some n => s.triggerReset 2 n 6 false
  else if r.level = 2 then s.triggerReset 3 0 6 false
  else s.triggerReset 4 0 6 false

end Sys2Proof.Machine
end

