-- ==== Sys2Proof/Machine/SecOps.lean ====
section
/-! DEFINITION. Boot (R502 to R504), the life cycle (R505, R506), tamper events (R507), attestation (R508, R509), PERST# and
POR_N (R516, R576, R584), and function-level reset (R484). -/
namespace Sys2Proof.Machine

/-! Keys. -/

/-- The fused key hashes that a life-cycle state admits (R505). -/
def Ident.admitted (i : Ident) : List (List Byte) :=
  match i.lcState with
  | 0 => [i.keyMfg]
  | 1 => [i.keyTest]
  | 2 => [i.keyVendor, i.keyOwner]
  | 3 => [i.keyVendor, i.keyOwner]
  | _ => []

/-! Tamper. -/

/-- A wipe cause sent to every enabled Dahlia die whose sequencer-and-scratchpad domain is ON (R228). -/
def State.wipeAll (s : State) (cause : Nat) : State :=
  { s with wipes := s.wipes ++ ((s.enabledDies.filter (fun d => s.pdOn (2 * d + 1))).map (fun d =>
      ({ die := d, cause := cause, slices := 255 } : WipeReq))) }

/-- The CAUSE bit of a tamper event (R511). -/
def tamperBit : TamperCause → Nat
  | .glitch => 0
  | .temperature => 1
  | .debug => 2

/-- A tamper event (R507): it latches, every step is fenced, the sealed regions are wiped, the SPDM session keys are erased,
fetching stops, and partition 0 gets a record. -/
def State.tamper (s : State) (c : TamperCause) : State :=
  let b := 1 + tamperBit c
  let s := (s.setFld R.prmSecStat 0 [] 0 0 1).setFld R.prmSecStat 0 [] b b 1
  let s := (s.fenceSteps (fun _ => true)).wipeAll 1
  let s := { s with spdm := { s.spdm with session := 0 }, tamperStop := true }
  s.emit 0 evTamper 0xFF (leBytes 4 (s.fld R.prmSecStat 0 [] 4 1))

/-! Boot. -/

/-- n bytes of the boot window (R481). -/
def State.bootBytes (s : State) (off n : Nat) : List Byte := (List.range n).map (fun i => s.bootWin.getD (off + i) 0)

/-- A field of the image header in the boot window (R503). -/
def State.bootNum (s : State) (off n : Nat) : Nat := leNat (s.bootBytes off n)

/-- The bytes of the header that both signatures are over (R504). -/
def State.bootSigned (s : State) : List Byte := s.bootBytes 0 0x40

/-- The checks of R504 in their order, each with its code. -/
def State.bootChecks (s : State) : List (Nat × Bool) :=
  let body := s.bootNum 0x00C 4
  let ed := s.bootBytes 0x040 32
  let ml := s.bootBytes 0x0A0 1952
  [(1, s.bootNum 0 4 != 0x56584657 || s.bootNum 4 2 != 1 || s.bootNum 0x01D 3 != 0 ||
      !((s.bootBytes 0x152D 211).all (fun b => b == 0))),
   (2, s.bootLen != 5632 + body || decide (body = 0) || decide (16771584 < body) ||
      decide (body < s.bootNum 0x010 4 + s.bootNum 0x014 4) || decide (body ≤ s.bootNum 0x018 4)),
   (3, sha3 (s.bootBytes 5632 (min body 16771584)) != s.bootBytes 0x020 32),
   (4, !(s.ident.admitted.contains (sha3 (ed ++ ml)))),
   (5, !(Config.ed25519Verify ed s.bootSigned (s.bootBytes 0x060 64))),
   (6, !(Config.mldsaVerify ml s.bootSigned (s.bootBytes 0x840 3309))),
   (7, decide (s.bootNum 0x008 4 < s.ident.svnMin)),
   (8, !(bitOf (s.bootNum 0x01C 1) s.ident.lcState))]

/-- PRM_BOOT_CMD written (R502, R511): GO starts verification in AWAIT_IMAGE only. -/
def State.writeBoot (s : State) (v : Word) : State :=
  if !(v.getLsbD 25) || s.bootState != 1 then s
  else { s.setFld R.prmBootStat 0 [] 2 0 2 with bootLen := getField v 24 0 }

/-- The device's arithmetic signature (R462, R463) of an image whose rounding tables and level are given. -/
def State.deviceSignature (s : State) (tables level : Nat) : Nat :=
  1 + s.numClusters * 2 ^ 16 + 2 ^ 24 + 0x0100 * 2 ^ 32 + tables % 2 ^ 32 * 2 ^ 48 + level % 2 ^ 16 * 2 ^ 80

/-- The firmware runs (R33, R463, R502): the arithmetic signature is fixed, Foxglove's limits are loaded, and the boot window
closes. -/
def State.release_ (s : State) : State :=
  let tabs := sha3 (s.bootBytes (5632 + s.bootNum 0x010 4) (s.bootNum 0x014 4))
  let sig := s.deviceSignature (leNat (tabs.take 4)) (s.bootNum 0x006 2)
  let hdr := s.bootBytes 0 5632
  let s := (s.setReg R.prmAsig0 31 [] (BitVec.ofNat 64 sig)).setReg R.prmAsig1 31 [] (BitVec.ofNat 64 (sig / 2 ^ 64))
  let s := (s.setFld R.fxgLim1 31 [] 39 32 s.ident.openShareMax).setFld R.fxgLim1 31 [] 47 40 s.ident.radioShareMin
  { s.setFld R.prmBootStat 0 [] 2 0 3 with bootWin := [], bootHdr := hdr, bootTabs := tabs, boots := s.boots + 1 }

/-- Verification ends (R504): RUNNING, or FAILED with ERR set and then AWAIT_IMAGE again. -/
def State.endBoot (s : State) : State :=
  if s.bootState ≠ 2 then s
  else
    let e := firstCode s.bootChecks
    if e = 0 then s.release_ else (s.setFld R.prmBootStat 0 [] 11 8 e).setFld R.prmBootStat 0 [] 2 0 1

/-- The device awaits its image (R502): the fuses are sensed, PERST# is deasserted, and no chip reset runs. -/
def State.awaitImage (s : State) : State :=
  if s.sensed && !s.perstLow && s.pdOn 57 && s.bootState == 0 && !(s.resets.any (fun r => decide (3 ≤ r.level))) then
    s.setFld R.prmBootStat 0 [] 2 0 1
  else s

/-! Lands. -/

/-- PERST# asserted (R516): L3, and the PCIe and security domain is also reset. -/
def State.perst (s : State) : State := { s with perstLow := true, perstReset := true }.triggerReset 3 0 8 false

/-- POR_N low (R576, R584): every domain is reset and OFF, and THERMTRIP_N and PWRCYC_REQ_N are released. The fuses and host
memory stay. -/
def State.powerDown (s : State) : State :=
  let t : State := { pending := s.pending, free := s.free, ident := s.ident, host := s.host, perstLow := s.perstLow, porLow := true }
  [54, 55, 56, 57, 58, 59].foldl (fun t n => t.setPd n 0) t

/-- POR_N deasserted (R576): the ROM switches on domains 54, 55, 58, 59, 57 and 56 in that order. -/
def State.powerUp (s : State) : State :=
  if !s.porLow then s
  else [54, 55, 58, 59, 57, 56].foldl (fun s n => (s.setPd n 1).enterDomain n) { s with porLow := false }

/-! Life cycle. -/

/-- Whether the life-cycle table allows a transition (R6, R505). -/
def State.lcAllowed (s : State) (t : Nat) : Bool :=
  decide (s.ident.lcState < t) && decide (t ≤ 4) && !(t == 3 && !s.ident.b0)

/-- The state of the life cycle programmed (R506): entry to PROVISIONED generates the identity keys, RETIRED erases them. -/
def State.programLc (s : State) (t : Nat) : State :=
  let d := s.draw
  let keys := if t = 4 then none else if 2 ≤ t ∧ s.ident.idKeys.isNone then some d.1 else s.ident.idKeys
  let old := s.ident.lcState
  let s : State := if t = 4 then s else d.2
  ({ s with ident := { s.ident with lcState := t, idKeys := keys } }).stateEvent (R.prmLcCmd.at 31 []) old t

/-- PRM_LC_CMD written (R506): an authorised request fences every step, wipes the sealed regions, programs the fuse word and
begins a chip reset; the debug grant ends (R549). Any other is refused. -/
def State.writeLc (s : State) (m : Master) (v : Word) : State :=
  let t := getField v 2 0
  let a := getField v 50 3
  if !(v.getLsbD 51) then s
  else if !(s.lcAllowed t) || !(Config.lcAuthorised s.ident.admitted s.ident.uid t (fun i => s.byte (a + i))) then
    s.refuseReg m R.prmLcCmd 31 [] v
  else
    let s := ((s.fenceSteps (fun _ => true)).wipeAll 2).programLc t
    (s.setFld R.prmDbgStat 31 [] 17 16 0).triggerReset 3 0 7 false

/-! Function-level reset. -/

/-- FLR of VF n (R484, R516). -/
def State.flrVf (s : State) (n : Nat) : State :=
  if decide (1 ≤ n) && s.fnPresent n then s.triggerReset 2 n 1 false else s

/-- FLR of the PF (R484): its function block, its rings and its event ring; what the device shows of boot and tamper stays. The
commands that it had fetched go with their rings. -/
def State.flrPf (s : State) : State :=
  if !(s.fnPresent 0) then s
  else
    let boot := s.reg R.prmBootStat 0 []
    let sec := s.reg R.prmSecStat 0 []
    let s := (s.resetRings 0).resetFn 0
    let s := { s with
      cmds := s.cmds.filter (fun c => s.ringPart c.ring != 0)
      steps := s.steps.map (fun (r : StepRec) => if r.part = 0 ∧ !r.replay then { r with cmd := none } else r) }
    (s.setReg R.prmBootStat 0 [] boot).setReg R.prmSecStat 0 [] sec

/-! Attestation. -/

/-- The SPDM responder's answer recorded (R508). -/
def State.spdmReply (s : State) (r : SpdmReply) : State := { s with spdm := { s.spdm with reply := r } }

/-- Whether the responder is there: control firmware runs, the PF is present, and the connection has come so far. -/
def State.spdmAt (s : State) (phase : Nat) : Bool := s.bootState == 3 && s.fnPresent 0 && decide (phase ≤ s.spdm.phase)

/-- The certificate slots that the connection's version has (R508). -/
def State.spdmSlots (s : State) : List Nat := if s.spdm.v14 then [0, 1] else [0]

/-- Measurement block i (R508): ROM, firmware header digest, rounding tables, life-cycle state and fused SVN, arithmetic
signature, enabled-die map and grade. The measurement of the ROM is a value that the spec leaves open. -/
def State.measurement (s : State) (i : Nat) : List Byte :=
  match i with
  | 1 => Config.spdmData 0
  | 2 => sha3 s.bootHdr
  | 3 => s.bootTabs
  | 4 => leBytes 1 s.ident.lcState ++ leBytes 4 s.ident.svnMin
  | 5 => leBytes 16 s.signature
  | _ => leBytes 4 (((List.range 32).filter s.dieOn).map (fun d => 2 ^ d)).sum ++ leBytes 1 (b2n s.ident.vx3214)

/-- Measurements 1 to 6, or the one that a request names (R508). -/
def State.measurementsFor (s : State) (i : Nat) : List (Nat × List Byte) :=
  ([1, 2, 3, 4, 5, 6].filter (fun j => i == 0xFF || i == j)).map (fun j => (j, s.measurement j))

/-- A signature by the identity key of a slot (R506, R508); none where no identity key is present. -/
def State.idSign (s : State) (slot : Nat) (msg : List Byte) : Option (List Byte) :=
  s.ident.idKeys.map (fun k => Config.deviceSign k slot msg)

/-- GET_VERSION: a connection starts. -/
def State.spdmVersion (s : State) : State :=
  if !(s.spdmAt 0) then s else { s with spdm := { phase := 1, reply := .version } }

/-- GET_CAPABILITIES under version 1.4 or 1.3. -/
def State.spdmCapabilities (s : State) (v14 : Bool) : State :=
  if !(s.spdmAt 0) then s
  else if s.spdm.phase < 1 then s.spdmReply .error
  else { s with spdm := { s.spdm with phase := 2, v14 := v14, reply := .capabilities } }

/-- NEGOTIATE_ALGORITHMS: the hash is SHA3-256. -/
def State.spdmAlgorithms (s : State) (sha3Offered : Bool) : State :=
  if !(s.spdmAt 0) then s
  else if s.spdm.phase < 2 || !sha3Offered then s.spdmReply .error
  else { s with spdm := { s.spdm with phase := 3, reply := .algorithms } }

/-- A request that needs a negotiated connection. -/
def State.spdmNegotiated (s : State) (k : State → State) : State :=
  if !(s.spdmAt 0) then s else if s.spdm.phase < 3 then s.spdmReply .error else k s

/-- GET_DIGESTS: the digests of the chains of the slots that the version has. -/
def State.spdmDigests (s : State) : State :=
  s.spdmNegotiated (fun s => s.spdmReply (.digests s.spdmSlots
    ((s.spdmSlots.map (fun x => sha3 (Config.certChain s.boots x))).flatten)))

/-- GET_CERTIFICATE: the chain of slot 0 or 1. -/
def State.spdmCertificate (s : State) (slot : Nat) : State :=
  s.spdmNegotiated (fun s =>
    if s.spdmSlots.contains slot then s.spdmReply (.certificate slot (Config.certChain s.boots slot)) else s.spdmReply .error)

/-- CHALLENGE (R509): the nonce and the measurements signed with the slot's key. -/
def State.spdmChallenge (s : State) (slot : Nat) (nonce : List Byte) : State :=
  s.spdmNegotiated (fun s =>
    if !(s.spdmSlots.contains slot) then s.spdmReply .error
    else match s.idSign slot (nonce ++ ((s.measurementsFor 0xFF).map (fun x => x.2)).flatten) with
      | none => s.spdmReply .error
      | some sig => s.spdmReply (.challengeAuth slot nonce sig))

/-- GET_MEASUREMENTS: all blocks (0xFF) or one, signed with a slot's key where that is asked for. -/
def State.spdmMeasurements (s : State) (i : Nat) (slot : Option Nat) : State :=
  s.spdmNegotiated (fun s =>
    let bl := s.measurementsFor i
    if bl.isEmpty then s.spdmReply .error
    else match slot with
      | none => s.spdmReply (.measurements bl [])
      | some x =>
        if !(s.spdmSlots.contains x) then s.spdmReply .error
        else match s.idSign x ((bl.map (fun b => b.2)).flatten) with
          | none => s.spdmReply .error
          | some sig => s.spdmReply (.measurements bl sig))

/-- KEY_EXCHANGE: a session begins its handshake. -/
def State.spdmKeyExchange (s : State) (slot : Nat) : State :=
  s.spdmNegotiated (fun s =>
    if !(s.spdmSlots.contains slot) || s.spdm.session != 0 || s.ident.idKeys.isNone then s.spdmReply .error
    else
      let d := s.draw
      { d.2 with spdm := { d.2.spdm with session := 1, reply := .keyExchange slot (Config.spdmData d.1) } })

/-- FINISH: the session is established. -/
def State.spdmFinish (s : State) : State :=
  s.spdmNegotiated (fun s =>
    if s.spdm.session ≠ 1 then s.spdmReply .error else { s with spdm := { s.spdm with session := 2, reply := .finish } })

/-- END_SESSION: the session ends. -/
def State.spdmEnd (s : State) : State :=
  s.spdmNegotiated (fun s =>
    if s.spdm.session ≠ 2 then s.spdmReply .error else { s with spdm := { s.spdm with session := 0, reply := .endSession } })

end Sys2Proof.Machine
end

