-- ==== Sys2Proof/Machine/Boot.lean ====
section
/-! DEFINITION. The meanings of the boot, life-cycle, tamper, attestation, function-reset and reset-land rows (R484, R502 to
R509, R516, R576). -/
namespace Sys2Proof.Machine

/-- FLR_VF (R484): function-level reset of VF n. -/
def execFlrVf (n : Nat) (s : State) : Host.Outcome State Fault Refusal := .next (s.flrVf n)

/-- FLR_PF (R484): function-level reset of the PF. -/
def execFlrPf (s : State) : Host.Outcome State Fault Refusal := .next s.flrPf

/-- POWER_GOOD (R502): the fuses are sensed. -/
def execPowerGood (s : State) : Host.Outcome State Fault Refusal :=
  if s.porLow then .next s else .next ({ s with sensed := true }.awaitImage)

/-- POR_ASSERT (R584): POR_N goes low. -/
def execPorAssert (s : State) : Host.Outcome State Fault Refusal := .next s.powerDown

/-- POR_DEASSERT (R576): POR_N goes high. -/
def execPorDeassert (s : State) : Host.Outcome State Fault Refusal := .next s.powerUp

/-- PERST_ASSERT (R516): PERST# goes low. -/
def execPerstAssert (s : State) : Host.Outcome State Fault Refusal := if s.perstLow then .next s else .next s.perst

/-- PERST_DEASSERT (R502): PERST# goes high, and the PF reaches AWAIT_IMAGE. -/
def execPerstDeassert (s : State) : Host.Outcome State Fault Refusal := .next ({ s with perstLow := false }.awaitImage)

/-- BOOT_GO (R502): the PF writes PRM_BOOT_CMD with GO. -/
def execBootGo (v : BitVec 64) (s : State) : Host.Outcome State Fault Refusal :=
  if s.fnPresent 0 then .next ((s.writeBoot (v ||| 0x2000000)).answer stOK []) else .next (s.answer stNoUnit [])

/-- BOOT_VERIFY_DONE (R504): verification ends. -/
def execBootVerifyDone (s : State) : Host.Outcome State Fault Refusal := .next s.endBoot

/-- LC_TRANSITION (R506): PRM_LC_CMD written with GO. -/
def execLcTransition (m : Master) (v : BitVec 64) (s : State) : Host.Outcome State Fault Refusal :=
  .next (s.guardWrite m R.prmLcCmd 31 [] (fun s => s.writeLc m (v ||| 0x8000000000000)))

/-- TAMPER_EVENT (R507): a glitch, a temperature outside its range, or a refused debug access. -/
def execTamperEvent (c : TamperCause) (s : State) : Host.Outcome State Fault Refusal := .next (s.tamper c)

/-- SPDM_GET_VERSION (R508). -/
def execSpdmGetVersion (s : State) : Host.Outcome State Fault Refusal := .next s.spdmVersion

/-- SPDM_GET_CAPABILITIES (R508): under version 1.4, or 1.3. -/
def execSpdmGetCapabilities (v14 : Bool) (s : State) : Host.Outcome State Fault Refusal := .next (s.spdmCapabilities v14)

/-- SPDM_NEGOTIATE_ALGORITHMS (R508): whether the requester offers SHA3-256. -/
def execSpdmNegotiateAlgorithms (sha3Offered : Bool) (s : State) : Host.Outcome State Fault Refusal :=
  .next (s.spdmAlgorithms sha3Offered)

/-- SPDM_GET_DIGESTS (R508). -/
def execSpdmGetDigests (s : State) : Host.Outcome State Fault Refusal := .next s.spdmDigests

/-- SPDM_GET_CERTIFICATE (R508): the chain of a slot. -/
def execSpdmGetCertificate (slot : Nat) (s : State) : Host.Outcome State Fault Refusal := .next (s.spdmCertificate slot)

/-- SPDM_CHALLENGE (R508, R509): a slot and a nonce. -/
def execSpdmChallenge (slot : Nat) (nonce : List (BitVec 8)) (s : State) : Host.Outcome State Fault Refusal :=
  .next (s.spdmChallenge slot nonce)

/-- SPDM_GET_MEASUREMENTS (R508): block i, or all for 0xFF; the slot that signs, if a signature is asked for. -/
def execSpdmGetMeasurements (i : Nat) (slot : Option Nat) (s : State) : Host.Outcome State Fault Refusal :=
  .next (s.spdmMeasurements i slot)

/-- SPDM_KEY_EXCHANGE (R508). -/
def execSpdmKeyExchange (slot : Nat) (s : State) : Host.Outcome State Fault Refusal := .next (s.spdmKeyExchange slot)

/-- SPDM_FINISH (R508). -/
def execSpdmFinish (s : State) : Host.Outcome State Fault Refusal := .next s.spdmFinish

/-- SPDM_END_SESSION (R508). -/
def execSpdmEndSession (s : State) : Host.Outcome State Fault Refusal := .next s.spdmEnd

end Sys2Proof.Machine
end

