-- ==== Sys2Proof/Machine/CrkFront.lean ====
section
/-! DEFINITION. The digital front end of the Crocus dies (R349 to R364): sample streams, paths, symbol marks, the AGC loop
with its freezes, and the offset loops. What the filters, the NCO and the rounding between stages make of a sample is a free
value: the spec gives their structure, not their bits. -/
namespace Sys2Proof.Machine

/-! Paths. -/

/-- CRK_PATH_CFG of a path. -/
def State.pathReg (s : State) (k p : Nat) : Word := s.reg R.crkPathCfg (20 + k) [p]

/-- What the die keeps of a path. -/
def State.path (s : State) (k p : Nat) : CrkPath := s.crkPaths.getD (1024 * k + p) {}

/-- The state with a path replaced. -/
def State.setPath (s : State) (k p : Nat) (x : CrkPath) : State := { s with crkPaths := s.crkPaths.put (1024 * k + p) x }

/-- The enabled paths of a flow: receive paths below 512, transmit paths from 512 on (R353). -/
def State.pathsOf (s : State) (k f : Nat) (tx : Bool) : List Nat :=
  ((List.range 512).map (fun i => if tx then 512 + i else i)).filter (fun p =>
    (s.pathReg k p).getLsbD 12 && getField (s.pathReg k p) 11 0 == f)

/-- A gain field of CRK_PATH_AGC: G at bits [15:0] or P at [31:16], signed. -/
def State.pathG (s : State) (k p : Nat) : Int := sext 16 (s.fld R.crkPathAgc (20 + k) [p] 15 0)

/-- FROZEN of a path (R359, R366). -/
def State.frozen (s : State) (k p : Nat) : Nat := s.fld R.crkPathAgc (20 + k) [p] 34 32

/-- Whether a path that takes u units may be enabled in entry p (R353). -/
def State.pathBad (s : State) (k p u : Nat) (w : Word) : Bool :=
  let tx := decide (512 ≤ p)
  let fl := s.flowReg k (getField w 11 0)
  (fl.getLsbD 1 != tx) || p % u != 0 || decide ((if tx then 1024 else 512) < p + u) ||
  (List.range 1024).any (fun i => i != p && (s.pathReg k i).getLsbD 12 && decide (i < p + u) && decide (p < i + (s.path k i).units))

/-- A write of CRK_PATH_CFG, for a path whose output rate takes u units (R353). -/
def State.writePath (s : State) (m : Master) (k p u : Nat) (v part : Word) : State :=
  let r := R.crkPathCfg
  let w := r.written (s.pathReg k p) v part false false
  if !(w.getLsbD 12) then (s.setReg r (20 + k) [p] w)
  else if s.pathBad k p u w then (s.setReg r (20 + k) [p] (setField w 12 12 0)).refuseReg m r (20 + k) [p] v
  else
    let fresh := !((s.pathReg k p).getLsbD 12)
    let s := s.setReg r (20 + k) [p] w
    if fresh then s.setPath k p { units := u } else s.setPath k p { s.path k p with units := u }

/-! Sample streams. -/

/-- The first 16 B of a sample stream's payload (R349): its bytes are good. -/
def streamOk (b : List Byte) : Bool :=
  let b1 := fieldOf b 1 1
  fieldOf b 0 1 == 1 && decide (bitsOf b1 5 2 ≤ 8) && decide (b1 < 64) && decide (1 ≤ fieldOf b 2 2) && decide (fieldOf b 2 2 ≤ 128) &&
  decide (fieldOf b 4 2 ≤ 14) && fieldOf b 6 2 == 0 &&
  decide (16 + 16 * fieldOf b 4 2 + fieldOf b 2 2 * (1 + 4 * wcWidth (bitsOf b1 1 0)) ≤ b.length)

/-- The instant of a sample of a stream, in nanoseconds (R349): the rate is 1.92 MS/s × 2^rate. -/
def sampleNs (rate i : Nat) : Int := ((i * 100000 / (192 * 2 ^ rate) : Nat) : Int)

/-- A control word reported by the radio unit (R351): what it applied. -/
def CrkPath.report (x : CrkPath) (w : Nat) : CrkPath :=
  { x with
    gain := if bitOf w 104 then bitsOf w 69 64 else x.gain
    fcorrIn := if bitOf w 105 then sext 20 (bitsOf w 91 72) else x.fcorrIn
    tcorrIn := if bitOf w 106 then sext 12 (bitsOf w 103 92) else x.tcorrIn
    shift := if bitOf w 106 then 0 else x.shift }

/-- A bit of FROZEN added to the mark of a symbol (R355). -/
def CrkPath.flagSym (x : CrkPath) (n bits : Nat) : CrkPath :=
  let y := x.syms.getD n {}
  { x with syms := x.syms.put n { y with frozen := Nat.lor y.frozen bits } }

/-- A received control word at every receive path of its flow (R351, R355): CLIP reports the preceding symbol. -/
def State.takeWord (s : State) (k f rate : Nat) (w : Nat) : State :=
  let n := symbolAt (s.flowMu k f) (sampleNs rate (bitsOf w 63 0))
  (s.pathsOf k f false).foldl (fun s p =>
    let x := (s.path k p).report w
    s.setPath k p (if bitOf w 107 then x.flagSym (n - 1) 8 else x)) s

/-- The output samples that a block of 16 samples from i on gives a path with D half-band stages (R353). -/
def outputsOf (i d : Nat) : List Nat := ((List.range 16).map (fun j => i + j)).filterMap (fun x => if x % 2 ^ d = 0 then some (x / 2 ^ d) else none)

/-- One output sample written into a path's window at i mod (length / 4), moved by the whole-sample shift (R353, R364); its
value is free. -/
def State.putSample (s : State) (k p iris rate : Nat) (i : Nat) : State :=
  let win := s.reg R.crkPathWin (20 + k) [p]
  let len := max 1 (getField win 43 25 * 16)
  let x := s.path k p
  let at_ := ((i + x.shift) % len).toNat
  let d := s.draw
  let dec := getField (s.pathReg k p) 15 13
  let n := symbolAt (s.flowMu k (getField (s.pathReg k p) 11 0)) (sampleNs rate (i * 2 ^ dec))
  let y := x.syms.getD n {}
  let s := d.2.crkStore k (irisBase iris + getField win 24 0 + 4 * at_) (leBytes 4 d.1)
  s.setPath k p { x with newest := max x.newest i, syms := x.syms.put n { y with samples := y.samples + 1 } }

/-- A sample block at one receive path (R350, R352, R353): late, or its samples written. The answer says if it was late. -/
def State.takeBlock (s : State) (k f rate i p : Nat) : Bool × State :=
  let w := s.pathReg k p
  let len := getField (s.reg R.crkPathWin (20 + k) [p]) 43 25 * 16
  let out := outputsOf i (getField w 15 13)
  let x := s.path k p
  if out.all (fun o => decide ((o : Int) + len < x.newest)) && !out.isEmpty then (true, s)
  else (false, out.foldl (fun s o => s.putSample k p (getField (s.flowReg k f) 51 50) rate o) s)

/-- A sample block of a stream (R350, R352): an exponent above 23 reads as zeros and is counted. -/
def State.takeBlocks (s : State) (k f rate i : Nat) (ex : Nat) : State :=
  let s := if 23 < ex then s.countFlow k f 48 1 else s
  let r := (s.pathsOf k f false).foldl (fun (a : Bool × State) p =>
    let b := a.2.takeBlock k f rate i p
    (a.1 || b.1, b.2)) (false, s)
  if r.1 then r.2.countFlow k f 0 1 else r.2

/-- A time-domain message of a flow (R349 to R353). -/
def State.takeStream (s : State) (k f : Nat) (m : EcpriMsg) : State :=
  let s := s.takeSeq k f m.seqId none
  let b := m.raw
  if m.bad || !(streamOk b) then s.countFlow k f 48 1
  else
    let rate := bitsOf (fieldOf b 1 1) 5 2
    let ncw := fieldOf b 4 2
    let size := 1 + 4 * wcWidth (bitsOf (fieldOf b 1 1) 1 0)
    let s := s.setFlow k f { s.flowOf k f with rate := rate }
    let s := (List.range ncw).foldl (fun s j => s.takeWord k f rate (fieldOf b (16 + 16 * j) 16)) s
    (List.range (fieldOf b 2 2)).foldl (fun s j =>
      s.takeBlocks k f rate (fieldOf b 8 8 + 16 * j) (fieldOf b (16 + 16 * ncw + size * j) 1)) s

/-- The header of a sample stream's frame that the device sends (R349). -/
def streamHeader (width rate ncw i : Nat) : List Byte :=
  leBytes 1 0x11 ++ leBytes 1 (width + 4 * rate) ++ leBytes 2 1 ++ leBytes 2 ncw ++ leBytes 2 0 ++ leBytes 8 i

/-- n free bytes. -/
def State.freeBytes (s : State) (n : Nat) : List Byte := (List.range n).map (fun i => BitVec.ofNat 8 (Config.freeValue (s.free + i)))

/-- A block of a transmit flow formed once every path of the flow has given its samples (R354): VBFP blocks of a single path
pass unchanged; any other block is free, its exponent at most 23. It leaves in a frame of its own with the control words of
its cell and stream. -/
def State.sendBlock (s : State) (k f rate : Nat) (own : List Byte) : State :=
  let w := s.flowReg k f
  let comp := getField w 63 61
  let code := if comp = 1 then 0 else if comp = 2 then 1 else if comp = 3 then 2 else 3
  let size := 1 + 4 * compWidth comp
  let free := s.freeBytes size
  let block := if own.isEmpty then BitVec.ofNat 8 ((free.headD 0).toNat % 24) :: free.tail else own
  let s := if own.isEmpty then { s with free := s.free + size } else s
  let mine (e : Nat × Nat × Nat) : Bool := e.1 == getField w 44 36 && e.2.1 == getField w 49 45
  let words := s.crkWords.getD k []
  let cw := (words.filter mine).take 14
  let s := { s with crkWords := s.crkWords.put k (words.filter (fun e => !(cw.contains e))) }
  let raw := streamHeader code rate cw.length (16 * (s.flowOf k f).blocks) ++ (cw.map (fun e => leBytes 16 e.2.2)).flatten ++ block
  let s := s.setFlow k f { s.flowOf k f with blocks := (s.flowOf k f).blocks + 1 }
  let q := s.nextSeq k f
  q.2.addTx k { lane := getField w 7 4, queue := 1, len := ecpriLen w (4 + raw.length), raw := raw, flow := some f, seq := q.1 }

/-- A transmit path gives the 16 samples of its next block (R354): `sat` parts of the sum saturated. -/
def State.txBlock (s : State) (k p rate sat : Nat) : State :=
  let w := s.pathReg k p
  let f := getField w 11 0
  if p < 512 || !(w.getLsbD 12) || !(s.pdOn (41 + 2 * k)) || (s.path k p).blocks != (s.flowOf k f).blocks ||
     !((s.flowReg k f).getLsbD 0) || getField (s.flowReg k f) 3 2 != 1 then s
  else
    let paths := s.pathsOf k f true
    let size := 1 + 4 * compWidth (getField (s.flowReg k f) 63 61)
    let win := s.reg R.crkPathWin (20 + k) [p]
    let len := max 1 (getField win 43 25 * 64)
    let a := irisBase (getField (s.flowReg k f) 51 50) + getField win 24 0
    let own := if paths.length = 1 ∧ w.getLsbD 23 ∧ getField w 15 13 = 0 then
      (List.range size).map (fun i => s.byte (a + ((s.path k p).blocks * size + i) % len)) else []
    let s := s.bumpFld R.crkPathAgc (20 + k) [paths.headD p] 47 35 sat
    let s := s.setPath k p { s.path k p with blocks := (s.path k p).blocks + 1 }
    if paths.all (fun x => decide ((s.flowOf k f).blocks < (s.path k x).blocks)) then s.sendBlock k f rate own else s

/-! The AGC loop. -/

/-- a / b rounded to nearest, ties away from zero (R357). -/
def roundAway (a : Int) (b : Nat) : Int := if 0 ≤ a then (2 * a + b) / (2 * b) else -((2 * (-a) + b) / (2 * b))

/-- A loop parameter of CRK_AGC_CFG. -/
def State.agc (s : State) (k hi lo : Nat) : Nat := s.fld R.crkAgcCfg (20 + k) [] hi lo

/-- A gain held to GMIN and GMAX (R366). -/
def clampGain (g : Int) : Int := max (-384) (min g 888)

/-- g for the next period while the path is not frozen (R357). -/
def State.nextGain (s : State) (k : Nat) (g P : Int) (C : Nat) : Int :=
  if s.agc k 43 36 < C then clampGain (g - s.agc k 19 12)
  else
    let d := roundAway ((sext 12 (s.agc k 11 0) - P - g) * s.agc k 27 20) 256
    clampGain (g + max (-192) (min d (s.agc k 35 28)))

/-- Whether a scheduled freeze entry holds in the period that starts at an instant (R359, R361). -/
def State.scheduled (s : State) (k p : Nat) (ns : Int) : Bool :=
  decide (p < 512) && (List.range 16).any (fun e =>
    let a := (s.reg R.crkFrz (20 + k) [p, 2 * e]).toInt
    let b := (s.reg R.crkFrz (20 + k) [p, 2 * e + 1]).toInt
    decide (a < b) && decide (a - 1000 ≤ ns) && decide (ns < b))

/-- A burst or preamble trigger after a frozen period (R361); it ends after HOLD quiet periods or 1,000 periods. -/
def CrkTrig.after (t : CrkTrig) (P : Option Int) (fall hold : Nat) : Option CrkTrig :=
  let ref := match t.ref with
    | some r => some r
    | none => P
  let quiet := match ref, P with
    | some r, some x => if x < r - fall then t.quiet + 1 else 0
    | _, _ => 0
  let t := { ref := ref, quiet := quiet, periods := t.periods + 1 }
  if hold ≤ t.quiet ∨ 1000 ≤ t.periods then none else some t

/-- The FROZEN bits of a path's triggers in the period that starts at an instant. -/
def State.frozenBits (s : State) (k p : Nat) (x : CrkPath) (ns : Int) : Nat :=
  b2n (s.scheduled k p ns) + b2n x.burst.isSome * 2 + b2n x.pre.isSome * 4

/-- The symbols that start in a period take the gain in force as the gain of their mark (R355); a digital gain that is
clamped sets GAIN_LIMIT. -/
def CrkPath.startSym (x : CrkPath) (mu : Nat) (from_ : Int) (g : Int) : CrkPath :=
  let n := symbolAt mu (from_ + 999)
  let limit : Bool := decide (384 < g - 8 * x.gain) || decide (g - 8 * x.gain < -384)
  let x := if from_ ≤ symbolStart mu n then { x with syms := x.syms.put n { x.syms.getD n {} with gain := g } } else x
  if limit then x.flagSym n 16 else x

/-- The end of the present 1-µs period of a receive path (R356 to R361): P and C of its samples, if it received any. -/
def State.agcPeriod (s : State) (k p : Nat) (P : Option Int) (C : Nat) : State :=
  let w := s.pathReg k p
  if 512 ≤ p || !(w.getLsbD 12) || !(s.pdOn (41 + 2 * k)) then s
  else
    let per := s.artNs / 1000
    let s := s.advanceTo (s.lcOfArt ((per + 1) * 1000))
    let x := s.path k p
    let g := s.pathG k p
    let bits := s.frozen k p
    let rise : Bool := match P, x.lastP with
      | some a, some (q, b) => decide (q + 1 = per) && decide ((s.agc k 51 44 : Int) ≤ a - b) && decide (-960 ≤ a)
      | _, _ => false
    let burst := rise && x.burst.isNone
    let attack := decide (s.agc k 43 36 < C) && decide (x.attacks < s.agc k 59 56)
    let g' := match P with
      | none => g
      | some a => if bits ≠ 0 ∨ burst then (if attack then clampGain (g - s.agc k 19 12) else g) else s.nextGain k g a C
    let held := bits ≠ 0 ∨ burst
    let fall := s.agc k 51 44
    let hold := s.agc k 55 52
    let go (t : Option CrkTrig) (on : Bool) : Option CrkTrig := match t with
      | some t => t.after P fall hold
      | none => if on then some {} else none
    let x := { x with
      burst := go x.burst burst, pre := go x.pre x.preNext, preNext := false
      attacks := if held ∧ attack ∧ P.isSome then x.attacks + 1 else x.attacks
      lastP := match P with
        | some a => some (per, a)
        | none => x.lastP }
    let from_ := (per + 1) * 1000
    let bits' := s.frozenBits k p x from_
    let x := if bits' = 0 then { x with attacks := 0 } else x
    let mu := s.flowMu k (getField w 11 0)
    let n := symbolAt mu (per * 1000)
    let x := if bits = 0 then x else x.flagSym n bits
    let y := x.syms.getD n {}
    let x := { x with syms := x.syms.put n { y with clips := satAdd y.clips C 65535 } }
    let x := x.startSym mu from_ g'
    let s := s.setPath k p x
    let r := R.crkPathAgc
    let s := (s.setFld r (20 + k) [p] 15 0 (wrapInt 16 g')).setFld r (20 + k) [p] 34 32 bits'
    let s := match P with
      | some a => s.setFld r (20 + k) [p] 31 16 (wrapInt 16 a)
      | none => s
    s.bumpFld r (20 + k) [p] 47 35 C

/-- A scheduled freeze entry comes into force in the first period whose start is at or after START − 1 µs (R359). -/
def State.freezeStart (s : State) (k p e : Nat) : State :=
  let a := (s.reg R.crkFrz (20 + k) [p, 2 * e]).toInt
  let from_ := (a - 1000 + 999) / 1000 * 1000
  if 512 ≤ p || !((s.pathReg k p).getLsbD 12) || !(s.pdOn (41 + 2 * k)) || !(s.scheduled k p from_) then s
  else
    let s := s.advanceTo (s.lcOfArt from_)
    if s.scheduled k p s.artNs then s.setFld R.crkPathAgc (20 + k) [p] 32 32 1 else s

/-- A write of a word of a freeze entry (R361, R366): an END that has passed is counted. -/
def State.writeFrz (s : State) (k p j : Nat) (v part : Word) : State :=
  let r := R.crkFrz
  let s := s.setReg r (20 + k) [p, j] (r.written (s.reg r (20 + k) [p, j]) v part false false)
  let a := (s.reg r (20 + k) [p, j / 2 * 2]).toInt
  let b := (s.reg r (20 + k) [p, j / 2 * 2 + 1]).toInt
  if j % 2 = 1 ∧ a < b ∧ b < s.artNs then s.bumpFld R.crkPathAgc (20 + k) [p] 63 48 1 else s

/-! Marks, control words and offsets. -/

/-- The 64 B of a symbol mark (R355). -/
def symbolMark (n : Nat) (x : CrkPath) : List Byte :=
  let y := x.syms.getD n {}
  leBytes 8 n ++ leBytes 4 y.samples ++ leBytes 2 y.clips ++ leBytes 2 (wrapInt 16 y.gain) ++ leBytes 1 x.gain ++
  leBytes 1 y.frozen ++ leBytes 4 (wrapInt 32 x.est) ++ leBytes 2 (wrapInt 16 x.tau) ++ leBytes 4 (wrapInt 32 x.fcorrIn) ++ leBytes 36 0

/-- The mark of a symbol of a receive path is written at symbol end + CLOSE_NS (R355). -/
def State.writeMark (s : State) (k p n : Nat) : State :=
  let w := s.pathReg k p
  let x := s.path k p
  let done := match x.mark with
    | some y => decide (n ≤ y)
    | none => false
  if 512 ≤ p || !(w.getLsbD 12) || done || !(s.pdOn (41 + 2 * k)) then s
  else
    let f := getField w 11 0
    let mu := s.flowMu k f
    let close := sext 32 (s.fld R.crkFlowTime (20 + k) [f] 63 32)
    let s := s.advanceTo (s.lcOfArt (symbolStart mu (n + 1) + close))
    let win := s.reg R.crkPathMwin (20 + k) [p]
    let at_ := irisBase (getField (s.flowReg k f) 51 50) + getField win 24 0 + n % max 1 (getField win 43 25) * 64
    let s := s.crkStore k at_ (symbolMark n x)
    let s := s.setPath k p { x with mark := some n, syms := x.syms.keep (fun i => decide (n < i)) }
    (s.setFld R.crkPathAgc (20 + k) [p] 47 35 0).crkToken k win

/-- A preamble detected on a backhaul path (R359): it freezes from the first period that starts after. -/
def State.preamble (s : State) (k p : Nat) : State :=
  let w := s.pathReg k p
  if 512 ≤ p || !(w.getLsbD 12) || !(w.getLsbD 22) || (s.path k p).pre.isSome then s
  else s.setPath k p { s.path k p with preNext := true }

/-- The control word of a symbol boundary (R351, R358, R363): GAIN from the master path's g, and the correction words that
have changed. -/
def controlWord (apply gain : Nat) (fcorr tcorr : Int) (f t : Bool) : Nat :=
  apply % 2 ^ 64 + gain * 2 ^ 64 + wrapInt 20 fcorr * 2 ^ 72 + wrapInt 12 tcorr * 2 ^ 92 + 2 ^ 104 + b2n f * 2 ^ 105 + b2n t * 2 ^ 106

/-- The control word of the boundary at which symbol n starts is sent, no later than 20 µs before it and while no path of
the stream is frozen (R358, R360, R363). -/
def State.sendGain (s : State) (k p n : Nat) : State :=
  let w := s.pathReg k p
  let f := getField w 11 0
  let at_ := symbolStart (s.flowMu k f) n
  let cold := (s.pathsOf k f false).any (fun q => s.frozen k q != 0)
  if 512 ≤ p || !(w.getLsbD 12) || !(w.getLsbD 21) || cold || decide (at_ < s.artNs + 20000) || !(s.pdOn (41 + 2 * k)) then s
  else
    let x := s.path k p
    let dpref := sext 12 (s.fld R.crkPathNco (20 + k) [p] 43 32)
    let gain := (max 0 (min ((s.pathG k p - dpref) / 8) 63)).toNat
    let ofs := s.reg R.crkPathOfs (20 + k) [p]
    let fNew := decide (sext 20 (getField ofs 19 0) ≠ x.fcorr)
    let tNew := decide (sext 12 (getField ofs 31 20) ≠ x.tcorr)
    let apply := (at_ * 192 * 2 ^ (s.flowOf k f).rate / 100000).toNat
    let word := controlWord apply gain x.fcorr x.tcorr fNew tNew
    let fl := s.flowReg k f
    let s := { s with crkWords := s.crkWords.put k (s.crkWords.getD k [] ++ [(getField fl 44 36, getField fl 49 45, word)]) }
    let s := s.setPath k p { x with word := some word }
    (s.setFld R.crkPathOfs (20 + k) [p] 19 0 (wrapInt 20 x.fcorr)).setFld R.crkPathOfs (20 + k) [p] 31 20 (wrapInt 12 x.tcorr)

/-- The event of a correction word that saturated (R363). -/
def State.limitEvent (s : State) (k p : Nat) : State :=
  (s.setFld R.crkPathOfs (20 + k) [p] 39 39 1).stateEvent (R.crkPathOfs.at (20 + k) [p]) (s.fld R.crkPathOfs (20 + k) [p] 39 39) 1

/-- An estimate completes (R362 to R364): `f` is the estimate from the cyclic prefixes, in 1/256 Hz, which EXT replaces by
that of the slot program; the timing estimate comes from CRK_PATH_EXT alone. An F_RF of 0 leaves the correction free. -/
def State.offsetEstimate (s : State) (k p : Nat) (f : Int) : State :=
  let w := s.pathReg k p
  if 512 ≤ p || !(w.getLsbD 12) || !(s.pdOn (41 + 2 * k)) then s
  else
    let ext := s.reg R.crkPathExt (20 + k) [p]
    let f := if s.fld R.crkPathOfs (20 + k) [p] 38 38 = 1 then sext 32 (getField ext 31 0) else f
    let tau := sext 16 (getField ext 47 32)
    let rf := getField w 49 24
    let d := if rf = 0 then s.draw else (0, s)
    let s := d.2
    let x := s.path k p
    let step : Int := if f < 1280 ∧ -1280 < f then 0
      else if rf = 0 then (d.1 % 6401 : Nat) - 3200
      else max (-3200) (min (roundAway (-f * 250000) rf) 3200)
    let fc := x.fcorr + step
    let fs := max (-524287) (min fc 524287)
    let tc := if tau < 32 ∧ -32 < tau then x.tcorr else x.tcorr + roundAway tau 4
    let ts := max (-2048) (min tc 2047)
    let whole := roundAway tau 64
    let sh := max (-64) (min whole 64)
    let s := s.setPath k p { x with fcorr := fs, tcorr := ts, est := f, tau := tau, shift := sh }
    let s := if sh = whole then s else s.setFld R.crkPathOfs (20 + k) [p] 40 40 1
    if fs ≠ fc ∨ ts ≠ tc then s.limitEvent k p else s

end Sys2Proof.Machine
end

