-- ==== Sys2Proof/Machine/Egress.lean ====
section
/-! DEFINITION. Fronthaul ingress (R336, R339, R340, R365, R372, R373) and the egress time gates with their frames (R385 to
R389, R444, R445, R492). -/
namespace Sys2Proof.Machine

/-! Ingress. -/

/-- The flow entry that a frame matches (R339): the lowest-numbered. -/
def State.matchFlow (s : State) (k : Nat) (x : RxFrame) : Option Nat :=
  match x.msgs.head? with
  | none => none
  | some m =>
    if x.ethertype ≠ 0xAEFE ∨ m.type ≠ 0 then none
    else
      let vlan := match x.tag with
        | some t => t.1
        | none => 0xFFF
      (List.range 4096).find? (fun f =>
        let w := s.flowReg k f
        w.getLsbD 0 && !(w.getLsbD 1) && getField w 7 4 == x.lane && getField w 19 8 == vlan && getField w 35 20 == m.pcId)

/-- The flow of one message of a frame (R339, R341): concatenated messages may belong to several. -/
def State.takeMsg (s : State) (k : Nat) (x : RxFrame) (m : EcpriMsg) (stamp : Int) : State :=
  match s.matchFlow k { x with msgs := [m] } with
  | none => s.bumpFld R.crkPortCnt (20 + k) [x.lane] 63 32 1
  | some f =>
    let mode := getField (s.flowReg k f) 3 2
    if mode = 0 then s.takeUplane k f m stamp
    else if mode = 1 then s.takeStream k f m
    else s.countFlow k f 48 1

/-- The class of a frame (R373). -/
def frameClass (tag : Option (Nat × Nat)) : Nat :=
  match tag with
  | some t => 3 - t.2 % 8 / 2
  | none => 3

/-- The size of the receive share in bytes (R365). -/
def State.rxShare (s : State) (k : Nat) : Nat := s.fld R.crkPortCfg (20 + k) [] 43 38 * 0x100000

/-- Whether the receive share has room for a frame, with `fill` bytes in use (R365, R376). -/
def State.rxRoom (s : State) (k len fill : Nat) : Bool := decide (fill + len ≤ s.rxShare k)

/-- A frame dropped at its port (R336, R365). -/
def State.dropAtPort (s : State) (k l : Nat) : State := s.bumpFld R.crkPortCnt (20 + k) [l] 31 0 1

/-- A frame for partition 0 (R340, R373, R376): its port's policer, then its class's meter. -/
def State.takeHostFrame (s : State) (k : Nat) (x : RxFrame) (fill : Nat) : State :=
  let p := s.police (R.crkPpol.at (20 + k) [x.lane]) x.len
  if !p.1 then p.2.pmu (20 + k) 0x44 0 1
  else
    let key := R.crkMtr.at (20 + k) [frameClass x.tag]
    let c := p.2.meet key x.len
    let s := c.2
    let pass (s : State) : State :=
      if s.rxRoom k x.len fill then { s with crkHost := s.crkHost ++ [(16 * k + x.lane, s.lc, x)] } else s.dropAtPort k x.lane
    match c.1 with
    | .red => s
    | .green => pass s
    | .yellow =>
      if fill * 256 < s.fld R.crkTcCfg (20 + k) [] 7 0 * s.rxShare k then pass s else s.countIdle key

/-- A frame received at a port; during a global stop it is dropped (R336, R339 to R345, R349, R365, R372, R373, R558): `fill` is what the receive share holds. -/
def State.frameRx (s : State) (k : Nat) (x : RxFrame) (fill : Nat) : State :=
  if !(s.portUp k x.lane) then s
  else
    let s := ((s.pmu (20 + k) 0x41 0 1).pmu (20 + k) 0x43 0 (cdiv x.len 64))
    if s.gstopped || s.fld R.crkPortCfg (20 + k) [] 37 24 < x.len then s.dropAtPort k x.lane
    else match s.matchFlow k x with
      | some f =>
        let p := s.police (R.crkFpol.at (20 + k) [f]) x.len
        if !p.1 then p.2.pmu (20 + k) 0x44 0 1
        else if !(p.2.rxRoom k x.len fill) then p.2.dropAtPort k x.lane
        else if !(p.2.pdOn (41 + 2 * k)) then p.2
        else x.msgs.foldl (fun s m => s.takeMsg k x m s.artNs) p.2
      | none =>
        let radio := x.ethertype == 0xAEFE && (match x.msgs.head? with
          | some m => m.type == 0 || m.type == 2
          | none => false)
        if radio then s.bumpFld R.crkPortCnt (20 + k) [x.lane] 63 32 1 else s.takeHostFrame k x fill

/-! Gate lists. -/

/-- The entries of a gate list up to its LAST, and whether there is one (R385). -/
def gateList (w : Nat → Word) : Nat → Nat → List (Nat × Nat) × Bool
  | 0, _ => ([], false)
  | n + 1, i =>
    let v := halfWord w i
    let e := (v % 2 ^ 24, bitsOf v 27 24)
    if bitOf v 31 then ([e], true)
    else
      let r := gateList w n (i + 1)
      (e :: r.1, r.2)

/-- The operating list of a port. -/
def State.operGates (s : State) (k l : Nat) : List (Nat × Nat) := (gateList (fun j => s.reg R.crkGateOper (20 + k) [l, j]) 64 0).1

/-- Whether a port's gates act (R385, R389). -/
def State.gatesOn (s : State) (k l : Nat) : Bool := (s.port k l).live && s.fld R.crkGateCfg (20 + k) [l] 24 24 == 1

/-- How long queue q stays open from the start of entry i on (R385); none where it never closes. -/
def openFrom (es : List (Nat × Nat)) (q i : Nat) : Option Nat :=
  let run := (es.drop i ++ es.take i).takeWhile (fun e => bitOf e.2 q)
  if run.length = es.length then none else some ((run.map (fun e => e.1)).foldl (· + ·) 0)

/-- The entry in force at an offset in the cycle, with its start. -/
def gateAt : List (Nat × Nat) → Nat → Nat → Nat → Nat × Nat
  | [], _, i, a => (i, a)
  | [_], _, i, a => (i, a)
  | e :: t, o, i, a => if o < a + e.1 then (i, a) else gateAt t o (i + 1) (a + e.1)

/-- The end of queue q's current open interval at an instant of ART, in nanoseconds (R385): none while it is closed, and
`some none` where it does not end. -/
def State.openEnd (s : State) (k l q : Nat) (ns : Int) : Option (Option Int) :=
  if !(s.gatesOn k l) then some none
  else
    let p := s.port k l
    let es := s.operGates k l
    let o := ((ns - p.base) % max 1 p.cycle).toNat
    let g := gateAt es o 0 0
    if !(bitOf ((es[g.1]?.map (fun e => e.2)).getD 0) q) then none
    else match openFrom es q g.1 with
      | none => some none
      | some d => some (some (ns - o + g.2 + d))

/-- The time a frame takes on its port in units of 1/200 ns (R386). -/
def State.frameTime (s : State) (k l len : Nat) : Nat := (len + 20) * 4 / portLanes (s.quadMode k l)

/-- Whether a frame is longer than every open interval of its queue (R387). -/
def State.oversize (s : State) (k l q len : Nat) : Bool :=
  let es := s.operGates k l
  s.gatesOn k l && (List.range es.length).all (fun i => match openFrom es q i with
    | none => false
    | some d => decide (d * 200 < s.frameTime k l len))

/-- A frame joins its queue, or is dropped (R387). -/
def State.joinQueue (s : State) (k l : Nat) (x : TxFrame) : State :=
  if s.oversize k l x.queue x.len then s.bumpFld R.crkGateCnt (20 + k) [l] 31 0 1
  else
    let p := s.port k l
    s.setPort k l { p with queues := p.queues.put x.queue (p.queues.getD x.queue [] ++ [x]) }

/-- The oldest frame of a port that has not joined its queue does (R387). -/
def State.enqueueTx (s : State) (k l : Nat) : State :=
  let ws := s.crkWait.getD k []
  match ws.find? (fun x => x.lane == l) with
  | none => s
  | some x => ({ s with crkWait := s.crkWait.put k (ws.erase x) }).joinQueue k l x

/-! PTP. -/

/-- Where the PTP message of a frame of partition 0 begins (R443): ethertype 0x88F7, untagged or with one tag. -/
def ptpAt (b : List Byte) : Option Nat :=
  let et (o : Nat) : Nat := fieldOf b o 1 * 256 + fieldOf b (o + 1) 1
  if et 12 = 0x88F7 then some 14 else if et 12 = 0x8100 ∧ et 16 = 0x88F7 then some 18 else none

/-- The messageType of a frame's PTP message (R443). -/
def ptpType (b : List Byte) : Option Nat := (ptpAt b).map (fun o => fieldOf b o 1 % 16)

/-- A big-endian number as n bytes. -/
def beBytes (n v : Nat) : List Byte := (leBytes n v).reverse

/-- A list of bytes with some replaced from an offset. -/
def patch (b : List Byte) (o : Nat) (x : List Byte) : List Byte := b.take o ++ x ++ b.drop (o + x.length)

/-- A one-step Sync at egress (R445): originTimestamp from a base in units of 2^−16 ns, the fraction added to
correctionField. -/
def oneStep (b : List Byte) (t : Int) : List Byte :=
  match ptpAt b with
  | none => b
  | some o =>
    let ns := (t / 65536).toNat
    let corr := leNat ((b.drop (o + 8)).take 8).reverse
    let b := patch b (o + 8) (beBytes 8 (corr + (t % 65536).toNat))
    patch b (o + 34) (beBytes 6 (ns / 1000000000) ++ beBytes 4 (ns % 1000000000))

/-- EGRESS of a port in units of 2^−16 ns (R454). -/
def State.egressCorr (s : State) (k l : Nat) : Int := sext 16 (s.fld R.crkTsCorr (20 + k) [l] 31 16) * 4096

/-- The stamp record of a frame that asked for one (R445, R492, R498): the sequenceId of a frame that is no PTP message is
free. -/
def State.stampFrame (s : State) (k l : Nat) (x : TxFrame) : State :=
  if !(bitOf x.ts 0) then s
  else
    let c := s.egressCorr k l
    let d := match ptpAt x.raw with
      | some o => (fieldOf x.raw (o + 30) 1 * 256 + fieldOf x.raw (o + 31) 1, s)
      | none => s.draw
    let w (v : Int) : List Byte := leBytes 8 (wrapInt 64 v)
    d.2.emit 0 evPtpStamp (20 + k) (leBytes 1 (16 * k + l) ++ leBytes 2 d.1 ++ w (s.lc * 65536 + c) ++
      w ((s.base 0).val / 2 ^ 24 + c) ++ w ((s.base 1).val / 2 ^ 24 + c) ++ w (s.art32 / 2 ^ 16 + c))

/-! Sending. -/

/-- The head of a queue marked as having waited because it did not fit, and counted once (R366, R386). -/
def State.markWait (s : State) (k l q : Nat) : State :=
  let p := s.port k l
  match p.queues.getD q [] with
  | [] => s
  | x :: t =>
    if x.waited then s
    else ((s.setPort k l { p with queues := p.queues.put q ({ x with waited := true } :: t) }).bumpFld R.crkGateCnt (20 + k) [l] 63 32 1).pmu
      (20 + k) 0x45 0 1

/-- A frame goes out at a start in units of 1/200 LC tick (R386, R444, R445). -/
def State.sendFrame (s : State) (k l q start : Nat) : State :=
  let p := s.port k l
  match p.queues.getD q [] with
  | [] => s
  | x :: t =>
    let base := if bitOf x.ts 2 then 1 else 0
    let raw := if bitOf x.ts 1 then oneStep x.raw ((s.base base).val / 2 ^ 24 + s.egressCorr k l) else x.raw
    let s := s.setPort k l { p with
      queues := p.queues.put q t, busy := start + s.frameTime k l x.len, sent := some { x with raw := raw } }
    (s.pmu (20 + k) 0x42 0 1).stampFrame k l x

/-- A free port looks for the head to send, from queue q on (R386). -/
def State.tryQueues (s : State) (k l start : Nat) : List Nat → State
  | [] => s
  | q :: t =>
    match (s.port k l).queues.getD q [] with
    | [] => s.tryQueues k l start t
    | x :: _ =>
      let at32 := s.art32 * 200 + ((start : Int) - s.lc * 200) * 2 ^ 32
      match s.openEnd k l q (at32 / (200 * 2 ^ 32)) with
      | none => s.tryQueues k l start t
      | some e =>
        let fits : Bool := match e with
          | none => true
          | some e => decide (at32 + s.frameTime k l x.len * 2 ^ 32 ≤ e * 200 * 2 ^ 32)
        if fits then s.sendFrame k l q start else (s.markWait k l q).tryQueues k l start t

/-- A port sends its next frame once the last has ended (R386); during a global stop it sends nothing (R558). -/
def State.startFrame (s : State) (k l : Nat) : State :=
  if !(s.portUp k l) || s.gstopped then s
  else
    let s := s.advanceTo ((s.port k l).busy / 200)
    s.tryQueues k l (max (s.lc * 200) (s.port k l).busy) [0, 1, 2, 3]

/-! Changes. -/

/-- Whether an administrative list is refused (R388). -/
def State.gateBad (s : State) (k l cycle : Nat) : Bool :=
  let g := gateList (fun j => s.reg R.crkGateAdmin (20 + k) [l, j]) 64 0
  !g.2 || g.1.any (fun e => decide (e.1 < 100)) || (g.1.map (fun e => e.1)).foldl (· + ·) 0 != cycle ||
  decide (cycle < 1000) || decide (10000000 < cycle)

/-- The first instant BASE + k × CYCLE, k ≥ 0, at least 2 µs from now (R388). -/
def firstBoundary (base : Int) (cycle : Nat) (from_ : Int) : Int :=
  if from_ ≤ base then base else base + (from_ - base + cycle - 1) / cycle * cycle

/-- A write of CRK_GATE_CFG (R388, R389): EN at once, CYCLE_NS while no change is armed, GO. -/
def State.writeGate (s : State) (m : Master) (k l : Nat) (v part : Word) : State :=
  let r := R.crkGateCfg
  let old := s.reg r (20 + k) [l]
  let armed := old.getLsbD 25
  let w := r.written old v part false false
  let w' := if armed then setField w 23 0 (getField old 23 0) else w
  let s := s.setReg r (20 + k) [l] w'
  let s := if armed && w != w' then s.refuseReg m r (20 + k) [l] v else s
  if armed || !(v.getLsbD 25 && part.getLsbD 25) then s
  else if s.gateBad k l (getField w 23 0) then
    ((s.setReg r (20 + k) [l] (setField (setField w 25 25 0) 26 26 1))).refuseReg m r (20 + k) [l] v
  else
    let base := (s.reg R.crkGateBase (20 + k) [l]).toInt
    (s.setReg r (20 + k) [l] (setField w 26 26 0)).setPort k l { s.port k l with
      swapAt := some (firstBoundary base (getField w 23 0) (s.artNs + 2000)) }

/-- A write of CRK_GATE_BASE or of the administrative list (R388). -/
def State.writeGateSet (s : State) (m : Master) (r : RegD) (k : Nat) (ix : List Nat) (v part : Word) : State :=
  if s.fld R.crkGateCfg (20 + k) [ix.headD 0] 25 25 = 1 then s.refuseReg m r (20 + k) ix v
  else s.setReg r (20 + k) ix (r.written (s.reg r (20 + k) ix) v part false false)

/-- An armed list takes effect (R388): every waiting frame is judged again. -/
def State.gateSwitch (s : State) (k l : Nat) : State :=
  match (s.port k l).swapAt with
  | none => s
  | some at_ =>
    let s := s.advanceTo (s.lcOfArt at_)
    let s := (List.range 32).foldl (fun s j => s.setReg R.crkGateOper (20 + k) [l, j] (s.reg R.crkGateAdmin (20 + k) [l, j])) s
    let p := s.port k l
    let s := s.setFld R.crkGateCfg (20 + k) [l] 25 25 0
    let qs := p.queues
    let s := s.setPort k l { p with
      cycle := s.fld R.crkGateCfg (20 + k) [l] 23 0, base := (s.reg R.crkGateBase (20 + k) [l]).toInt
      live := true, swapAt := none, queues := [] }
    (List.range 4).foldl (fun s q => (qs.getD q []).foldl (fun s x => s.joinQueue k l x) s) s

/-! Frames of partition 0. -/

/-- A FRAME command runs (R445, R490, R492): the frame is read from host memory and joins those to be sent on its port. -/
def State.runFrame (s : State) (c : Cmd) : State :=
  let port := c.field 0x18 1
  let k := port / 16 % 2
  let ts := c.field 0x19 1
  let b := s.hostBytes (c.field 0x20 8) (c.field 0x1A 2)
  if bitOf ts 1 && ptpType b != some 0 then s.finishCmd c stNoUnit 0 0 0 0
  else if !(s.pdOn (40 + 2 * k)) then s.finishCmd c stNoUnit 0 0 0 0
  else (s.addTx k { lane := port % 16, queue := 2, len := b.length + 4, raw := b, ts := ts }).finishCmd c stOK 0 0 0 0

end Sys2Proof.Machine
end

