-- ==== Sys2Proof/Machine/Crocus.lean ====
section
/-! DEFINITION. The meanings of the fronthaul and front-end rows (R334 to R366) and of the egress gates (R385 to R389). The
Crocus number k is taken modulo 2, a lane modulo 16, a flow modulo 4,096 and a path modulo 1,024. -/
namespace Sys2Proof.Machine

/-- FRONTHAUL_FRAME_RX (R336, R339 to R345, R349, R365, R372 to R376): `fill` bytes of the receive share are in use. -/
def execFronthaulFrameRx (k : Nat) (x : RxFrame) (fill : Nat) (s : State) : Host.Outcome State Fault Refusal :=
  .next (s.frameRx (k % 2) x fill)

/-- CRK_SPARE_MOVE (R337): a write of CRK_SPARE_CMD. -/
def execCrkSpareMove (m : Master) (k : Nat) (v : BitVec 64) (s : State) : Host.Outcome State Fault Refusal :=
  .next (s.guardWrite m R.crkSpareCmd (20 + k % 2) [] (fun s => s.writeCrkSpare m (k % 2) v))

/-- PORT_TRAINED (R337): an enabled port's lanes finish training. -/
def execPortTrained (k l : Nat) (s : State) : Host.Outcome State Fault Refusal :=
  let k := k % 2
  let l := l % 16
  if s.portOn k l && s.pdOn (40 + 2 * k) then .next (s.setPortLanes k l 1) else .next s

/-- FRONTHAUL_LANE_LOSS (R338): a lane loses lock, and the port that uses it goes down. -/
def execFronthaulLaneLoss (k l : Nat) (s : State) : Host.Outcome State Fault Refusal :=
  let k := k % 2
  let l := l % 16
  if s.fld R.crkLane (20 + k) [l] 5 5 = 0 then .next s
  else .next ((s.setFld R.crkLane (20 + k) [l] 5 5 0).linkEvent (20 + k) l 0)

/-- UPLINK_HEADER_WRITE (R345, R346): the record of symbol n of flow f is closed. -/
def execUplinkHeaderWrite (k f n : Nat) (s : State) : Host.Outcome State Fault Refusal :=
  .next (s.writeHeader (k % 2) (f % 4096) n)

/-- DOWNLINK_RECORD_SEND (R342, R347): the record of symbol n of flow f is read and sent. -/
def execDownlinkRecordSend (k f n : Nat) (s : State) : Host.Outcome State Fault Refusal :=
  .next (s.sendDownlink (k % 2) (f % 4096) n)

/-- CPLANE_RECORD_SEND (R348): the C-plane record of symbol n of flow f is read and sent. -/
def execCplaneRecordSend (k f n : Nat) (s : State) : Host.Outcome State Fault Refusal :=
  .next (s.sendCplane (k % 2) (f % 4096) n)

/-- CRK_PATH_ENABLE (R353): a write of CRK_PATH_CFG for a path whose output rate takes 1, 2 or 4 units. -/
def execCrkPathEnable (m : Master) (k p units : Nat) (v : BitVec 64) (s : State) : Host.Outcome State Fault Refusal :=
  let u := if units = 2 then 2 else if units = 4 then 4 else 1
  .next (s.guardWrite m R.crkPathCfg (20 + k % 2) [p % 1024] (fun s => s.writePath m (k % 2) (p % 1024) u v (partMask 0 8)))

/-- TX_PATH_BLOCK (R354): a transmit path gives its samples of the next block, of which `sat` parts saturate the sum, to a
stream of a rate. -/
def execTxPathBlock (k p rate sat : Nat) (s : State) : Host.Outcome State Fault Refusal :=
  .next (s.txBlock (k % 2) (p % 1024) (min rate 8) sat)

/-- SYMBOL_MARK_WRITE (R355): the mark of symbol n of a receive path. -/
def execSymbolMarkWrite (k p n : Nat) (s : State) : Host.Outcome State Fault Refusal :=
  .next (s.writeMark (k % 2) (p % 1024) n)

/-- AGC_PERIOD_END (R356 to R361): the present period of a receive path ends, with its P and C if it received samples. -/
def execAgcPeriodEnd (k p : Nat) (level : Option Int) (clips : Nat) (s : State) : Host.Outcome State Fault Refusal :=
  .next (s.agcPeriod (k % 2) (p % 1024) level clips)

/-- FREEZE_ENTRY_START (R359): freeze entry e of a receive path comes into force. -/
def execFreezeEntryStart (k p e : Nat) (s : State) : Host.Outcome State Fault Refusal :=
  .next (s.freezeStart (k % 2) (p % 1024) (e % 16))

/-- PREAMBLE_DETECT (R359): the correlator of a backhaul path detects a preamble. -/
def execPreambleDetect (k p : Nat) (s : State) : Host.Outcome State Fault Refusal := .next (s.preamble (k % 2) (p % 1024))

/-- CRK_FRZ_WRITE (R361, R366): a write of word j of a receive path's freeze entries. -/
def execCrkFrzWrite (m : Master) (k p j : Nat) (v : BitVec 64) (s : State) : Host.Outcome State Fault Refusal :=
  .next (s.guardWrite m R.crkFrz (20 + k % 2) [p % 512, j % 32] (fun s => s.writeFrz (k % 2) (p % 512) (j % 32) v (partMask 0 8)))

/-- GAIN_CONTROL_WORD_SEND (R358, R360, R363): the control word of the boundary of symbol n of a stream's master path. -/
def execGainControlWordSend (k p n : Nat) (s : State) : Host.Outcome State Fault Refusal :=
  .next (s.sendGain (k % 2) (p % 1024) n)

/-- OFFSET_ESTIMATE (R362 to R364): an estimate of a receive path completes, in 1/256 Hz. -/
def execOffsetEstimate (k p : Nat) (f : Int) (s : State) : Host.Outcome State Fault Refusal :=
  .next (s.offsetEstimate (k % 2) (p % 1024) f)

/-- EGRESS_FRAME_ENQUEUE (R387): the oldest frame for a port joins its queue. -/
def execEgressFrameEnqueue (k l : Nat) (s : State) : Host.Outcome State Fault Refusal := .next (s.enqueueTx (k % 2) (l % 16))

/-- EGRESS_FRAME_START (R386): a free port sends. -/
def execEgressFrameStart (k l : Nat) (s : State) : Host.Outcome State Fault Refusal := .next (s.startFrame (k % 2) (l % 16))

/-- A write of CRK_GATE_CFG (R388, R389). -/
def State.gateWrite (s : State) (m : Master) (k l : Nat) (v : Word) : State :=
  s.guardWrite m R.crkGateCfg (20 + k) [l] (fun s => s.writeGate m k l v (partMask 0 8))

/-- GATE_LIST_GO (R388): a write of CRK_GATE_CFG with GO. -/
def execGateListGo (m : Master) (k l : Nat) (v : BitVec 64) (s : State) : Host.Outcome State Fault Refusal :=
  .next (s.gateWrite m (k % 2) (l % 16) (v ||| 0x2000000))

/-- GATE_LIST_SWITCH (R388): an armed list takes effect. -/
def execGateListSwitch (k l : Nat) (s : State) : Host.Outcome State Fault Refusal := .next (s.gateSwitch (k % 2) (l % 16))

/-- GATE_EN_WRITE (R389): a write of CRK_GATE_CFG that leaves GO alone. -/
def execGateEnWrite (m : Master) (k l : Nat) (v : BitVec 64) (s : State) : Host.Outcome State Fault Refusal :=
  .next (s.gateWrite m (k % 2) (l % 16) (v &&& 0xFFFFFFFFFDFFFFFF))

/-- CMD_FRAME (R445, R490, R492): the next command of ring r, a FRAME, runs. -/
def execCmdFrame (r : Nat) (s : State) : Host.Outcome State Fault Refusal :=
  match s.nextOther r with
  | none => .next s
  | some c => if c.field 0 1 = 5 then .next (s.runFrame c) else .next s

/-- RCLK_LOCK_LOSS (R446): the port chosen for output `out` of a die loses lock; the output is held low. -/
def execRclkLockLoss (k out port : Nat) (s : State) : Host.Outcome State Fault Refusal :=
  let x := 2 * (k % 2) + out % 2
  if s.rclkLow.contains x then .next s
  else .next (({ s with rclkLow := x :: s.rclkLow }).linkEvent (20 + k % 2) (port % 16) 0)

/-- RCLK_LOCK_REGAIN (R446): the chosen port regains lock and the output resumes. -/
def execRclkLockRegain (k out : Nat) (s : State) : Host.Outcome State Fault Refusal :=
  .next { s with rclkLow := s.rclkLow.filter (fun y => y != 2 * (k % 2) + out % 2) }

end Sys2Proof.Machine
end

