-- ==== Sys2Proof/Machine/Ctl.lean ====
section
/-! DEFINITION. The meanings of the CTL slot rows (R101 to R103, R119, R139 to R147, R206): each issues its bundle, with the operation in the CTL slot. -/
namespace Sys2Proof.Machine

/-- ADD (R140): CTL ADD writes Sa + Sb into Sd, modulo 2^64. -/
def execAdd (u : SeqUnit) (d a b : BitVec 5) (w : Bundle) (s : State) :
    Host.Outcome State Fault Refusal :=
  .next (s.issue u (w.withCtl (.rr .add d a b)))

/-- SUB (R140): CTL SUB writes Sa − Sb into Sd. -/
def execSub (u : SeqUnit) (d a b : BitVec 5) (w : Bundle) (s : State) :
    Host.Outcome State Fault Refusal :=
  .next (s.issue u (w.withCtl (.rr .sub d a b)))

/-- AND (R140): CTL AND writes the bitwise AND of Sa and Sb into Sd. -/
def execAndOp (u : SeqUnit) (d a b : BitVec 5) (w : Bundle) (s : State) :
    Host.Outcome State Fault Refusal :=
  .next (s.issue u (w.withCtl (.rr .and d a b)))

/-- OR (R140): CTL OR writes the bitwise OR of Sa and Sb into Sd. -/
def execOrOp (u : SeqUnit) (d a b : BitVec 5) (w : Bundle) (s : State) :
    Host.Outcome State Fault Refusal :=
  .next (s.issue u (w.withCtl (.rr .or d a b)))

/-- XOR (R140): CTL XOR writes the bitwise XOR of Sa and Sb into Sd. -/
def execXorOp (u : SeqUnit) (d a b : BitVec 5) (w : Bundle) (s : State) :
    Host.Outcome State Fault Refusal :=
  .next (s.issue u (w.withCtl (.rr .xor d a b)))

/-- SHL (R141): CTL SHL shifts Sa left by Sb[5:0]. -/
def execShl (u : SeqUnit) (d a b : BitVec 5) (w : Bundle) (s : State) :
    Host.Outcome State Fault Refusal :=
  .next (s.issue u (w.withCtl (.rr .shl d a b)))

/-- SHR (R141): CTL SHR shifts Sa right logically by Sb[5:0]. -/
def execShr (u : SeqUnit) (d a b : BitVec 5) (w : Bundle) (s : State) :
    Host.Outcome State Fault Refusal :=
  .next (s.issue u (w.withCtl (.rr .shr d a b)))

/-- SRA (R141): CTL SRA shifts Sa right arithmetically by Sb[5:0]. -/
def execSra (u : SeqUnit) (d a b : BitVec 5) (w : Bundle) (s : State) :
    Host.Outcome State Fault Refusal :=
  .next (s.issue u (w.withCtl (.rr .sra d a b)))

/-- MUL (R140): CTL MUL writes the low 64 bits of Sa × Sb into Sd with latency 3. -/
def execMul (u : SeqUnit) (d a b : BitVec 5) (w : Bundle) (s : State) :
    Host.Outcome State Fault Refusal :=
  .next (s.issue u (w.withCtl (.rr .mul d a b)))

/-- MIN (R140): CTL MIN writes the signed minimum of Sa and Sb. -/
def execMin (u : SeqUnit) (d a b : BitVec 5) (w : Bundle) (s : State) :
    Host.Outcome State Fault Refusal :=
  .next (s.issue u (w.withCtl (.rr .min d a b)))

/-- MAX (R140): CTL MAX writes the signed maximum of Sa and Sb. -/
def execMax (u : SeqUnit) (d a b : BitVec 5) (w : Bundle) (s : State) :
    Host.Outcome State Fault Refusal :=
  .next (s.issue u (w.withCtl (.rr .max d a b)))

/-- MINU (R140): CTL MINU writes the unsigned minimum of Sa and Sb. -/
def execMinu (u : SeqUnit) (d a b : BitVec 5) (w : Bundle) (s : State) :
    Host.Outcome State Fault Refusal :=
  .next (s.issue u (w.withCtl (.rr .minu d a b)))

/-- MAXU (R140): CTL MAXU writes the unsigned maximum of Sa and Sb. -/
def execMaxu (u : SeqUnit) (d a b : BitVec 5) (w : Bundle) (s : State) :
    Host.Outcome State Fault Refusal :=
  .next (s.issue u (w.withCtl (.rr .maxu d a b)))

/-- ADDI (R140): CTL ADDI adds the sign-extended imm12 to Sa. -/
def execAddi (u : SeqUnit) (d a : BitVec 5) (imm : BitVec 12) (w : Bundle) (s : State) :
    Host.Outcome State Fault Refusal :=
  .next (s.issue u (w.withCtl (.ri .addi d a imm)))

/-- ANDI (R140): CTL ANDI ANDs Sa with the zero-extended imm12. -/
def execAndi (u : SeqUnit) (d a : BitVec 5) (imm : BitVec 12) (w : Bundle) (s : State) :
    Host.Outcome State Fault Refusal :=
  .next (s.issue u (w.withCtl (.ri .andi d a imm)))

/-- ORI (R140): CTL ORI ORs Sa with the zero-extended imm12. -/
def execOri (u : SeqUnit) (d a : BitVec 5) (imm : BitVec 12) (w : Bundle) (s : State) :
    Host.Outcome State Fault Refusal :=
  .next (s.issue u (w.withCtl (.ri .ori d a imm)))

/-- XORI (R140): CTL XORI XORs Sa with the zero-extended imm12. -/
def execXori (u : SeqUnit) (d a : BitVec 5) (imm : BitVec 12) (w : Bundle) (s : State) :
    Host.Outcome State Fault Refusal :=
  .next (s.issue u (w.withCtl (.ri .xori d a imm)))

/-- SHLI (R141): CTL SHLI shifts Sa left by the immediate sh. -/
def execShli (u : SeqUnit) (d a : BitVec 5) (sh : BitVec 6) (w : Bundle) (s : State) :
    Host.Outcome State Fault Refusal :=
  .next (s.issue u (w.withCtl (.rs .shli d a sh)))

/-- SHRI (R141): CTL SHRI shifts Sa right logically by the immediate sh. -/
def execShri (u : SeqUnit) (d a : BitVec 5) (sh : BitVec 6) (w : Bundle) (s : State) :
    Host.Outcome State Fault Refusal :=
  .next (s.issue u (w.withCtl (.rs .shri d a sh)))

/-- SRAI (R141): CTL SRAI shifts Sa right arithmetically by the immediate sh. -/
def execSrai (u : SeqUnit) (d a : BitVec 5) (sh : BitVec 6) (w : Bundle) (s : State) :
    Host.Outcome State Fault Refusal :=
  .next (s.issue u (w.withCtl (.rs .srai d a sh)))

/-- LI (R140): CTL LI loads the sign-extended imm17 into Sd. -/
def execLi (u : SeqUnit) (d : BitVec 5) (imm : BitVec 17) (w : Bundle) (s : State) :
    Host.Outcome State Fault Refusal :=
  .next (s.issue u (w.withCtl (.li d imm)))

/-- LIS (R140): CTL LIS shifts Sd left by 16 and ORs in imm16. -/
def execLis (u : SeqUnit) (d : BitVec 5) (imm : BitVec 16) (w : Bundle) (s : State) :
    Host.Outcome State Fault Refusal :=
  .next (s.issue u (w.withCtl (.lis d imm)))

/-- CMP (R142): CTL CMP writes an integer condition of Sa and Sb into Pd. -/
def execCmp (u : SeqUnit) (pd cond : BitVec 3) (a b : BitVec 5) (w : Bundle) (s : State) :
    Host.Outcome State Fault Refusal :=
  .next (s.issue u (w.withCtl (.cmp pd cond a b)))

/-- CMPI (R142): CTL CMPI writes an integer condition of Sa and the sign-extended imm8 into Pd. -/
def execCmpi (u : SeqUnit) (pd cond : BitVec 3) (a : BitVec 5) (imm : BitVec 8) (w : Bundle) (s : State) :
    Host.Outcome State Fault Refusal :=
  .next (s.issue u (w.withCtl (.cmpi pd cond a imm)))

/-- CMPF (R142): CTL CMPF writes an FP32 condition of Sa and Sb into Pd, with the NaN rules. -/
def execCmpf (u : SeqUnit) (pd cond : BitVec 3) (a b : BitVec 5) (w : Bundle) (s : State) :
    Host.Outcome State Fault Refusal :=
  .next (s.issue u (w.withCtl (.cmpf pd cond a b)))

/-- PLOG (R142): CTL PLOG combines two predicates, each optionally inverted, with AND, OR or XOR. -/
def execPlog (u : SeqUnit) (pd : BitVec 3) (op : BitVec 2) (pa : BitVec 3) (ia : Bool) (pb : BitVec 3) (ib : Bool) (w : Bundle) (s : State) :
    Host.Outcome State Fault Refusal :=
  .next (s.issue u (w.withCtl (.plog pd op pa ia pb ib)))

/-- MOV (R143): CTL MOV copies between the register kinds that the allowed pairs list. -/
def execMov (u : SeqUnit) (dk : BitVec 3) (dn : BitVec 5) (sk : BitVec 3) (sn : BitVec 5) (w : Bundle) (s : State) :
    Host.Outcome State Fault Refusal :=
  .next (s.issue u (w.withCtl (.mov dk dn sk sn)))

/-- RDSR (R144): CTL RDSR reads a special value into Sd, and a timing code raises the exception in exact mode. -/
def execRdsr (u : SeqUnit) (d : BitVec 5) (sr : BitVec 8) (w : Bundle) (s : State) :
    Host.Outcome State Fault Refusal :=
  .next (s.issue u (w.withCtl (.rdsr d sr)))

/-- BR (R145): CTL BR branches to its target when cp holds, and a taken branch makes loops outside the target inactive. -/
def execBr (u : SeqUnit) (cp : BitVec 4) (target : BitVec 13) (w : Bundle) (s : State) :
    Host.Outcome State Fault Refusal :=
  .next (s.issue u (w.withCtl (.br cp target)))

/-- CALL (R145): CTL CALL writes the next bundle index into S31 and branches when cp holds. -/
def execCall (u : SeqUnit) (cp : BitVec 4) (target : BitVec 13) (w : Bundle) (s : State) :
    Host.Outcome State Fault Refusal :=
  .next (s.issue u (w.withCtl (.call cp target)))

/-- JR (R145): CTL JR branches to Sa[12:0] when cp holds. -/
def execJr (u : SeqUnit) (cp : BitVec 4) (a : BitVec 5) (w : Bundle) (s : State) :
    Host.Outcome State Fault Refusal :=
  .next (s.issue u (w.withCtl (.jr cp a)))

/-- BSKIP (R206): CTL BSKIP skips forward to its target when cp holds and counts the skipped bundles. -/
def execBskip (u : SeqUnit) (cp : BitVec 4) (target : BitVec 13) (w : Bundle) (s : State) :
    Host.Outcome State Fault Refusal :=
  .next (s.issue u (w.withCtl (.bskip cp target)))

/-- LOOP (R101): CTL LOOP starts a block repeat with the count taken from Sc. -/
def execLoop (u : SeqUnit) (lk : BitVec 3) (stop : BitVec 13) (sc : BitVec 5) (w : Bundle) (s : State) :
    Host.Outcome State Fault Refusal :=
  .next (s.issue u (w.withCtl (.loop lk stop sc)))

/-- LOOPI (R101): CTL LOOPI starts a block repeat with an immediate count from 0 to 63. -/
def execLoopi (u : SeqUnit) (lk : BitVec 3) (stop : BitVec 13) (cnt : BitVec 6) (w : Bundle) (s : State) :
    Host.Outcome State Fault Refusal :=
  .next (s.issue u (w.withCtl (.loopi lk stop cnt)))

/-- IDLE (R105): CTL IDLE issues nothing for n lane cycles. -/
def execIdle (u : SeqUnit) (n1 : BitVec 16) (w : Bundle) (s : State) :
    Host.Outcome State Fault Refusal :=
  .next (s.issue u (w.withCtl (.idle n1)))

/-- YIELD (R86): CTL YIELD is a switch point that selects the next READY context. -/
def execYield (u : SeqUnit) (w : Bundle) (s : State) :
    Host.Outcome State Fault Refusal :=
  .next (s.issue u (w.withCtl .yield))

/-- HALT (R140): CTL HALT puts the context in HALTED, unless remote operations are still outstanding. -/
def execHalt (u : SeqUnit) (w : Bundle) (s : State) :
    Host.Outcome State Fault Refusal :=
  .next (s.issue u (w.withCtl .halt))

end Sys2Proof.Machine
end

