-- ==== Sys2Proof/Machine/Digest.lean ====
section
/-! DEFINITION. Digests (R466 to R470) and the rows of the lock-step unit (R471 to R475). -/
namespace Sys2Proof.Machine

/-! Digests. -/

/-- The 8 B of a TAG (R469). -/
def tagBytes (t : String) : List Byte := t.toList.map (fun c => BitVec.ofNat 8 c.toNat)

/-- 32 zero bytes. -/
def zeroDigest : List Byte := List.replicate 32 0

/-- The bytes of a list of ranges, in order. -/
def State.rangeBytes (s : State) (l : List (Nat × Nat)) : List Byte := (l.map (fun r => s.bytes r.1 r.2)).flatten

/-- The first uncorrectable word of a list of ranges. -/
def State.badRange (s : State) (l : List (Nat × Nat)) : Option Nat := l.findSome? (fun r => s.badIn r.1 r.2)

/-- A digest over ranges, under a tag (R469). -/
def State.rangeDigest (s : State) (tag : String) (l : List (Nat × Nat)) : List Byte :=
  sha3 (tagBytes tag ++ leBytes 8 0 ++ s.rangeBytes l)

/-- WEIGHT_DIGEST of an entry (R466): entry 0 holds zeros. -/
def State.weightDigest (s : State) (e : Nat) : List Byte :=
  if e = 0 then zeroDigest else ((s.wsets.find e).map WSet.digest).getD zeroDigest

/-- The provenance block of a step: entry 0 and no range where it names none. -/
def State.provOf (s : State) (r : StepRec) : Nat × List (Nat × Nat) × List (Nat × Nat) :=
  match r.prov with
  | some off => s.provBlock off
  | none => (0, [], [])

/-- The provenance digest of a step (R469). -/
def State.provenance (s : State) (r : StepRec) (e : Nat) : List Byte :=
  sha3 (tagBytes "VXPROV01" ++ leBytes 8 0 ++ leBytes 32 r.digest ++ s.weightDigest e ++ r.inDigest ++
    leBytes 16 (s.effSignature r.exact))

/-- The step digest of lock-step (R469). -/
def stepDigest (seq status : Nat) (prov res : List Byte) : List Byte :=
  sha3 (tagBytes "VXSTEP01" ++ leBytes 8 seq ++ leBytes 8 status ++ leBytes 8 0 ++ prov ++ res)

/-- A DIGEST_A and its DIGEST_B raised (R468, R498, R499): they need two free slots, and are dropped together. -/
def State.emitDigests (s : State) (part cmdId code : Nat) (a b : List Byte) : State :=
  let head := leBytes 4 cmdId ++ leBytes 1 code ++ leBytes 3 0
  if s.fld R.prmEvtCfg part [] 15 15 = 1 ∧ s.evtFree part < 2 then
    let g := s.evtRing part
    ({ s with evt := s.evt.put part { g with seq := g.seq + 2 } }).bumpFld R.prmEvtStat part [] 47 16 2
  else (s.emit part evDigestA 0xFF (head ++ a)).emit part evDigestB 0xFF (head ++ b)

/-- A step's INPUT_DIGEST ends (R467): it becomes eligible, or completes UNCORRECTABLE. -/
def State.endInput (s : State) (r : StepRec) : State :=
  let l := (s.provOf r).2.1
  match s.badRange l with
  | some a => (s.memError a r.part).endStep r stUncorr 0 0
  | none => s.setStep { r with inDigest := s.rangeDigest "VXINPT01" l, eligible := true }

/-- The record of a completed step closed: dropped, unless lock-step has still to put it. -/
def State.closeStep (s : State) (r : StepRec) (res prov : List Byte) : State :=
  if r.lsSeq.isSome then s.setStep { r with hashed := true, resDigest := res, provDigest := prov }
  else { s with steps := s.steps.filter (fun (x : StepRec) => x.id != r.id) }

/-- A completed step's digests end (R468, R470): withheld for a status other than OK, and zeros under UNCORRECTABLE where the
hashing met an uncorrectable word. -/
def State.endResult (s : State) (r : StepRec) : State :=
  let p := s.provOf r
  let record (s : State) (code : Nat) (a b : List Byte) : State :=
    if r.prov.isSome then s.emitDigests r.part r.cmdId code a b else s
  if r.status ≠ stOK then (record s r.status zeroDigest zeroDigest).closeStep r zeroDigest zeroDigest
  else match s.badRange p.2.2 with
    | some a => (record (s.memError a r.part) stUncorr zeroDigest zeroDigest).closeStep r zeroDigest zeroDigest
    | none =>
      let r := if r.prov.isSome then r else { r with inDigest := s.rangeDigest "VXINPT01" [] }
      let res := s.rangeDigest "VXRSLT01" p.2.2
      let prov := s.provenance r p.1
      (record s stOK res prov).closeStep r res prov

/-- The ranges of a WSET command (R490). -/
def State.wsetRanges (s : State) (c : Cmd) : List (Nat × Nat) :=
  (List.range (c.field 0x1A 1)).map (fun i => (s.num (c.field 0x20 8 + 16 * i) 8, s.num (c.field 0x20 8 + 16 * i + 8) 8))

/-- The hashing of a WSET ends (R466): the entry is the partition's, its digest fixed and written to OUT. -/
def State.endWset (s : State) (c : Cmd) : State :=
  let l := s.wsetRanges c
  match s.badRange l with
  | some a => (s.memError a c.part).finishCmd c stUncorr 0 0 0 0
  | none =>
    let d := s.rangeDigest "VXWGHT01" l
    (({ s with wsets := s.wsets.put (c.field 0x18 2) { owner := c.part, digest := d } }).hostStore (c.field 0x28 8) d).finishCmd
      c stOK 0 0 0 0

/-! Lock-step. -/

/-- Whether an enabling write is refused (R471). -/
def State.lsBad (s : State) (w : Word) : Bool :=
  let inbox := s.fld R.prmLsInbox 31 [] 47 0
  let hbm := match regionOf inbox with
    | .hbm .. => true
    | _ => false
  !s.ident.b0 || !(s.exactMode (s.fld R.fxgEpoch 31 [] 15 0) (getField w 6 1)) ||
  (List.range s.numClusters).any (fun c => (s.operList c).any (fun e => e.type == 0)) ||
  (List.range 4).any (fun i => (List.range 8).any (fun t => s.fld R.irsStimerCfg (16 + i) [t] 31 31 == 1)) ||
  s.peerDown (s.fld R.prmLsPeer 31 [] 15 0) || inbox % 0x10000 != 0 || !hbm || s.lsState == 2

/-- A write of PRM_LS_CFG (R471, R473, R475, R478). -/
def State.writeLs (s : State) (m : Master) (v part : Word) : State :=
  let r := R.prmLsCfg
  let w := r.written (s.reg r 31 []) v part false false
  let t := getField w 25 16
  let w := if t < 1 ∨ 1000 < t then setField w 25 16 10 else w
  let st := s.lsState
  if w.getLsbD 0 then
    if st = 1 then s.setReg r 31 [] w
    else if s.lsBad w then (s.setReg r 31 [] (setField w 0 0 0)).refuseReg m r 31 [] v
    else
      let s := ((s.setReg r 31 [] w).setFld R.prmLsStat 31 [] 1 0 1).setReg R.prmLsSeq 31 [] 0
      { s with lsOwn := [], fabSeq := s.fabSeq.put 1048 0 }
  else
    let s := s.setReg r 31 [] w
    if st = 1 then s.lsDropPuts.setFld R.prmLsStat 31 [] 1 0 0 else s

/-- The record of a completed step is put into the peer's inbox, and compared if the peer's is there (R473, R474). -/
def State.lsRecordPut (s : State) (r : StepRec) : State :=
  match r.lsSeq with
  | none => s
  | some n =>
    let s := { s with steps := s.steps.filter (fun (x : StepRec) => x.id != r.id) }
    if s.lsState ≠ 1 then s
    else
      let d := stepDigest n r.status r.provDigest r.resDigest
      (({ s with lsOwn := s.lsOwn.put n (s.lc, d) }).lsPut n 1 r.status d).lsLook n

/-! Rows. -/

/-- CMD_WSET (R466): the next command of ring r, a WSET, starts. -/
def execCmdWset (r : Nat) (s : State) : Host.Outcome State Fault Refusal :=
  match s.nextOther r with
  | none => .next s
  | some c => if c.field 0 1 = 4 then .next (s.startCmd c) else .next s

/-- WSET_DIGEST_DONE (R466): the oldest WSET of ring r that hashes ends. -/
def execWsetDigestDone (r : Nat) (s : State) : Host.Outcome State Fault Refusal :=
  match s.ringCmd r (fun c => c.started && c.field 0 1 == 4) with
  | none => .next s
  | some c => .next (s.endWset c)

/-- INPUT_DIGEST_DONE (R467). -/
def execInputDigestDone (step : Nat) (s : State) : Host.Outcome State Fault Refusal :=
  match s.stepAt step with
  | none => .next s
  | some r => if r.st = .waiting ∧ r.prov.isSome ∧ r.eligible = false then .next (s.endInput r) else .next s

/-- RESULT_DIGEST_DONE (R468, R470). -/
def execResultDigestDone (step : Nat) (s : State) : Host.Outcome State Fault Refusal :=
  match s.stepAt step with
  | none => .next s
  | some r => if r.st = .ended ∧ r.hashed = false then .next (s.endResult r) else .next s

/-- LS_ENABLE (R471): PRM_LS_CFG written with EN. -/
def execLsEnable (m : Master) (v : BitVec 64) (s : State) : Host.Outcome State Fault Refusal :=
  .next (s.guardWrite m R.prmLsCfg 31 [] (fun s => s.writeLs m (v ||| 1) (partMask 0 8)))

/-- LS_DISABLE (R473, R475): PRM_LS_CFG written with EN at 0. -/
def execLsDisable (m : Master) (v : BitVec 64) (s : State) : Host.Outcome State Fault Refusal :=
  .next (s.guardWrite m R.prmLsCfg 31 [] (fun s => s.writeLs m (v &&& 0xFFFFFFFFFFFFFFFE) (partMask 0 8)))

/-- LS_RECORD_PUT (R473): the record of a completed step whose digests are complete. -/
def execLsRecordPut (step : Nat) (s : State) : Host.Outcome State Fault Refusal :=
  match s.stepAt step with
  | none => .next s
  | some r => if r.st = .ended ∧ r.hashed then .next (s.lsRecordPut r) else .next s

/-- LS_RECORD_ARRIVAL (R474, R475): the record of a SEQ in the own inbox is seen. -/
def execLsRecordArrival (seq : Nat) (s : State) : Host.Outcome State Fault Refusal := .next (s.lsLook seq)

/-- LS_TIMEOUT (R475): TIMEOUT_MS after the own record of a SEQ, the peer's has not arrived. -/
def execLsTimeout (seq : Nat) (s : State) : Host.Outcome State Fault Refusal :=
  match s.lsOwn.find seq with
  | none => .next s
  | some own =>
    if s.lsState ≠ 1 ∨ (s.lsInbox seq).isSome ∨ own.2.isEmpty then .next s
    else .next ((s.advanceTo (own.1 + s.fld R.prmLsCfg 31 [] 25 16 * 1000000)).lsStop 2 seq)

end Sys2Proof.Machine
end

