-- ==== Sys2Proof/Machine/RecOps.lean ====
section
/-! DEFINITION. PRM_RST_CMD (R516, R519, R527, R543), the watchdogs (R524, R525), and replays (R526 to R529). -/
namespace Sys2Proof.Machine

/-! PRM_RST_CMD. -/

/-- RESET (R514, R515, R543): an invalid level or target is refused. -/
def State.cmdReset (s : State) (m : Master) (v : Word) : State :=
  let level := getField v 2 0
  let target := getField v 21 8
  if s.resetTarget level target then s.triggerReset level target 0 (v.getLsbD 5) else s.refuseReg m R.prmRstCmd 31 [] v

/-- RELEASE (R519): the HELD domain that the command names moves to RESETTING; with none the command is refused. -/
def State.cmdRelease (s : State) (m : Master) (v : Word) : State :=
  match s.resets.find? (fun r => r.level == getField v 2 0 && r.target == getField v 21 8 && r.st == .held &&
      r.under.isNone && !r.late) with
  | none => s.refuseReg m R.prmRstCmd 31 [] v
  | some r => s.moveReset { r with heldTicks := r.heldTicks + (s.lc - r.heldFrom) } .resetting

/-- Whether a cluster's operating list holds a RADIO entry. -/
def State.hasRadio (s : State) (c : Nat) : Bool := (s.operList c).any (fun e => e.type == 0)

/-- QUARANTINE (R527): it takes effect when the cluster is free. -/
def State.cmdQuarantine (s : State) (m : Master) (v : Word) : State :=
  let c := getField v 21 8
  match s.physCluster c with
  | none => s.refuseReg m R.prmRstCmd 31 [] v
  | some p =>
    if decide (c ≥ s.numClusters) || s.hasRadio c || s.withdrawn p || s.quarantined.contains c || s.quarNext.contains c then
      s.refuseReg m R.prmRstCmd 31 [] v
    else if (s.holder p).isNone then { s with quarantined := s.quarantined ++ [c] }
    else { s with quarNext := s.quarNext ++ [c] }

/-- UNQUARANTINE (R527): refused while a replay runs on the cluster. -/
def State.cmdUnquarantine (s : State) (m : Master) (v : Word) : State :=
  let c := getField v 21 8
  match s.physCluster c with
  | none => s.refuseReg m R.prmRstCmd 31 [] v
  | some p =>
    if decide (c ≥ s.numClusters) || (s.holder p).any (fun r => r.replay) then s.refuseReg m R.prmRstCmd 31 [] v
    else { s with quarantined := s.quarantined.filter (fun x => x != c), quarNext := s.quarNext.filter (fun x => x != c) }

/-- PRM_RST_CMD written (R543): without GO nothing happens; levels 5 to 7 are refused. -/
def State.writeRst (s : State) (m : Master) (v : Word) : State :=
  if !(v.getLsbD 24) then s
  else if 5 ≤ getField v 2 0 then s.refuseReg m R.prmRstCmd 31 [] v
  else if getField v 4 3 = 0 then s.cmdReset m v
  else if getField v 4 3 = 1 then s.cmdRelease m v
  else if getField v 4 3 = 2 then s.cmdQuarantine m v
  else s.cmdUnquarantine m v

/-! Watchdogs. -/

/-- PRM_WDOG_CFG written (R543): HB_MS outside 10 to 10,000 is stored as 1,000; arming starts the count. -/
def State.writeWdog (s : State) (v part : Word) : State :=
  let d := R.prmWdogCfg
  let old := s.reg d 31 []
  let w := d.written old v part false false
  let w := if getField w 13 0 < 10 ∨ 10000 < getField w 13 0 then setField w 13 0 1000 else w
  let s := s.setReg d 31 [] w
  if w.getLsbD 14 && !(old.getLsbD 14) then { s with hbLc := s.lc } else s

/-- PRM_WDOG_HB written (R525): the count starts again. -/
def State.writeHb (s : State) : State := { s with hbLc := s.lc }

/-- The remote-wait watchdog (R524). -/
def State.remoteWdog (s : State) (u : SeqUnit) (k : Nat) : State :=
  let c := (s.seq u).ctx k
  match u, s.remote.find? (fun o => o.issuer == .ctx u k && c.awaits.contains o.id) with
  | .cluster p, some o =>
    if c.st != .waitRemote then s
    else
      let s := s.advanceTo (o.t0 + 2100000)
      s.triggerReset 0 (8 * s.logCluster p + k) 2 false
  | _, _ => s

/-- The engine watchdog (R524). -/
def State.engineWdog (s : State) (i q : Nat) : State :=
  let e := s.engq i q
  if e.running.isNone then s
  else
    let s := s.advanceTo (e.startLc + 4000000)
    s.triggerReset 1 (0x200 + 64 * i + q) 4 false

/-- The heartbeat watchdog (R524, R525). -/
def State.heartbeatWdog (s : State) : State :=
  let cfg := s.reg R.prmWdogCfg 31 []
  if !(cfg.getLsbD 14) then s
  else (s.advanceTo (s.hbLc + getField cfg 13 0 * 1000000)).triggerReset 3 0 5 false

/-! Replays. -/

/-- PRM_REPLAY_STAT.STATE replaced, with its RESULT, CYCLES and STATE event (R529). -/
def State.setReplay (s : State) (st result cycles : Nat) : State :=
  let d := R.prmReplayStat
  let old := s.fld d 31 [] 1 0
  let s := ((s.setFld d 31 [] 1 0 st).setFld d 31 [] 4 2 result).setFld d 31 [] 55 16 cycles
  if old = st then s else s.stateEvent (d.at 31 []) old st

/-- The three words of a cluster's suspect entry (R545). -/
def State.suspect (s : State) (p i : Nat) : Word × Word × Word :=
  let w (j : Nat) : Word := s.reg R.dhlClSuspect (p / 8) [p % 8, 3 * i + j]
  (w 0, w 1, w 2)

/-- The quarantined clusters that may take a replay, the lowest-numbered first (R528). -/
def State.replaySet (s : State) (width : Nat) : List Nat :=
  (((List.range s.numClusters).filter s.quarantined.contains).filterMap s.physCluster |>.filter s.clusterFree).take width

/-- The step that a replay runs (R528). -/
def State.replayStep (s : State) (img args cmdId part width : Nat) : StepRec :=
  let h := s.bytes img 256
  { id := s.nextStep, part := part, ring := 0, cmd := none, cmdId := cmdId, cls := 0, radio := bitOf (fieldOf h 7 1) 2
    epoch := s.fld R.fxgEpoch 31 [] 15 0, image := img, args := args, publish := 0, lbase := 0, prov := none, width := width
    slice := BitVec.ofNat 32 (fieldOf h 0x14 4), rate := fieldOf h 0x13 1, declared := fieldOf h 8 8
    ctxMask := fieldOf h 0x12 1, entries := (List.range 8).map (fun k => fieldOf h (0x20 + 4 * k) 4)
    codeLen := fieldOf h 0x1C 4, digest := fieldOf h 0x40 32, form := bitOf (fieldOf h 7 1) 1
    exactReq := bitOf (fieldOf h 7 1) 0, arith := fieldOf h 0x18 4, age := s.lc, seqno := 0, replay := true }

/-- Whether the rules of R59, R124 and R217 let a replay run on its clusters (R528). -/
def State.replayOk (s : State) (r : StepRec) (cs : List Nat) : Bool :=
  s.imageCheck r.part r.image true none == stOK && fieldOf (s.bytes r.image 256) 0x10 2 == r.width && cs.length == r.width &&
  cs.all (fun p => s.sliceOk (p / 8) r true &&
    decide (s.streamSum (p / 8) + (cs.filter (fun x => x / 8 == p / 8)).length * r.rate ≤ 26))

/-- PRM_REPLAY_CMD written (R528, R543). -/
def State.writeReplay (s : State) (m : Master) (v : Word) : State :=
  let d := R.prmReplayCmd
  if !(v.getLsbD 9) then s
  else if s.fld R.prmReplayStat 31 [] 1 0 = 1 then s.refuseReg m d 31 [] v
  else
    let refuse := (s.setReplay 2 4 0).refuseReg m d 31 [] v
    match s.physCluster (getField v 6 0) with
    | none => refuse
    | some p =>
      let w := s.suspect p (getField v 8 7)
      let r := s.replayStep (getField w.1 47 0) w.2.1.toNat (getField w.2.2 31 0) (getField w.2.2 37 32) (getField w.2.2 52 45)
      let cs := s.replaySet r.width
      if !(w.2.2.getLsbD 63) || r.width == 0 || !(s.replayOk r cs) then refuse
      else ({ s.setReplay 1 0 0 with steps := s.steps ++ [r], nextStep := s.nextStep + 1 }).place r cs true

/-- The replay that runs. -/
def State.replayRec (s : State) : Option StepRec := s.steps.find? (fun r => r.replay)

/-- The most lane cycles that a step's clusters have run since step cycle 0. -/
def State.replayCycles (s : State) (r : StepRec) : Nat :=
  (r.clusters.map (fun p => let q := s.seq (.cluster p); if q.done then q.doneC else q.cycles)).foldl max 0

/-- A replay that ends by itself: its clusters are released, and it publishes nothing (R528). -/
def State.closeReplay (s : State) (r : StepRec) (result : Nat) : State :=
  let n := s.replayCycles r
  let s := r.clusters.foldl (fun s p => (s.traceEnd r p (if result = 3 then r.status else stOK) (s.seq (.cluster p)).cycles).release p) s
  ({ s with steps := s.steps.filter (fun x => x.id != r.id) }).setReplay 2 result n

/-- A HUNG replay (R529): it is fenced, and L1 of each of its clusters follows. -/
def State.hangReplay (s : State) (r : StepRec) (cause cycles : Nat) : State :=
  r.clusters.foldl (fun s p => s.triggerReset 1 (s.logCluster p) cause false) (s.setReplay 2 2 cycles)

/-- The lane cycles after step cycle 0 at which a replay is HUNG (R529). -/
def StepRec.hangCycles (r : StepRec) : Nat := 2 * r.declared + 65536

/-- The LC tick at which a replay is HUNG: the first at which one of its clusters has run its time. -/
def State.hangLc (s : State) (r : StepRec) : Nat :=
  ((r.clusters.map (fun p => let q := s.seq (.cluster p); q.lcStart + cdiv (r.hangCycles * 4096) (max q.lcRate 1))).min?).getD s.lc

/-- The replay ends (R529): COMPLETED at DONE of every cluster, FAULTED after the drain of an exception, HUNG after its
time. The cause that the resets of a HUNG replay show is a free value. -/
def State.endReplay (s : State) : State :=
  if s.fld R.prmReplayStat 31 [] 1 0 ≠ 1 then s
  else match s.replayRec with
    | none => s.setReplay 2 2 0
    | some r =>
      let t := if r.st = .draining then r.clusters.foldl (fun s p => s.drainUnit p) s else s
      if r.clusters.all (fun p => (s.seq (.cluster p)).done) then s.closeReplay r 1
      else if r.st = .draining ∧ t.stillDraining r = false then t.closeReplay r 3
      else
        let d := s.draw
        (d.2.advanceTo (s.hangLc r)).hangReplay r (d.1 % 16) r.hangCycles

/-- The quiesce watchdog (R524, R529): the cluster has stopped or decided and is not free 4,096 lane cycles on. -/
def State.quiesceWdog (s : State) (c : Nat) : State :=
  match s.physCluster c with
  | none => s
  | some p => match s.holder p with
    | none => s
    | some r =>
      let q := s.seq (.cluster p)
      if !(q.stopped || q.committing || q.done || r.st == .aborting) then s
      else
        let s := s.advanceTo (q.lcStart + cdiv ((q.cycles + 4096) * 4096) (max q.lcRate 1))
        if r.replay && s.fld R.prmReplayStat 31 [] 1 0 == 1 then s.hangReplay r 3 (q.cycles + 4096)
        else s.triggerReset 1 c 3 false

end Sys2Proof.Machine
end

