-- ==== Sys2Proof/Machine/PwrOps.lean ====
section
/-! DEFINITION. Power domains (R574 to R577), the power and thermal controller (R580 to R583), and the sideband (R585). -/
namespace Sys2Proof.Machine

/-! Power domains. -/

/-- The parents of a power domain (R575). -/
def pdParents (n : Nat) : List Nat :=
  (if n < 32 then (if n % 2 = 0 then [n + 1] else [])
   else if n < 40 then (if n % 2 = 0 then [n + 1] else [])
   else if n < 44 then (if n % 2 = 1 then [n - 1] else [])
   else if n < 48 then [n + 4]
   else if n = 52 then [53]
   else if n = 56 ∨ n = 57 then [59]
   else if n = 55 ∨ n = 58 ∨ n = 59 then [54]
   else []) ++ (if n < 54 then [59] else [])

/-- The children of a power domain. -/
def pdChildren (n : Nat) : List Nat := (List.range 60).filter (fun x => (pdParents x).contains n)

/-- The die of a power domain (R574). -/
def pdDie (n : Nat) : Nat :=
  if n < 32 then n / 2 else if n < 40 then 16 + (n - 32) / 2 else if n < 44 then 20 + (n - 40) / 2
  else if n < 48 then 22 + (n - 44) else if n < 52 then 26 + (n - 48) else if n < 54 then 30 else 31

/-- The clusters of a Dahlia power domain. -/
def pdClusters (n : Nat) : List Nat := if n < 32 then (List.range 8).map (fun l => 8 * (n / 2) + l) else []

/-- Whether a slot timer of an Iris die is enabled. -/
def State.timerOn (s : State) (die : Nat) : Bool := (List.range 8).any (fun t => s.fld R.irsStimerCfg die [t] 31 31 == 1)

/-- Whether R577 refuses a command for a domain. The reset domain that contains a power domain is the chip. -/
def State.pdRefused (s : State) (n : Nat) (on : Bool) : Bool :=
  decide (54 ≤ n) || !(s.dieOn (pdDie n)) || s.pdState n == 2 || s.resets.any (fun r => decide (3 ≤ r.level)) ||
  (on && (pdParents n).any (fun x => !(s.pdOn x))) ||
  (!on && ((pdChildren n).any (fun x => s.pdState x != 0) ||
    (pdClusters n).any (fun p => (s.holder p).isSome || s.hasRadio (s.logCluster p)) ||
    (decide (33 ≤ n) && decide (n ≤ 39) && n % 2 == 1 && s.timerOn (pdDie n))))

/-- PRM_PD_CMD written (R577): without GO nothing happens; a domain that already reads its target stays as it is. A domain loses its
state as it leaves ON (R576). -/
def State.writePd (s : State) (m : Master) (v : Word) : State :=
  let n := getField v 5 0
  let on := v.getLsbD 6
  if !(v.getLsbD 7) then s
  else if s.pdRefused n on then s.refuseReg m R.prmPdCmd 31 [] v
  else if s.pdState n = b2n on then s
  else
    let s := if on then s else s.loseDomain n
    { s.setPd n 2 with pdGo := s.pdGo.put n (b2n on) }

/-- A domain's transition ends (R576, R577). -/
def State.endPd (s : State) (n : Nat) : State :=
  match s.pdGo.find n with
  | none => s
  | some t =>
    let s := { s.setPd n t with pdGo := s.pdGo.del n }
    if t = 1 then s.enterDomain n else s

/-! Power and heat. -/

/-- A CAUSE bit after a measurement (R580, R581): `high` says that it is at or above its threshold, `low` that it is below the
threshold by the hysteresis. The bit falls once the measurement has stayed so for 1 ms. -/
def State.setCause (s : State) (b : Nat) (high low : Bool) : State :=
  let d := R.fxgThrottle
  let p := s.power
  if high then { s.setFld d 31 [] b b 1 with power := { p with below := p.below.del b } }
  else if s.fld d 31 [] b b = 0 then s
  else if !low then { s with power := { p with below := p.below.del b } }
  else
    let t := p.below.getD b s.lc
    if t + 1000000 ≤ s.lc then { s.setFld d 31 [] b b 0 with power := { p with below := p.below.del b } }
    else { s with power := { p with below := p.below.put b t } }

/-- Every running tenant step aborted (R285). -/
def State.shed (s : State) : State :=
  (s.steps.filter (fun r => r.st == .placed && !r.radio && !r.replay)).foldl (fun s r =>
    match s.stepAt r.id with
    | none => s
    | some r => s.abortNow r false) s

/-- FXG_THROTTLE.LEVEL as the causes that hold demand (R580), its copy in PRM_PWR_STAT, and what SHED does (R285). -/
def State.setLevel (s : State) : State :=
  let d := R.fxgThrottle
  let c (b : Nat) : Bool := s.fld d 31 [] b b == 1
  let n := if c 3 || c 5 || c 7 then 2 else if c 2 || c 4 || c 6 then 1 else 0
  let old := s.fld d 31 [] 1 0
  let s := s.setFld d 31 [] 1 0 n
  let s := s.setFld R.prmPwrStat 31 [] 39 32 (s.fld d 31 [] 7 0)
  if n = 2 ∧ old ≠ 2 then s.shed else s

/-- Whether the average of readings in 0.125 W is at or above a number of watts (R580). -/
def avgAtLeast (l : List Nat) (watts : Nat) : Bool := decide (watts * 8 * l.length ≤ l.sum) && !l.isEmpty

/-- Whether the average of readings has stayed below a number of watts by 25 W (R581). -/
def avgBelow (l : List Nat) (watts : Nat) : Bool := decide (l.sum + 200 * l.length ≤ watts * 8 * l.length)

/-- A measurement of package power in 0.125 W, and of the rail current nearest its maximum in thousandths of it (R580, R581). -/
def State.powerSample (s : State) (power rail : Nat) : State :=
  let s := s.advanceTo ((s.lc / 10000 + 1) * 10000)
  let l := (min power 65535 :: s.power.watts).take 100
  let s := { s with power := { s.power with watts := l, rail := rail } }
  let s := s.setFld R.prmPwrStat 31 [] 15 0 (l.sum / l.length)
  let hold := s.fld R.prmPwrCfg 31 [] 31 16
  let shed := s.fld R.prmPwrCfg 31 [] 47 32
  let card := s.cardLimit
  let s := s.setCause 4 (avgAtLeast l hold) (avgBelow l hold)
  let s := s.setCause 5 (avgAtLeast (l.take 10) shed) (avgBelow (l.take 10) shed)
  let s := s.setCause 6 (card != 0 && avgAtLeast l card) (card == 0 || avgBelow l card)
  (s.setCause 7 (decide (950 < rail)) (decide (rail ≤ 950))).setLevel

/-- Whether a die takes part in the temperature conditions (R580). -/
def State.dieHot (s : State) (d : Nat) : Bool := s.dieOn d && (List.range 60).any (fun n => pdDie n == d && s.pdOn n)

/-- A measurement of every die's hottest sensor in °C (R580, R581, R590). -/
def State.tempSample (s : State) (temps : List Int) : State :=
  let s := s.advanceTo ((s.lc / 100000 + 1) * 100000)
  let dies := (List.range 32).filter s.dieHot
  let t (d : Nat) : Int := max (-128) (min 127 (temps.getD d 0))
  let s := { s with power := { s.power with temps := (List.range 32).map t } }
  let s := (List.range 32).foldl (fun s d =>
    s.setFld R.prmTemp 31 [d / 8] (8 * (d % 8) + 7) (8 * (d % 8)) (if dies.contains d then wrapInt 8 (t d) else 0)) s
  let top := dies.foldl (fun (b : Nat × Int) d => if b.2 < t d then (d, t d) else b) (31, t 31)
  let top := match dies.find? (fun d => t d == top.2) with
    | none => top
    | some d => (d, top.2)
  let s := (s.setFld R.prmPwrStat 31 [] 23 16 (wrapInt 8 top.2)).setFld R.prmPwrStat 31 [] 28 24 top.1
  let hold : Int := s.fld R.prmPwrCfg 31 [] 7 0
  let shed : Int := s.fld R.prmPwrCfg 31 [] 15 8
  let s := s.setCause 2 (dies.any (fun d => decide (hold ≤ t d))) (dies.all (fun d => decide (t d ≤ hold - 2)))
  (s.setCause 3 (dies.any (fun d => decide (shed ≤ t d))) (dies.all (fun d => decide (t d ≤ shed - 2)))).setLevel

/-- PRM_PWR_CFG written (R582): beyond Foxglove's limits, or with a HOLD value above its SHED value, it is refused whole. -/
def State.writePwr (s : State) (m : Master) (v part : Word) : State :=
  let d := R.prmPwrCfg
  let w := d.written (s.reg d 31 []) v part false false
  if decide (s.fld R.fxgPwrLim 31 [] 23 16 < getField w 15 8) || decide (s.fld R.fxgPwrLim 31 [] 15 0 < getField w 47 32) ||
      decide (getField w 15 8 < getField w 7 0) || decide (getField w 47 32 < getField w 31 16) then
    s.refuseReg m d 31 [] v
  else s.setReg d 31 [] w

/-! Sideband. -/

/-- The 5 B of telemetry (R585). -/
def State.telemetry (s : State) : List Byte :=
  let d := R.prmPwrStat
  leBytes 2 (s.fld d 31 [] 15 0) ++ leBytes 1 (s.fld d 31 [] 23 16) ++ leBytes 1 (s.fld d 31 [] 28 24) ++
  leBytes 1 (s.fld d 31 [] 39 32)

end Sys2Proof.Machine
end

