-- ==== Sys2Proof/Machine/DbgCmd.lean ====
section
/-! DEFINITION. The debug unit (R546 to R560): permission, authentication, halts, the global stop, the writes of trace, counter,
watchpoint, breakpoint and tensor-watch registers (R562 to R573). -/
namespace Sys2Proof.Machine

/-! Permission. -/

/-- The level that the TAP path holds (R548). -/
def State.tapLevel (s : State) : Nat :=
  if s.ident.lcState < 2 then 3 else if s.ident.lcState < 4 then s.fld R.prmDbgStat 31 [] 17 16 else 0

/-- The level that a path holds (R548). -/
def State.pathLevel (s : State) (p : DbgPath) : Nat :=
  match p with
  | .tap => s.tapLevel
  | .host _ => if s.ident.lcState = 4 then 0 else 2

/-- Whether the TAP path answers nothing but IDCODE and BYPASS (R548). -/
def State.tapClosed (s : State) : Bool := decide (4 ≤ s.ident.lcState)

/-- RESULT of the last command (R570). -/
def State.setResult (s : State) (st : Nat) : State := s.setFld R.prmDbgStat 31 [] 15 8 st

/-- A command refused for want of a level, or a failed token (R550): on the TAP path of a DEPLOYED device it is a tamper event. -/
def State.dbgDenied (s : State) (p : DbgPath) : State :=
  let s := s.setResult stNoUnit
  if p = .tap ∧ s.ident.lcState = 3 then s.tamper .debug else s

/-- A command refused for another reason. -/
def State.dbgRefused (s : State) : State := s.setResult stNoUnit

/-- A debug command of a path that needs a level (R547, R548). -/
def State.dbgRun (s : State) (p : DbgPath) (level : Nat) (k : State → State) : State :=
  if s.pathLevel p < level || (p == .tap && s.tapClosed) then s.dbgDenied p else k s

/-! Halt, resume and step. -/

/-- The sequencer that a TARGET names (R514, R551), if its domain is ON. -/
def State.dbgUnit (s : State) (t : Nat) : Option SeqUnit :=
  if t < 128 then
    match s.physCluster t with
    | none => none
    | some p => if s.pdOn (2 * (p / 8) + 1) then some (.cluster p) else none
  else if 0x100 ≤ t ∧ t < 0x100 + 192 then
    (if s.pdOn (32 + 2 * ((t - 0x100) / 48)) then some (.iris (t - 0x100)) else none)
  else none

/-- Whether a unit carries radio work (R552). -/
def State.radioUnit (s : State) (u : SeqUnit) : Bool :=
  match u with
  | .cluster p => (s.fld R.fxgGate 31 [] 0 0 == 1 && s.typeOf (s.logCluster p) == 0) || (s.holder p).any (fun r => r.radio)
  | .iris n => s.timerOn (16 + n / 48)

/-- HALT (R551, R552). -/
def State.dbgHalt (s : State) (t : Nat) (force : Bool) : State :=
  match s.dbgUnit t with
  | none => s.dbgRefused
  | some u => if s.radioUnit u && !force then s.dbgRefused else (s.haltUnit u 1 0).setResult stOK

/-- RESUME (R551): during a global stop the unit stays stopped by it. -/
def State.dbgResume (s : State) (t : Nat) : State :=
  match s.dbgUnit t with
  | none => s.dbgRefused
  | some u =>
    if s.gstopped then (if (s.seq u).dbgHalted then s.setSeq u { s.seq u with dbgCause := 5, dbgIndex := 0 } else s).setResult stOK
    else (s.resumeUnit u).setResult stOK

/-- STEP (R553): a halted unit runs n of its own cycles. -/
def State.dbgStep (s : State) (t n : Nat) : State :=
  match s.dbgUnit t with
  | none => s.dbgRefused
  | some u =>
    if n = 0 || s.gstopped || !(s.seq u).dbgHalted then s.dbgRefused
    else
      let s := s.resumeUnit u
      (s.setSeq u { s.seq u with dbgStep := some ((s.seq u).cycles + n) }).setResult stOK

/-- A STEP's cycles have run out (R553, R554): the unit halts again, unless a bundle is still to issue before the end. -/
def State.stepEnd (s : State) (u : SeqUnit) : State :=
  let q := s.seq u
  match q.dbgStep with
  | none => s
  | some e =>
    let frz := q.frzUnsched + q.frzOwn
    if q.run.isSome && q.canIssue then s
    else
      let s := s.advanceTo (s.cycleLc u (e - frz))
      let s := s.settle u (e - frz - 1)
      let q := s.seq u
      if q.stopped || !q.active then s.setSeq u { q with dbgStep := none }
      else (s.setSeq u { q with cyc := max q.cyc (e - frz) }).haltUnit u 4 0

/-! Global stop. -/

/-- GRESUME (R560): the LC instant that PRM_DBG_ADDR names, if the stop may end at it. -/
def State.gresumeAt (s : State) : Option Nat :=
  let a := s.fld R.prmDbgAddr 31 [] 47 0
  let t := s.lc / 2 ^ 48 * 2 ^ 48 + a
  let t := if t < s.lc then t + 2 ^ 48 else t
  if !s.gstopped || s.fld R.prmDbgStat 31 [] 4 2 == 3 || decide (t < s.lc + 2000) || decide (s.lc + 1000000000 < t) then none
  else some t

/-- GRESUME (R560). -/
def State.dbgGresume (s : State) : State :=
  match s.gresumeAt with
  | none => s.dbgRefused
  | some t => { s with gresume := some t }.setResult stOK

/-- The stop ends at its instant (R560): every unit that it stopped restarts, and a running engine job ends later by its
length. -/
def State.globalResume (s : State) : State :=
  match s.gresume with
  | none => s
  | some t =>
    if !s.gstopped then s
    else
      let s := s.advanceTo t
      let s := (List.range 32).foldl (fun s d => if s.dieOn d then s.pmuSync d else s) s
      let s := s.setFld R.prmDbgStat 31 [] 1 1 0
      let s := allUnits.foldl (fun s u => if (s.seq u).dbgHalted && (s.seq u).dbgCause == 5 then s.resumeUnit u else s) s
      let n := s.lc - s.gstopLc
      { s with
        gresume := none
        eng := s.eng.map (fun (e : Nat × EngQ) => (e.1, if e.2.running.isSome then { e.2 with startLc := e.2.startLc + n } else e.2)) }

/-! Authentication. -/

/-- The bytes of the authentication buffer (R549, R570). -/
def State.authBytes (s : State) (off n : Nat) : List Byte :=
  (List.range n).map (fun i => BitVec.ofNat 8 ((s.reg R.prmDbgAuthbuf 31 [(off + i) / 8 % 512]).toNat / 2 ^ (8 * ((off + i) % 8))))

/-- Four bytes of the authentication buffer replaced. -/
def State.setAuth (s : State) (off v : Nat) : State :=
  let lo := 32 * (off / 4 % 2)
  s.setFld R.prmDbgAuthbuf 31 [off / 8 % 512] (lo + 31) lo v

/-- AUTH_NONCE (R549): 32 fresh bytes in the buffer; an earlier nonce is void. -/
def State.authNonce (s : State) : State :=
  let b : List Byte := (List.range 32).map (fun i => BitVec.ofNat 8 (Config.freeValue (s.free + i)))
  let s := { s with free := s.free + 32, nonce := some b }
  let s := (List.range 8).foldl (fun s i => s.setAuth (4 * i) (leNat ((b.drop (4 * i)).take 4))) s
  s.setResult stOK

/-- Whether the token in the buffer is good (R549): its nonce, its device, its level, and both signatures by a key that admits
images. -/
def State.tokenOk (s : State) : Bool :=
  let msg := s.authBytes 0 0x40
  let level := leNat (s.authBytes 0x30 1)
  s.nonce == some (s.authBytes 0 0x20) && s.authBytes 0x20 16 == s.ident.uid && decide (1 ≤ level) && decide (level ≤ 3) &&
  (s.authBytes 0x31 15).all (fun b => b == 0) &&
  s.ident.admitted.any (fun h => Config.verifyByHash h msg (s.authBytes 0x40 64) (s.authBytes 0x80 3309))

/-- AUTH_TOKEN (R549, R550): on success the TAP path holds LEVEL, and the nonce is spent. -/
def State.authToken (s : State) (p : DbgPath) : State :=
  if s.tokenOk then
    ({ s.setFld R.prmDbgStat 31 [] 17 16 (leNat (s.authBytes 0x30 1)) with nonce := none }).setResult stOK
  else s.dbgDenied p

/-! Trace and counter registers. -/

/-- A write of a register of a die's trace unit (R562, R564, R572). Setting EN with a BASE outside the HBM3E stacks of enabled dies
stores EN as 0; clearing EN writes out the held records and a loss record. -/
def State.writeTrcCfg (s : State) (m : Master) (die : Nat) (v part : Word) : State :=
  let d := R.trcCfg
  let old := s.reg d die []
  let w := d.written old v part false false
  if old.getLsbD 0 && !(w.getLsbD 0) then
    let s := ((s.trcFlush die).trcLoss die).trcFlush die
    s.setReg d die [] w
  else if w.getLsbD 0 && !(old.getLsbD 0) then
    let ok := match regionOf (s.fld R.trcBase die [] 47 0) with
      | .hbm x _ => s.dieOn x
      | _ => false
    if ok then (s.setFld R.trcStat die [] 19 19 0).setReg d die [] w
    else (s.setReg d die [] (setField w 0 0 0)).refuseReg m d die [] v
  else s.setReg d die [] w

/-- A write of _TRC_BASE: bits [23:0] are stored as 0 (R572); one outside the HBM3E stacks of enabled dies stores EN as 0 and is
reported (R562). -/
def State.writeTrcBase (s : State) (m : Master) (die : Nat) (v part : Word) : State :=
  let d := R.trcBase
  let w := setField (d.written (s.reg d die []) v part false false) 23 0 0
  let s := s.setReg d die [] w
  let ok := match regionOf (getField w 47 0) with
    | .hbm x _ => s.dieOn x
    | _ => false
  if ok then s
  else
    let s := if s.fld R.trcCfg die [] 0 0 = 1 then ((s.trcFlush die).setFld R.trcCfg die [] 0 0 0) else s
    s.refuseReg m d die [] v

/-- A write of a counter register (R565, R572): the counters are brought up to the present tick first. -/
def State.writePmu (s : State) (r : RegD) (die : Nat) (ix : List Nat) (v part : Word) : State :=
  let s := s.pmuSync die
  s.setReg r die ix (r.written (s.reg r die ix) v part false false)

/-- A write of a watchpoint (R572): BASE [5:0] and an ACTION of 3 are stored as 0. -/
def State.writeWp (s : State) (r : RegD) (die : Nat) (ix : List Nat) (v part : Word) : State :=
  let w := r.written (s.reg r die ix) v part false false
  s.setReg r die ix (if r.off = R.wpW0.off then setField w 5 0 0 else if getField w 22 21 = 3 then setField w 22 21 0 else w)

/-- A write of a breakpoint (R571): an ACTION of 3 is stored as 0, and on an Iris core the bits of contexts 4 to 7. Level 2 is held
by neither path in RETIRED (R548). -/
def State.writeBp (s : State) (r : RegD) (die : Nat) (ix : List Nat) (v part : Word) : State :=
  if s.tapClosed then s
  else
    let w := r.written (s.reg r die ix) v part false false
    let w := if getField w 2 1 = 3 then setField w 2 1 0 else w
    s.setReg r die ix (if 16 ≤ die then setField w 10 7 0 else w)

/-- A breakpoint that fires on a unit's next bundle (R555): every one that names it counts a hit, and the lowest decides. -/
def State.breakHit (s : State) (u : SeqUnit) (k : Nat) : State :=
  let l := s.bpHits u k
  match l with
  | [] => s
  | i :: _ =>
    let act := getField (s.bpReg u i) 2 1
    let s := l.foldl (fun s j =>
      let w := s.bpReg u j
      let w := setField w 63 32 (satAdd (getField w 63 32) 1 (2 ^ 32 - 1))
      s.setBp u j (if w.getLsbD 24 then setField w 0 0 0 else w)) s
    let s := s.setSeq u { s.seq u with bpPass := true }
    if act = 0 then s.haltUnit u 2 i
    else if act = 1 then s.globalStop 1
    else s.trace (unitDie u) (some 2) 0x04 (localUnit u) (s.seq u).part
      (leBytes 1 i ++ leBytes 1 k ++ leBytes 2 ((s.seq u).ctx k).pc)

/-- TW_CFG written (R569): every other field of the watch point is cleared, TAG among them. -/
def State.writeTw (s : State) (fn w : Nat) (v part : Word) : State :=
  let d := R.twCfg
  let x := d.written (s.reg d fn [w]) v part false false
  let lo := d.at fn [w]
  ({ s with regs := s.regs.outside lo 0x100, twLast := s.twLast.del lo }).setReg d fn [w] x

end Sys2Proof.Machine
end

