-- ==== Sys2Proof/Machine/Foxglove.lean ====
section
/-! DEFINITION. The meanings of the slot-guard and admission rows (R250 to R290), the end of a faulted step (R133), and
the retirement of a lane row (R43, R44). -/
namespace Sys2Proof.Machine

/-- GATE_CYCLE_BOUNDARY (R251, R252): the next boundary of the schedule, with the swap of an armed change set where it is
due there. -/
def execGateCycleBoundary (s : State) : Host.Outcome State Fault Refusal :=
  if s.fld R.fxgGate 31 [] 0 0 = 0 then .next s
  else if s.swapDue then .next s.swap
  else .next s.boundary

/-- GATE_ENTRY_BOUNDARY (R252): the next entry of logical cluster c comes into force; the end of the last entry is the
cycle's boundary. -/
def execGateEntryBoundary (c : Nat) (s : State) : Host.Outcome State Fault Refusal :=
  let i := s.entryOf c + 1
  if c ≥ s.numClusters ∨ i ≥ (s.operList c).length then .next s
  else .next ((s.advanceTo (s.lcOfArt (s.entryStart c i))).enterEntry c i)

/-- DIE_RATE_UPDATE (R268): at the next multiple of 4,096 LC ticks each enabled die's RATE takes its measured value; a
die that is disabled or off, or whose RATE is 0, shows STOPPED. -/
def execDieRateUpdate (rates : List Nat) (s : State) : Host.Outcome State Fault Refusal :=
  let s := s.advanceTo ((s.lc / 4096 + 1) * 4096)
  .next ((List.range 16).foldl (fun s d =>
    let s := s.pmuSync d
    let on := s.dieOn d && s.pdOn (2 * d + 1)
    let v := if on then min (rates.getD d 0) 65535 else 0
    (s.setFld R.fxgDieRate 31 [d] 15 0 v).setFld R.fxgDieRate 31 [d] 16 16 (b2n (v == 0))) s)

/-- FXG_APPLY (R260): PRM_FXG_CMD written with APPLY and GO. -/
def execFxgApply (m : Master) (v : BitVec 64) (s : State) : Host.Outcome State Fault Refusal :=
  .next (s.guardWrite m R.prmFxgCmd 31 [] (fun s => s.writeFxgCmd (setField v 3 0 1 ||| 0x100)))

/-- FXG_CANCEL (R263): PRM_FXG_CMD written with CANCEL and GO. -/
def execFxgCancel (m : Master) (v : BitVec 64) (s : State) : Host.Outcome State Fault Refusal :=
  .next (s.guardWrite m R.prmFxgCmd 31 [] (fun s => s.writeFxgCmd (setField v 3 0 2 ||| 0x100)))

/-- FXG_VALIDATION_DONE (R260, R261): the validation that runs ends. -/
def execFxgValidationDone (s : State) : Host.Outcome State Fault Refusal :=
  if s.changeState = 1 then .next s.fxgValidated else .next s

/-- FXG_SWAP (R262): the armed change set swaps at its boundary. -/
def execFxgSwap (s : State) : Host.Outcome State Fault Refusal := if s.swapDue then .next s.swap else .next s

/-- FXG_DRAIN_EMPTY (R267): DRAINING ends when no step of the previous epoch is left. -/
def execFxgDrainEmpty (s : State) : Host.Outcome State Fault Refusal :=
  if s.changeState = 3 ∧ s.prevSteps = false then .next s.endDrain else .next s

/-- FXG_DRAIN_TIMEOUT (R267): after DRAIN_GC gate cycles the queued steps of the previous epoch complete STALE_EPOCH. -/
def execFxgDrainTimeout (s : State) : Host.Outcome State Fault Refusal :=
  if s.changeState = 3 ∧ s.fld R.fxgEpoch 31 [] 47 40 = 0 then .next (s.staleSteps.endDrain) else .next s

/-- ADMISSION_DECISION (R274): the admission unit places what it can. -/
def execAdmissionDecision (s : State) : Host.Outcome State Fault Refusal := .next (s.admission s.steps.length)

/-- RADIO_STEP_PLACEMENT (R277): the oldest RADIO step that waits is placed on LBASE onward once each of those clusters
is in a RADIO entry and free. -/
def execRadioStepPlacement (s : State) : Host.Outcome State Fault Refusal :=
  match s.steps.find? (fun r => r.st == .waiting && r.radio) with
  | none => .next s
  | some r =>
    let ps := (List.range r.width).filterMap (fun i => s.physCluster (r.lbase + i))
    let exact := s.exactMode r.epoch 0
    let fits (p : Nat) : Bool :=
      s.clusterFree p && !(s.quarantined.contains (s.logCluster p)) && s.typeOf (s.logCluster p) == 0 &&
      s.sliceOk (p / 8) r exact &&
      decide (s.streamSum (p / 8) + ((ps.filter (fun x => x / 8 == p / 8)).length) * r.rate ≤ 26)
    if ps.length = r.width ∧ ps.all fits ∧ s.tamperStop = false ∧ s.gstopped = false ∧ s.replayHolds 0 = false ∧ r.eligible ∧
        s.drainedOut r = false then .next (s.place r ps exact)
    else .next s

/-- The registers of a context at step cycle 0 (R84). -/
def startCtx (q : Seq) (r : StepRec) (k : Nat) : Ctx :=
  let c := q.ctx k
  if !(bitOf r.ctxMask k) then c
  else { c with
    st := .ready, pc := r.entries.getD k 0
    s := [(0, BitVec.ofNat 64 q.rank), (1, BitVec.ofNat 64 r.width), (2, BitVec.ofNat 64 r.args), (3, BitVec.ofNat 64 k)] }

/-- The most lane cycles from the decision to step cycle 0 (R271): a tenant image loads in BULK, with no bound. -/
def State.startBound (s : State) (r : StepRec) (fresh : Bool) (dt : Nat) : Nat :=
  if !fresh then min dt 128 else if r.radio then min dt (128 + cdiv (r.codeLen * 32) 1024) else dt

/-- STEP_START (R84, R271): step cycle 0 begins on logical cluster c, dt lane cycles after the decision, and context 0
issues its entry bundle at step cycle 4. -/
def execStepStart (c dt : Nat) (s : State) : Host.Outcome State Fault Refusal :=
  match s.physCluster c with
  | none => .next s
  | some p =>
    let u := SeqUnit.cluster p
    let q := s.seq u
    match s.holder p with
    | none => .next s
    | some r =>
      if !q.active || q.started || q.stopped || q.dbgHalted then .next s
      else
        let dt := s.startBound r q.loaded dt
        let start := r.placedLc + q.lcStart + cdiv (dt * 4096) (max q.lcRate 1)
        let s := s.advanceTo start
        let ctxs := (List.range 8).map (fun k => (k, startCtx q r k))
        let q := { q with ctxs := ctxs, started := true, cyc := 0, lcStart := start, idleFrom := 0 }
        let s := s.trace (p / 8) (some 0) 0x01 (p % 8) r.part (leBytes 4 r.cmdId ++ leBytes 4 0 ++ leBytes 8 r.declared)
        .next (s.setSeq u { q.setCtx 0 { q.ctx 0 with st := .running } with run := some 0, last := 0, next := 4 })

/-- STEP_COMMIT_DECISION (R278): a step whose clusters all reached DONE in time commits. -/
def execStepCommitDecision (step : Nat) (s : State) : Host.Outcome State Fault Refusal :=
  match s.stepAt step with
  | none => .next s
  | some r => if s.commitReady r && !r.replay then .next (s.commitStep r) else .next s

/-- ABORT_AT_EDGE (R282): the slot guard aborts the step on logical cluster c at the first lane cycle at or after its
deadline. -/
def execAbortAtEdge (c : Nat) (s : State) : Host.Outcome State Fault Refusal :=
  match s.physCluster c with
  | none => .next s
  | some p => match s.holder p with
    | none => .next s
    | some r => match r.deadline with
      | none => .next s
      | some d =>
        let u := SeqUnit.cluster p
        if s.commitReady r || r.st == .draining then .next s
        else
          let s := s.advanceTo d
          let q := s.seq u
          let n := if q.dbgHalted then q.cycles else if q.started then q.edgeCycle d else 0
          let s := s.cutAt u n
          -- an exception recorded on the way fixes the step's status instead (R134, R284)
          match s.holder p with
          | none => .next s
          | some r => if r.st == .draining then .next s else .next (s.abortOn r p n)

/-- FAULT_DRAIN_COMPLETE (R133, R134): once every operation of a faulted step has ended, the step completes with its
status and releases its clusters. -/
def execFaultDrainComplete (step : Nat) (s : State) : Host.Outcome State Fault Refusal :=
  match s.stepAt step with
  | none => .next s
  | some r =>
    if r.st != .draining || r.replay then .next s else .next (s.endDrained r)

/-! COMMIT. -/

/-- The registers that record a shadow mismatch on a cluster (R541, R545). The lane supply voltage is a free value. -/
def State.shadowSnap (s : State) (p : Nat) : State :=
  let d := p / 8
  let q := s.seq (.cluster p)
  let v := s.draw
  let temp := v.2.fld R.prmTemp 31 [d / 8] (8 * (d % 8) + 7) (8 * (d % 8))
  let busy := ((List.range 8).filter (fun l => (s.holder (8 * d + l)).isSome)).length
  let w := temp + v.1 % 65536 * 2 ^ 8 + s.dieRate d * 2 ^ 24 + busy * 2 ^ 40 + s.streamSum d * 2 ^ 44 +
    s.shadowRow.getD p 0 * 2 ^ 50 + b2n q.form * 2 ^ 53
  let s := (v.2.setReg R.dhlShSnap0 d [p % 8] (BitVec.ofNat 64 w)).setReg R.dhlShSnap1 d [p % 8]
    (BitVec.ofNat 64 (v.2.cycleLc (.cluster p) q.cyc))
  let s := (s.setFld R.dhlClRstate d [p % 8] 2 0 4).setFld R.dhlClRstate d [p % 8] 63 32 (s.unitCmd (.cluster p))
  (s.bumpFld R.dhlShStat d [] 63 48 1).stateEvent (R.dhlClRstate.at d [p % 8]) 0 4

/-- A shadow mismatch (R541): the attempt is aborted on every cluster of the step without counting, and the cluster is
shadow-quarantined. -/
def State.shadowMismatch (s : State) (p : Nat) : State :=
  match s.holder p with
  | none => s
  | some r => ((s.shadowSnap p).abortNow r false).withdraw p

/-- COMMIT (R119, R541): CTL COMMIT from context 0 occupies the cluster for 8 lane cycles and ends its part of the step.
`mis` says that the shadow CRCs of a shadowed step differ. -/
def execCommit (u : SeqUnit) (mis : Bool) (w : Bundle) (s : State) : Host.Outcome State Fault Refusal :=
  let t := s.issue u (w.withCtl .commit)
  match u with
  | .iris _ => .next t
  | .cluster p =>
    if mis && (t.seq u).committing && (t.seq u).spareBusy then .next (t.shadowMismatch p) else .next t

/-! Runtime sparing. -/

/-- The physical row of a logical row of a cluster (R41, R43). -/
def State.physRow (s : State) (p k : Nat) : Nat :=
  match (s.seq (.cluster p)).rowMap.find k with
  | some r => r
  | none => match s.ident.fusedRow.find p with
    | none => k
    | some f => if k < f then k else k + 1

/-- A logical row retired (R43, R44): mapped onto the held spare, or the cluster withdrawn where it holds none. -/
def State.retireRow (s : State) (p k : Nat) : State :=
  let u := SeqUnit.cluster p
  if s.hasSpare p then
    let old := s.physRow p k
    let q := s.seq u
    (s.setSeq u { q with rowMap := q.rowMap.put k 8, spareUsed := true, retiredPhys := old }).setFld
      R.dhlClStatus (p / 8) [p % 8] 11 8 old
  else s.withdraw p

/-- DHL_CL_SPARE_CMD written (R43): on a fenced cluster with SPARE_BUSY 0 the row is retired, otherwise the command is
refused. -/
def State.writeSpare (s : State) (m : Master) (d l : Nat) (v : Word) : State :=
  if !(v.getLsbD 8) then s
  else
    let p := 8 * d + l
    if !(s.fenced 1 (s.logCluster p)) || (s.seq (.cluster p)).spareBusy then s.refuseReg m R.dhlClSpareCmd d [l] v
    else s.retireRow p (getField v 2 0)

/-- SPARE_RETIRE (R43): DHL_CL_SPARE_CMD of local cluster lc of a die written with GO. -/
def execSpareRetire (m : Master) (die lc : Nat) (v : BitVec 64) (s : State) : Host.Outcome State Fault Refusal :=
  .next (s.guardWrite m R.dhlClSpareCmd (die % 16) [lc % 8] (fun s => s.writeSpare m (die % 16) (lc % 8) (v ||| 0x100)))

end Sys2Proof.Machine
end

