-- ==== Sys2Proof/Machine/RegView.lean ====
section
/-! DEFINITION. What a register reads (R13): the stored word, or for a register that shows live state the word that the
state gives. A unit's cycle registers show the cycle of its latest event. -/
namespace Sys2Proof.Machine

/-- A word from fields, each a low bit and a value. -/
def fieldsWord (l : List (Nat × Nat)) : Word := BitVec.ofNat 64 ((l.map (fun e => e.2 * 2 ^ e.1)).sum)

/-! A sequencer's registers (R126, R127, R137, R138, R209, R287, R476, R571). -/

/-- DHL_SEQ_STATE and IRS_SEQ_STATE (R126, R127). -/
def Seq.stateWord (q : Seq) (n : Nat) : Word :=
  fieldsWord (((List.range n).map (fun k => (3 * k, (q.ctx k).st.code))) ++
    [(24, q.run.getD 0 % 8), (27, b2n q.active), (28, b2n q.done), (29, b2n q.exact)])

/-- CYCLES (R126): with freezes, and after DONE the cycles of the step. -/
def Seq.cyclesWord (q : Seq) : Word := BitVec.ofNat 64 ((if q.doneC ≠ 0 then q.doneC else q.cycles) % 2 ^ 48)

/-- IDLE (R126): with the idle cycles of the present wait. -/
def Seq.idleNow (q : Seq) : Nat := q.idleCyc + (if q.active && q.run.isNone && !q.stopped then q.cyc - q.idleFrom else 0)

/-- The PC word of a context (R126). -/
def Ctx.pcWord (c : Ctx) (bits : Nat) : Word :=
  fieldsWord [(0, c.pc % 2 ^ bits), (16, ((List.range 8).filter (fun i => loopActive (c.rl i))).length)]

/-- The wait counters of a context, with its present wait (R126). -/
def Seq.waitWord (q : Seq) (k : Nat) : Word :=
  let c := q.ctx k
  let now := q.cyc - c.waitFrom
  fieldsWord [(0, (c.waitRemote + if c.st = .waitRemote then now else 0) % 2 ^ 32),
              (32, (c.waitToken + if c.st = .waitToken then now else 0) % 2 ^ 32)]

/-- A token register (R126). -/
def Seq.tokenWord (q : Seq) (n : Nat) : Word := fieldsWord [(0, q.tokens.getD n 0), (16, b2n (q.tokSat.getD n false))]

/-- _DBG_CTL (R571). -/
def Seq.dbgWord (q : Seq) : Word := fieldsWord [(0, b2n q.dbgHalted), (1, q.dbgCause % 8), (4, q.dbgIndex % 8)]

/-- _DBG_HALTCYC (R551, R571): with the present halt. -/
def State.haltWord (s : State) (u : SeqUnit) : Word :=
  let q := s.seq u
  BitVec.ofNat 64 (q.dbgHaltCyc + if q.dbgHalted then q.cyclesIn u (s.lc - q.dbgHaltLc) else 0)

/-- The registers that a cluster block and a core block share, by their offset in the block of R126 and R137: 0x00 to 0x38
and the contexts' PC and wait words. -/
def Seq.blockWord (q : Seq) (o k n bits : Nat) : Word :=
  if o = 0x00 then q.stateWord n
  else if o = 0x08 then q.cyclesWord
  else if o = 0x10 then fieldsWord [(0, q.frzUnsched % 2 ^ 32), (32, q.frzOwn % 2 ^ 32)]
  else if o = 0x18 then fieldsWord [(0, q.switches % 2 ^ 32), (32, q.idleNow % 2 ^ 32)]
  else if o = 0x20 then BitVec.ofNat 64 (q.declared % 2 ^ 40)
  else if o = 0x28 then q.fault
  else if o = 0x30 then q.faddr
  else if o = 0x38 then BitVec.ofNat 64 (q.hbmHold % 2 ^ 32)
  else if o = 0x40 then (q.ctx k).pcWord bits
  else q.waitWord k

/-! A Dahlia die. -/

/-- DHL_CL_ROWFUSE (R79). -/
def State.rowFuseWord (s : State) (p : Nat) : Word :=
  match s.ident.fusedRow.find p with
  | none => 0
  | some f => BitVec.ofNat 64 (2 ^ f)

/-- DHL_CL_ROWMAP (R79). -/
def State.rowMapWord (s : State) (p : Nat) : Word :=
  fieldsWord (((List.range 8).map (fun k => (4 * k, s.physRow p k % 16))) ++
    [(32, if s.hasSpare p then 8 else 15), (36, b2n (s.seq (.cluster p)).spareBusy)])

/-- DHL_CL_STATUS (R79): WITHDRAWN and RETIRED_PHYS are held, FORM and ROW_BUSY follow the cluster. -/
def State.clStatusWord (s : State) (d l : Nat) : Word :=
  let q := s.seq (.cluster (8 * d + l))
  let busy := (q.macs.filter (fun x => decide (q.cyc ≤ x.until_))).foldl (fun m x => m ||| x.rows) 0
  setField (setField (s.reg R.dhlClStatus d [l]) 0 0 (b2n q.form)) 23 16 busy

/-- DHL_CL_RSTATE (R545): a reset's fence shows before a quarantine, and that before a withdrawal. -/
def State.rstateWord (s : State) (d l : Nat) : Word :=
  let p := 8 * d + l
  let c := s.logCluster p
  let w := s.reg R.dhlClRstate d [l]
  let held := s.resets.any (fun r => r.st == .held && (decide (3 ≤ r.level) || (r.level == 1 && r.target == c)))
  let st := if held then 2 else if s.fenced 1 c then 1 else if s.quarantined.contains c then 3
    else if getField w 2 0 = 4 then 4 else if s.withdrawn p then 5 else 0
  setField (setField w 2 0 st) 3 3 (b2n (s.seq (.cluster p)).spareBusy)

/-- The registers of a Dahlia die that show live state. -/
def State.viewDhl (s : State) (r : RegD) (d : Nat) (ix : List Nat) : Word :=
  let l := ix.headD 0
  let k := (ix.drop 1).headD 0
  let p := 8 * d + l
  let q := s.seq (.cluster p)
  if r.off = R.dhlClRowfuse.off then s.rowFuseWord p
  else if r.off = R.dhlClRowmap.off then s.rowMapWord p
  else if r.off = R.dhlClStatus.off then s.clStatusWord d l
  else if r.off = R.dhlCtxArith.off then (q.ctx k).arith
  else if r.off = R.dhlCtxAflags.off then (q.ctx k).aflags.setWidth 64
  else if R.dhlSeqState.off ≤ r.off ∧ r.off ≤ R.dhlSeqPc.off then q.blockWord (r.off - R.dhlSeqState.off) k 8 13
  else if r.off = R.dhlSeqWait.off then q.waitWord k
  else if r.off = R.dhlToken.off then q.tokenWord k
  else if r.off = R.dhlSpZskip.off then BitVec.ofNat 64 (q.zskipRows % 2 ^ 48)
  else if r.off = R.dhlSpSaved.off then BitVec.ofNat 64 (q.savedCyc % 2 ^ 48)
  else if r.off = R.dhlSpBskip.off then fieldsWord [(0, q.bskipTaken % 2 ^ 32), (32, q.bskipBundles % 2 ^ 32)]
  else if r.off = R.dhlSpRoute.off then
    fieldsWord [(0, q.placed % 2 ^ 24), (24, q.redirected % 2 ^ 20), (44, q.dropped % 2 ^ 20)]
  else if r.off = R.dhlSeqNdet.off then
    fieldsWord [(0, min q.ndStoch 65535), (16, min q.ndRoute 65535), (32, min q.ndTiming 65535), (48, min q.ndIntrude 65535)]
  else if r.off = R.dhlClRstate.off then s.rstateWord d l
  else if r.off = R.dhlDbgCtl.off then q.dbgWord
  else if r.off = R.dhlDbgHaltcyc.off then s.haltWord (.cluster p)
  else s.reg r d ix

/-! The other dies. -/

/-- The registers of an Iris die that show live state (R127, R332). -/
def State.viewIrs (s : State) (r : RegD) (d : Nat) (ix : List Nat) : Word :=
  let c := ix.headD 0
  let k := (ix.drop 1).headD 0
  let u := SeqUnit.iris (48 * (d - 16) + c)
  let q := s.seq u
  if R.irsSeqState.off ≤ r.off ∧ r.off ≤ R.irsSeqPc.off then q.blockWord (r.off - R.irsSeqState.off) k 4 11
  else if r.off = R.irsSeqWait.off then q.waitWord k
  else if r.off = R.irsToken.off then q.tokenWord k
  else if r.off = R.irsDbgCtl.off then q.dbgWord
  else if r.off = R.irsDbgHaltcyc.off then s.haltWord u
  else if r.off = R.irsEq.off then
    let e := s.engq (d - 16) c
    fieldsWord [(0, e.outstanding), (8, s.kindOf (d - 16) c), (12, b2n e.gate), (13, b2n e.sat), (14, e.token),
      (32, min e.done (2 ^ 32 - 1))]
  else s.reg r d ix

/-- A shaper's credit (R371, R380): signed, in 1/256 B. -/
def State.creditWord (s : State) (k : Nat) : Word := BitVec.ofNat 64 (wrapInt 40 (s.tcAt k).b1)

/-- The registers of a Lupin die that show live state (R392, R404, R409, R428); the node-wide ones read the same through every
window. -/
def State.viewLpn (s : State) (r : RegD) (d : Nat) (ix : List Nat) : Word :=
  if r.dom = .lpnw then s.reg r 22 ix
  else if r.off = R.lpnRcpt.off then setField (s.reg r d ix) 16 0 (s.receiptsOf (d - 22)).length
  else if r.off = R.lpnHotstat.off then setField (s.reg r d ix) 8 0 (s.tracked (d - 22))
  else if r.off = R.lpnShpCredit.off then s.creditWord (R.lpnShp.at d ix)
  else s.reg r d ix

/-- The registers of the Primrose die that show live state (R391, R452, R548). -/
def State.viewPrm (s : State) (r : RegD) (ix : List Nat) : Word :=
  if r.off = R.prmRingShpCredit.off then s.creditWord (R.prmRingShp.at 31 ix)
  else if r.off = R.prmTbStat.off then setField (s.reg r 31 ix) 0 0 (b2n (decide (s.ofsNow ≠ 0)))
  else if r.off = R.prmTbOfs.off then BitVec.ofInt 64 (s.ofsNow / 2 ^ 16)
  else if r.off = R.prmTbNow.off then BitVec.ofInt 64 (s.tbNs (ix.headD 0))
  else if r.off = R.prmDbgStat.off then setField (s.reg r 31 ix) 17 16 s.tapLevel
  else s.reg r 31 ix

/-- The registers of Foxglove that show live state (R288): the deadline of a tenant step, or the edge of the window in
force. -/
def State.viewFxg (s : State) (r : RegD) (ix : List Nat) : Word :=
  let c := ix.headD 0
  if r.off = R.fxgClEdge.off then
    match s.physCluster c with
    | none => 0
    | some p => match s.holder p with
      | some h => if h.deadline.isSome then BitVec.ofInt 64 h.edgeNs else 0
      | none => if s.typeOf c = 1 then BitVec.ofInt 64 (s.windowEdge c) else 0
  else if r.off = R.fxgPtCfg.off then setField (s.reg r 31 ix) 47 32 (s.inUse c)
  else s.reg r 31 ix

/-- The registers of a function block that show live state (R511). -/
def State.viewFn (s : State) (r : RegD) (fn : Nat) (ix : List Nat) : Word :=
  if r.off = R.prmFnId.off then
    fieldsWord [(0, fn), (6, b2n s.ident.vx3214), (7, b2n s.ident.b0), (8, s.ident.lcState)]
  else if r.off = R.prmDieMap.off then fieldsWord ((List.range 32).map (fun d => (d, b2n (s.dieOn d))))
  else if r.off = R.prmTb3Now.off then BitVec.ofInt 64 (s.tbNs 3)
  else s.reg r fn ix

/-- PRM_RING_PTR (R512). -/
def State.ringPtrWord (s : State) (r : Nat) : Word :=
  let g := s.ring r
  fieldsWord [(0, g.sqHead), (16, g.cqTail), (32, b2n g.phase)]

/-- The word that a register reads (R13): a bit of a WO field reads 0. -/
def State.view (s : State) (r : RegD) (die : Nat) (ix : List Nat) : Word :=
  let w := match r.kind with
    | .dhl => s.viewDhl r die ix
    | .irs => s.viewIrs r die ix
    | .lpn => s.viewLpn r die ix
    | .prm => s.viewPrm r ix
    | .fxg => s.viewFxg r ix
    | .fn => s.viewFn r die ix
    | .bar => if r.off = R.prmRingPtr.off then s.ringPtrWord (ix.headD 0) else s.reg r 31 ix
    | .die => (s.pmuSync die).reg r die ix
    | _ => s.reg r die ix
  w &&& ~~~ (r.maskOf .wo)

end Sys2Proof.Machine
end

