-- ==== Sys2Proof/Machine/Time.lean ====
section
/-! DEFINITION. The meanings of the time-base rows (R433 to R446). -/
namespace Sys2Proof.Machine

/-- The rate words of which HORATE is the mean, latest first: at most 2^AVG_LOG2 (R437). -/
def State.rateHist (s : State) (n : Nat) : List Int := (s.base n).hist.take (2 ^ s.fld R.prmTbCfg 31 [n] 19 16)

/-- HORATE at entry into HOLDOVER (R437), in 2^−40 ns per ns, rounded to nearest. A mean that lies midway takes either
neighbour, and a base that never had a rate word while LOCKED takes any value: the spec states neither. -/
def State.holdoverRate (s : State) (n : Nat) : Int × State :=
  let l := s.rateHist n
  let (f, s') := s.draw
  if l.isEmpty then (sext 48 f, s')
  else
    let sum := l.foldl (· + ·) 0 * 2 ^ 8
    let k : Int := l.length
    let q := sum / k
    let r := sum % k
    if 2 * r < k then (q, s) else if k < 2 * r then (q + 1, s) else (q + (f % 2 : Nat), s')

/-- A base's servo state changes (R436): HORATE is frozen at entry into HOLDOVER, and an event is raised. -/
def State.servoTo (s : State) (n st : Nat) : State :=
  let old := s.servo n
  if old = st then s
  else
    let s := if st = 2 then
        let h := s.holdoverRate n
        h.2.setFld R.prmTbHorate 31 [n] 47 0 (wrapInt 48 h.1)
      else s
    let s := s.setFld R.prmTbCfg 31 [n] 1 0 st
    let s := if st = 1 then s.setBase n { s.base n with rateLc := s.lc } else s
    s.stateEvent (R.prmTbCfg.at 31 [n]) old st

/-- SYNC_WORD (R433): LC reaches the next multiple of 1,000 ticks and the sync word applies what is pending. -/
def execSyncWord (s : State) : Host.Outcome State Fault Refusal := .next (s.advanceTo ((s.lc / 1000 + 1) * 1000))

/-- A write of PRM_TB_RATE (R435, R437): clamped, stored, and pending for the next sync word; in HOLDOVER it applies only
once firmware leaves HOLDOVER. -/
def State.writeTbRate (s : State) (n : Nat) (v : Word) : State :=
  let x := sext 40 v.toNat
  let y := max (-858993) (min x 858993)
  let s := s.setFld R.prmTbRate 31 [n] 39 0 (wrapInt 40 y)
  let s := if x = y then s else s.setFld R.prmTbCfg 31 [n] 2 2 1
  let b := s.base n
  let hist := if s.servo n = 1 then (y :: b.hist).take 4096 else b.hist
  s.setBase n { b with pendRate := some y, hist := hist, rateLc := s.lc }

/-- TB_RATE_WRITE (R435): partition 0 writes the rate word of base n. -/
def execTbRateWrite (m : Master) (n : Nat) (v : BitVec 64) (s : State) : Host.Outcome State Fault Refusal :=
  .next (s.guardWrite m R.prmTbRate 31 [n % 4] (fun s => s.writeTbRate (n % 4) v))

/-- A write of PRM_TB_STEP (R435): it adds to the step that awaits the next sync word. -/
def State.writeTbStep (s : State) (n : Nat) (v : Word) : State :=
  let b := s.base n
  s.setBase n { b with pendStep := b.pendStep + sext 48 v.toNat }

/-- TB_STEP_WRITE (R435): partition 0 writes the step register of base n. -/
def execTbStepWrite (m : Master) (n : Nat) (v : BitVec 64) (s : State) : Host.Outcome State Fault Refusal :=
  .next (s.guardWrite m R.prmTbStep 31 [n % 4] (fun s => s.writeTbStep (n % 4) v))

/-- Whether ALIGN is refused (R442): a gate schedule runs, or a slot timer or an egress gate list is enabled. -/
def State.alignRefused (s : State) : Bool :=
  s.fld R.fxgGate 31 [] 0 0 == 1 ||
  (List.range 4).any (fun i => (List.range 8).any (fun t => s.fld R.irsStimerCfg (16 + i) [t] 31 31 == 1)) ||
  (List.range 2).any (fun c => (List.range 16).any (fun p => s.fld R.crkGateCfg (20 + c) [p] 24 24 == 1))

/-- The SLEW_PPB of a write of PRM_TB_CTRL: outside 1 to 10,000 it stores 100 (R441). -/
def State.writeSlew (s : State) (v part : Word) : State :=
  if (R.prmTbCtrl.maskOf .rw &&& part) = 0 then s
  else
    let x := getField v 17 4
    s.setFld R.prmTbCtrl 31 [] 17 4 (if 1 ≤ x ∧ x ≤ 10000 then x else 100)

/-- SWITCH written (R440): it awaits the next sync word; a second one changes nothing. -/
def State.requestSwitch (s : State) : State := s.setFld R.prmTbStat 31 [] 1 1 1

/-- ALIGN written (R442): it awaits the next sync word, or is refused. -/
def State.requestAlign (s : State) (m : Master) (v : Word) : State :=
  if s.alignRefused then s.refuseReg m R.prmTbCtrl 31 [] v else { s with alignPend := true }

/-- A write of PRM_TB_CTRL: SLEW_PPB, then SWITCH and ALIGN by their bits (R435, R440 to R442). -/
def State.writeTbCtrl (s : State) (m : Master) (v part : Word) : State :=
  let s := s.writeSlew v part
  let s := if (v &&& part).getLsbD 1 then s.requestSwitch else s
  if (v &&& part).getLsbD 2 then s.requestAlign m v else s

/-- TB_SWITCH (R440): a write of PRM_TB_CTRL with SWITCH. -/
def execTbSwitch (m : Master) (v : BitVec 64) (s : State) : Host.Outcome State Fault Refusal :=
  .next (s.guardWrite m R.prmTbCtrl 31 [] (fun s => s.writeTbCtrl m (v ||| 2) (partMask 0 8)))

/-- TB_ALIGN (R442): a write of PRM_TB_CTRL with ALIGN. -/
def execTbAlign (m : Master) (v : BitVec 64) (s : State) : Host.Outcome State Fault Refusal :=
  .next (s.guardWrite m R.prmTbCtrl 31 [] (fun s => s.writeTbCtrl m (v ||| 4) (partMask 0 8)))

/-- A write of PRM_TB_CFG (R436, R437, R452): the servo state, the watchdog and the averaging, LIMIT cleared; STATE 3 stores
the state unchanged and raises a REFUSED event. -/
def State.writeTbCfg (s : State) (m : Master) (n : Nat) (v : Word) : State :=
  let r := R.prmTbCfg
  let wd := getField v 13 4
  let av := getField v 19 16
  let s := s.setFld r 31 [n] 2 2 0
  let s := s.setFld r 31 [n] 13 4 (if 1 ≤ wd ∧ wd ≤ 1000 then wd else 16)
  let s := s.setFld r 31 [n] 19 16 (min av 12)
  let st := getField v 1 0
  let s := if st = 3 then s else s.servoTo n st
  if st = 3 then s.refuseReg m r 31 [n] v else s

/-- TB_STATE_WRITE (R436): partition 0 writes the configuration of base n. -/
def execTbStateWrite (m : Master) (n : Nat) (v : BitVec 64) (s : State) : Host.Outcome State Fault Refusal :=
  .next (s.guardWrite m R.prmTbCfg 31 [n % 4] (fun s => s.writeTbCfg m (n % 4) v))

/-- SERVO_WATCHDOG (R436): a LOCKED base that has had no rate write for WDOG_MS milliseconds enters HOLDOVER, at that
tick. -/
def execServoWatchdog (n : Nat) (s : State) : Host.Outcome State Fault Refusal :=
  let b := n % 4
  if s.servo b ≠ 1 then .next s
  else
    let due := (s.base b).rateLc + s.fld R.prmTbCfg 31 [b] 13 4 * 1000000
    .next ((s.advanceTo due).servoTo b 2)

/-- A snapshot of LC and every base at one instant (R452). -/
def State.takeSnap (s : State) : State :=
  let w (k : Nat) (x : Int) (s : State) : State := s.setReg R.prmTbSnapv 31 [k] (BitVec.ofInt 64 x)
  let s := w 5 s.artNs (w 4 (s.tbNs 3) (w 3 (s.tbNs 2) (w 2 (s.tbNs 1) (w 1 (s.tbNs 0) (w 0 s.lc s)))))
  s.setFld R.prmTbSnap 31 [] 1 1 1

/-- TB_SNAPSHOT (R452): a write of TAKE. -/
def execTbSnapshot (m : Master) (v : BitVec 64) (s : State) : Host.Outcome State Fault Refusal :=
  .next (s.guardWrite m R.prmTbSnap 31 [] (fun s => if v.getLsbD 0 then s.takeSnap else s))

/-- REPLICA_VALID (R434): the replica of a die whose domain is ON becomes valid. -/
def execReplicaValid (die : Nat) (s : State) : Host.Outcome State Fault Refusal :=
  if s.dieOn die && s.pdOn (replicaDomain die) && !(s.replicas.contains die) then
    .next { s with replicas := die :: s.replicas }
  else .next s

end Sys2Proof.Machine
end

