-- ==== Sys2Proof/Machine/RegWrite.lean ====
section
/-! DEFINITION. What a write of a register does (R13 to R16), register by register: the access codes, and the effect of the
rule that describes the register. The domain, the fence and the master's right are checked before. -/
namespace Sys2Proof.Machine

/-- A field of a register held within a range: another value stores the given one. -/
def clampField (w : Word) (hi lo a b def_ : Nat) : Word :=
  if a ≤ getField w hi lo ∧ getField w hi lo ≤ b then w else setField w hi lo def_

/-- A write by the access codes, with the stored word then put into its form by a rule of the register. -/
def State.shapedWrite (s : State) (r : RegD) (die : Nat) (ix : List Nat) (v part : Word) (shape : Word → Word) : State :=
  s.setReg r die ix (shape (r.written (s.reg r die ix) v part false false))

/-! Sequencer registers. -/

/-- A write of DHL_CTX_ARITH (R79, R81): refused while a step is active on the cluster; NRND 2 and 3 store 0. -/
def State.writeArith (s : State) (m : Master) (r : RegD) (d l k : Nat) (v part : Word) : State :=
  let u := SeqUnit.cluster (8 * d + l)
  let q := s.seq u
  if q.active || q.done || (s.holder (8 * d + l)).isSome then s.refuseReg m r d [l, k] v
  else
    let c := q.ctx k
    let w := r.written c.arith v part false false
    s.setSeq u (q.setCtx k { c with arith := if 2 ≤ getField w 2 1 then setField w 2 1 0 else w })

/-- A write of DHL_CTX_AFLAGS (R75, R79). -/
def State.writeAflags (s : State) (d l k : Nat) (v part : Word) : State :=
  let u := SeqUnit.cluster (8 * d + l)
  let q := s.seq u
  let c := q.ctx k
  s.setSeq u (q.setCtx k { c with aflags := AFlags.clear c.aflags ((v &&& part).setWidth 7) 0 })

/-- A write of a token register (R126): SAT is cleared by writing 1. -/
def State.writeToken (s : State) (u : SeqUnit) (n : Nat) (v part : Word) : State :=
  let q := s.seq u
  if (v &&& part).getLsbD 16 then s.setSeq u { q with tokSat := q.tokSat.put n false } else s

/-! The dies. -/

/-- A write of a register of a Dahlia die. -/
def State.writeDhl (s : State) (m : Master) (r : RegD) (d : Nat) (ix : List Nat) (v part : Word) : State :=
  let l := ix.headD 0
  let k := (ix.drop 1).headD 0
  if r.off = R.dhlClSpareCmd.off then s.writeSpare m d l (v &&& part)
  else if r.off = R.dhlCtxArith.off then s.writeArith m r d l k v part
  else if r.off = R.dhlCtxAflags.off then s.writeAflags d l k v part
  else if r.off = R.dhlToken.off then s.writeToken (.cluster (8 * d + l)) k v part
  else if r.off = R.dhlDbgBp.off then s.writeBp r d ix v part
  else if r.off = R.dhlSpPwrCmd.off then s.writeSpPwr m d (v &&& part)
  else if r.off = R.dhlHbmScrub.off then s.shapedWrite r d ix v part (fun w => clampField w 15 0 0 168 168)
  else s.plainWrite m r d ix v part

/-- A write of a register of an Iris die. -/
def State.writeIrs (s : State) (m : Master) (r : RegD) (d : Nat) (ix : List Nat) (v part : Word) : State :=
  let i := d - 16
  let c := ix.headD 0
  let k := (ix.drop 1).headD 0
  if r.off = R.irsCoreImg.off then s.writeImg m i c v part
  else if r.off = R.irsToken.off then s.writeToken (.iris (48 * i + c)) k v part
  else if r.off = R.irsDbgBp.off then s.writeBp r d ix v part
  else if r.off = R.irsEq.off then s.writeEq i c v part
  else if r.off = R.irsStimerCfg.off then s.writeStimer m i c v part
  else s.plainWrite m r d ix v part

/-- A write of a register of a Crocus die. A path enabled here takes one unit; PATH_ENABLE names more. -/
def State.writeCrk (s : State) (m : Master) (r : RegD) (d : Nat) (ix : List Nat) (v part : Word) : State :=
  let k := d - 20
  let i := ix.headD 0
  let j := (ix.drop 1).headD 0
  if r.off = R.crkPortCfg.off then s.writePortCfg k v part
  else if r.off = R.crkSpareCmd.off then s.writeCrkSpare m k (v &&& part)
  else if r.off = R.crkFlow.off then s.writeFlow m k i v part
  else if r.off = R.crkFlowWin.off then s.writeFlowWin m k i v part
  else if r.off = R.crkPathCfg.off then s.writePath m k i (max 1 (s.path k i).units) v part
  else if r.off = R.crkPathWin.off ∨ r.off = R.crkPathMwin.off then s.writeCrkWin m r k ix v part
  else if r.off = R.crkFrz.off then s.writeFrz k i j v part
  else if r.off = R.crkFpol.off ∨ r.off = R.crkPpol.off then s.writeTcWord 0 r d ix v part
  else if r.off = R.crkMtr.off then s.writeMeter m R.crkMtr R.crkMtrW1 d ix false v part
  else if r.off = R.crkMtrW1.off then s.writeMeter m R.crkMtr R.crkMtrW1 d ix true v part
  else if r.off = R.crkGateCfg.off then s.writeGate m k i v part
  else if r.off = R.crkGateBase.off ∨ r.off = R.crkGateAdmin.off then s.writeGateSet m r k ix v part
  else s.plainWrite m r d ix v part

/-- A write of a register of a Lupin die. -/
def State.writeLpn (s : State) (m : Master) (r : RegD) (d : Nat) (ix : List Nat) (v part : Word) : State :=
  let i := ix.headD 0
  if r.off = R.lpnNode.off then s.nodeWide m r d ix v (fun s => s.writeNode m v part)
  else if r.off = R.lpnRegion.off then s.nodeWide m r d ix v (fun s => s.writeRegion m i v part)
  else if r.off = R.lpnPeer.off then s.nodeWide m r d ix v (fun s => s.writePeer i v part)
  else if r.off = R.lpnRoute.off then s.nodeWide m r d ix v (fun s => s.plainWrite m r 22 ix v part)
  else if r.off = R.lpnMirrorCmd.off then s.writeMirrorCmd m d (v &&& part)
  else if r.off = R.lpnLink.off then s.writeLink m d i v part
  else if r.off = R.lpnMtr.off then s.writeMeter m R.lpnMtr R.lpnMtrW1 d ix false v part
  else if r.off = R.lpnMtrW1.off then s.writeMeter m R.lpnMtr R.lpnMtrW1 d ix true v part
  else if r.off = R.lpnShp.off then s.writeTcWord 2 r d ix v part
  else if r.off = R.lpnTcCfg.off then s.shapedWrite r d ix v part (fun w => clampField w 15 0 16 4096 256)
  else s.plainWrite m r d ix v part

/-- A write of a register of the Tulip die. -/
def State.writeTlp (s : State) (m : Master) (r : RegD) (ix : List Nat) (v part : Word) : State :=
  let e := ix.headD 0
  if r.off = R.tlpCfg.off then s.writeTlpCfg m v part
  else if r.off = R.tlpDmaBase.off then s.writeTierBase e v part
  else if r.off = R.tlpDmaTail.off then s.writeTierTail m e v part
  else s.plainWrite m r 30 ix v part

/-- A write of a time-base register (R452). -/
def State.writeTb (s : State) (m : Master) (r : RegD) (ix : List Nat) (v part : Word) : State :=
  let n := ix.headD 0
  if r.off = R.prmTbCtrl.off then s.writeTbCtrl m v part
  else if r.off = R.prmTbSnap.off then (if (v &&& part).getLsbD 0 then s.takeSnap else s)
  else if r.off = R.prmTbCfg.off then s.writeTbCfg m n (r.written (s.reg r 31 ix) v part false false)
  else if r.off = R.prmTbRate.off then s.writeTbRate n (r.written (s.reg r 31 ix) v part false false)
  else if r.off = R.prmTbStep.off then s.writeTbStep n (v &&& part)
  else s.plainWrite m r 31 ix v part

/-- GO of PRM_DUMP_CMD (R530, R543): ignored while a dump runs. The units follow the dies in ascending index; of a die the kinds
ascend, and of a kind the units. -/
def dumpUnits (dies content : Nat) : List (Nat × Nat × Nat) :=
  let kinds (n : Nat) (k : Nat) : List (Nat × Nat) := if bitOf content k then (List.range n).map (fun u => (k, u)) else []
  let whole (k : Nat) : List (Nat × Nat) := if bitOf content k then [(k, 0xFFFF)] else []
  ((List.range 32).filter (fun d => bitOf dies d)).flatMap (fun d =>
    (if d < 16 then kinds 8 0 ++ kinds 8 1 ++ whole 2
     else if d < 20 then kinds 48 0 ++ kinds 48 1 ++ whole 2
     else if d < 22 then whole 0 ++ whole 2
     else whole 0).map (fun e => (d, e.1, e.2)))

/-- PRM_DUMP_CMD written (R530, R543): GO starts a dump, unless one runs. -/
def State.writeDump (s : State) (v : Word) : State :=
  if !(v.getLsbD 35) || s.fld R.prmDumpStat 31 [] 1 0 == 1 then s
  else
    let buf := (s.reg R.prmDumpBuf 31 []).toNat
    { s.setReg R.prmDumpStat 31 [] 1 with dump := some {
        units := dumpUnits (getField v 31 0) (getField v 34 32)
        addr := buf
        limit := buf + 1024 * s.fld R.prmDumpCfg 31 [] 31 0 } }

/-- A write of a register of the Primrose die, PRM_DBG_CMD apart. -/
def State.writePrm (s : State) (m : Master) (r : RegD) (ix : List Nat) (v part : Word) : State :=
  let i := ix.headD 0
  if 0x500000 ≤ r.off ∧ r.off < 0x500200 then s.writeTb m r ix v part
  else if r.off = R.prmFxgCmd.off then s.writeFxgCmd (v &&& part)
  else if r.off = R.prmLsCfg.off then s.writeLs m v part
  else if r.off = R.prmLsPeer.off then s.shapedWrite r 31 ix v part (fun w => setField w 31 16 0)
  else if r.off = R.prmLsInbox.off then s.shapedWrite r 31 ix v part (fun w => setField w 15 0 0)
  else if r.off = R.prmCqStamp.off then { s with stampSel := some (v &&& part) }
  else if r.off = R.prmCqTdone.off then s.writeTdone m (v &&& part)
  else if r.off = R.prmLcCmd.off then s.writeLc m (v &&& part)
  else if r.off = R.prmRstCmd.off then s.writeRst m (v &&& part)
  else if r.off = R.prmWdogCfg.off then s.writeWdog v part
  else if r.off = R.prmWdogHb.off then s.writeHb
  else if r.off = R.prmDumpCmd.off then s.writeDump (v &&& part)
  else if r.off = R.prmDumpBuf.off then s.shapedWrite r 31 ix v part (fun w => setField w 5 0 0)
  else if r.off = R.prmDumpCfg.off then s.shapedWrite r 31 ix v part (fun w => clampField w 45 32 1 10000 100)
  else if r.off = R.prmReplayCmd.off then s.writeReplay m (v &&& part)
  else if r.off = R.prmDbgAddr.off then s.shapedWrite r 31 ix v part (fun w => setField w 2 0 0)
  else if r.off = R.prmDbgAuthbuf.off then s
  else if r.off = R.prmPdCmd.off then s.writePd m (v &&& part)
  else if r.off = R.prmPwrCfg.off then s.writePwr m v part
  else if r.off = R.prmRingCfg.off then s.writeRingCfg m i v part
  else if r.off = R.prmRingShp.off then s.writeTcWord 2 r 31 ix v part
  else if r.off = R.prmMtr.off then s.writeMeter m R.prmMtr R.prmMtrW1 31 ix false v part
  else if r.off = R.prmMtrW1.off then s.writeMeter m R.prmMtr R.prmMtrW1 31 ix true v part
  else s.plainWrite m r 31 ix v part

/-- A write of a register that every die holds (R572), and of the watchpoints. -/
def State.writeDie (s : State) (m : Master) (r : RegD) (die : Nat) (ix : List Nat) (v part : Word) : State :=
  if r.off = R.trcCfg.off then s.writeTrcCfg m die v part
  else if r.off = R.trcBase.off then s.writeTrcBase m die v part
  else if r.off = R.trcStat.off then s.plainWrite m r die ix v part
  else s.writePmu r die ix v part

/-- A write of an MSI-X table word (R481): a vector that is no longer masked sends its pending message. -/
def State.writeMsix (s : State) (fn i : Nat) (v part : Word) : State :=
  let r := R.msixTable
  let s := s.shapedWrite r fn [i] v part id
  let vec := i / 2
  if i % 2 = 1 ∧ s.fld r fn [i] 32 32 = 0 ∧ s.fld R.msixPba fn [vec / 64] (vec % 64) (vec % 64) = 1 then
    (s.setFld R.msixPba fn [vec / 64] (vec % 64) (vec % 64) 0).sendMsix fn vec
  else s

/-- The WIN of a function's BAR2 window (R482): a multiple of the BAR's size. -/
def bar2Size (fn : Nat) : Nat := if fn = 0 then 0x1000000000 else 0x400000000

/-- A write of PRM_BAR2_WIN (R482): low bits are stored as 0. -/
def State.writeWin (s : State) (fn : Nat) (v part : Word) : State :=
  s.shapedWrite R.prmBar2Win fn [] v part (fun w => setField w (if fn = 0 then 35 else 33) 0 0)

/-- A write of a register of a function's block (R511, R573). -/
def State.writeFn (s : State) (r : RegD) (fn : Nat) (ix : List Nat) (v part : Word) : State :=
  let i := ix.headD 0
  if r.off = R.prmBar2Win.off then s.writeWin fn v part
  else if r.off = R.prmEvtBase.off then s.writeEvtBase fn v part
  else if r.off = R.prmEvtCfg.off then s.writeEvtCfg fn v part
  else if r.off = R.prmEvtHead.off then s.writeEvtHead fn v part
  else if r.off = R.prmMbCtrl.off then s.writeMbCtrl fn v part
  else if r.off = R.prmMbH2f.off then s.writeMbH2f fn i v part
  else if r.off = R.twCfg.off then s.writeTw fn i v part
  else if r.off = R.msixTable.off then s.writeMsix fn i v part
  else s.plainWrite (.fn fn) r fn ix v part

/-- A write of a PF register (R511). -/
def State.writeFnPf (s : State) (r : RegD) (v part : Word) : State :=
  if r.off = R.prmBootCmd.off then s.writeBoot (v &&& part) else s.plainWrite (.fn 0) r 0 [] v part

/-- A write of a ring register by the ring's function (R486, R487, R512). -/
def State.writeBarReg (s : State) (fn : Nat) (r : RegD) (ix : List Nat) (v part : Word) : State :=
  let i := ix.headD 0
  if r.off = R.prmDb.off then s.writeDoorbell fn i (v &&& part)
  else if r.off = R.prmRingPtr.off then s
  else s.writeRingReg fn i r v part

/-- What a write of a register does, for every register but PRM_DBG_CMD. -/
def State.writeReg (s : State) (m : Master) (r : RegD) (die : Nat) (ix : List Nat) (v part : Word) : State :=
  match r.kind with
  | .dhl => s.writeDhl m r die ix v part
  | .irs => s.writeIrs m r die ix v part
  | .crk => s.writeCrk m r die ix v part
  | .lpn => s.writeLpn m r die ix v part
  | .phx => s.plainWrite m r die ix v part
  | .tlp => s.writeTlp m r ix v part
  | .prm => s.writePrm m r ix v part
  | .fxg => s.plainWrite m r 31 ix v part
  | .die => s.writeDie m r die ix v part
  | .diewp => s.writeWp r die ix v part
  | .fn => s.writeFn r die ix v part
  | .fnpf => s.writeFnPf r v part
  | .bar => s.writeBarReg (match m with
      | .fn n => n
      | _ => 0) r ix v part

end Sys2Proof.Machine
end

