-- ==== Sys2Proof/Machine/Access.lean ====
section
/-! DEFINITION. Accesses from outside: registers over the package mesh (R12, R13, R29), memory over the mesh (R28, R29, R35,
R218), the debug commands (R546 to R560), and a function's BAR0 and BAR2 (R481 to R483). -/
namespace Sys2Proof.Machine

/-- A run of zero bytes, which a refused read returns. -/
def zeros (n : Nat) : List Byte := List.replicate n 0

/-- The value that an access of a width places in a register: a 32-bit access to the upper half writes bits [63:32] (R12). -/
def placed (off width : Nat) (v : Word) : Word := if width = 8 then v else if off % 8 = 4 then v <<< (32 : Nat) else v &&& 0xFFFFFFFF

/-- What an access of a width reads of a register's word (R12). -/
def readPart (off width : Nat) (w : Word) : List Byte :=
  if width = 8 then leBytes 8 w.toNat else leBytes 4 (if off % 8 = 4 then w.toNat / 2 ^ 32 else w.toNat)

/-! Registers. -/

/-- Whether a register is PRM_DBG_CMD. -/
def isDbgCmd (r : RegD) : Bool := r.kind == .prm && r.off == R.prmDbgCmd.off

/-- A write of a register by a master at its offset of a die's window (R3, R12, R13, R29), with what a write of PRM_DBG_CMD
does given apart. -/
def State.writeWindow (s : State) (m : Master) (dbg : State → Word → State) (x o width : Nat) (v : Word) : State :=
  if !(widthOk o width) || !(s.dieOn x) then s.answer stNoUnit []
  else match regAt x (o / 8 * 8) with
    | none => s.answer stOK []
    | some (r, ix) =>
      let w := placed o width v
      let part := partMask o width
      s.guardWrite m r x ix (fun s => if isDbgCmd r then dbg s (w &&& part) else s.writeReg m r x ix w part)

/-- A read of a register at its offset of a die's window (R3, R12, R13, R29). -/
def State.readWindow (s : State) (x o width : Nat) : State :=
  if !(widthOk o width) || !(s.dieOn x) then s.answer stNoUnit (zeros width)
  else match regAt x (o / 8 * 8) with
    | none => s.answer stOK (zeros width)
    | some (r, ix) =>
      let st := s.regStatus r x ix
      if st ≠ stOK then s.answer st (zeros width) else s.answer stOK (readPart o width (s.view r x ix))

/-! Memory. -/

/-- Whether an exact-mode step's BANK_SLICE holds an access of a master off (R233). -/
def State.heldOff (s : State) (m : Master) (off n : Nat) : Bool :=
  s.exactHeld (match m with
    | .unit u => (s.seq u).step
    | _ => 0) off n

/-- A write to memory by a master for its partition (R218, R223, R243, R460). -/
def State.writeMem (s : State) (m : Master) (off : Nat) (data : List Byte) : State :=
  let n := data.length
  let st := s.memWriteStatus (s.masterPart m) off n
  if st = stOK then ((((s.intrude off n).store off data)).access m off n true).answer stOK []
  else if st = stUncorr then (s.memError ((s.badIn off n).getD off) (s.masterPart m)).answer st []
  else s.answer st []

/-- A read of memory by a master for its partition (R218, R223, R242). -/
def State.readMem (s : State) (m : Master) (off n : Nat) : State :=
  let st := s.memStatus (s.masterPart m) off n
  if st = stOK then (s.access m off n false).answer stOK (s.bytes off n)
  else if st = stUncorr then (s.memError ((s.badIn off n).getD off) (s.masterPart m)).answer st (zeros n)
  else s.answer st (zeros n)

/-! Debug commands. -/

/-- Whether the level of a path lets MEM_RD and MEM_WR reach an offset (R548, R572): level 2, or level 1 for the trace and counter
registers. -/
def State.dbgReach (s : State) (p : DbgPath) (a : Nat) : Bool :=
  decide (2 ≤ s.pathLevel p) ||
  (s.pathLevel p == 1 && (match regionOf a with
    | .regs x o => (match regAt x o with
      | some (r, _) => r.kind == .die
      | none => false)
    | _ => false))

/-- A command that arrives while BUSY reads 1 (R547): one that MEM_WR itself writes. -/
def State.dbgNested (s : State) (m : Master) (v : Word) : State := s.refuseReg m R.prmDbgCmd 31 [] v

/-- MEM_RD and MEM_WR (R557): 8 B at PRM_DBG_ADDR, which then advances by 8. A refused read leaves DATA at 0. -/
def State.dbgMem (s : State) (p : DbgPath) (write : Bool) : State :=
  let a := s.fld R.prmDbgAddr 31 [] 47 0
  let m := Master.debug (s.pathLevel p)
  if (p == .tap && s.tapClosed) || !(s.dbgReach p a) then s.dbgDenied p
  else if s.heldOff m a 8 then s
  else
    let v := s.reg R.prmDbgData 31 []
    let s := match regionOf a with
      | .regs x o => if write then s.writeWindow m (fun s w => s.dbgNested m w) x o 8 v else s.readWindow x o 8
      | _ => if write then s.writeMem m a (leBytes 8 v.toNat) else s.readMem m a 8
    let s := if write then s else s.setReg R.prmDbgData 31 [] (BitVec.ofNat 64 (leNat s.ansData))
    (s.setFld R.prmDbgAddr 31 [] 47 0 (a + 8)).setResult s.ansStatus

/-- A debug command on a path (R547, R548, R570). -/
def State.dbgCommand (s : State) (p : DbgPath) (v : Word) : State :=
  let t := getField v 21 8
  match getField v 7 0 with
  | 1 => s.dbgRun p 2 (fun s => s.dbgHalt t (v.getLsbD 38))
  | 2 => s.dbgRun p 2 (fun s => s.dbgResume t)
  | 3 => s.dbgRun p 2 (fun s => s.dbgStep t (getField v 37 22))
  | 4 => s.dbgRun p 2 (fun s => (s.globalStop 0).setResult stOK)
  | 5 => s.dbgRun p 2 (fun s => s.dbgGresume)
  | 6 => s.dbgMem p false
  | 7 => s.dbgMem p true
  | 8 => s.dbgRun p 0 (fun s => s.authNonce)
  | 9 => s.dbgRun p 0 (fun s => s.authToken p)
  | _ => s.dbgRun p 0 (fun s => s.dbgRefused)

/-- A write over the mesh of an offset in a register window (R11 to R18, R547). -/
def State.regWrite (s : State) (m : Master) (off width : Nat) (v : Word) : State :=
  match regionOf off with
  | .regs x o => s.writeWindow m (fun s w => s.dbgCommand (.host m) w) x o width v
  | _ => s.answer stNoUnit []

/-- A read over the mesh of an offset in a register window. -/
def State.regRead (s : State) (off width : Nat) : State :=
  match regionOf off with
  | .regs x o => s.readWindow x o width
  | _ => s.answer stNoUnit (zeros width)

/-- A debug command that reaches the debug unit on its path (R547): the host path is a write of PRM_DBG_CMD. -/
def State.dbgArrive (s : State) (p : DbgPath) (v : Word) : State :=
  match p with
  | .tap => if s.pdOn 58 then s.dbgCommand .tap v else s
  | .host m => s.guardWrite m R.prmDbgCmd 31 [] (fun s => s.dbgCommand (.host m) v)

/-! Transfers. -/

/-- A transfer that reaches its destination (R28, R29, R35). One that an exact-mode step holds off has not been served
(R233). -/
def State.transfer (s : State) (x : MeshXfer) : State :=
  let n := if x.write then x.data.length else x.len
  match regionOf x.off with
  | .regs _ _ => if x.write then s.regWrite x.m x.off n (BitVec.ofNat 64 (leNat x.data)) else s.regRead x.off n
  | _ =>
    if s.heldOff x.m x.off n then s
    else if x.write then s.writeMem x.m x.off x.data else s.readMem x.m x.off n

/-- Mesh hops that needed a second retry for a flit (R27): a LINK event in the ring of partition 0 for each, whose link and state
codes are free values. -/
def State.meshRetries (s : State) (die : Nat) : Nat → State
  | 0 => s
  | n + 1 =>
    let a := s.draw
    let b := a.2.draw
    State.meshRetries (b.2.emit 0 evLink die (leBytes 1 die ++ leBytes 1 (a.1 % 256) ++ leBytes 1 (b.1 % 256))) die n

/-! A function's BARs. -/

/-- Whether a function's BAR0 is cut down to the function block and the boot window (R518): from a chip reset to AWAIT_IMAGE. -/
def State.barShut (s : State) : Bool := s.bootState == 0 || s.resets.any (fun r => decide (3 ≤ r.level))

/-- The register of a function's block at an offset, if the function holds it (R511). -/
def fnReg (fn o : Nat) : Option (RegD × List Nat) :=
  match findReg (regsOf .fn) o with
  | some e => some e
  | none => if fn = 0 then findReg (regsOf .fnpf) o else none

/-- A refused write of a function (R483): discarded, with a PROTECTION event. -/
def State.barDiscard (s : State) (fn target space : Nat) : State := (s.protection (.fn fn) target space).answer stOK []

/-- An access to a function's own block (R12, R483, R511, R520). -/
def State.fnBlock (s : State) (fn : Nat) (write : Bool) (o width : Nat) (v : Word) : State :=
  let shut := !(widthOk o width) || (fn != 0 && s.fenced 2 fn)
  if shut then (if write then s.barDiscard fn o 1 else s.answer stOK (zeros width))
  else match fnReg fn (o / 8 * 8) with
    | none => s.answer stOK (if write then [] else zeros width)
    | some (r, ix) =>
      if write then (s.writeReg (.fn fn) r fn ix (placed o width v) (partMask o width)).answer stOK []
      else s.answer stOK (readPart o width (s.view r fn ix))

/-- An access to a doorbell or a ring register (R486): another function's ring reads 0, and a write to it is discarded with a
PROTECTION event. -/
def State.ringBlock (s : State) (fn : Nat) (write : Bool) (o width : Nat) (v : Word) : State :=
  match if widthOk o width then findReg (regsOf .bar) (o / 8 * 8) else none with
  | none => if write && !(widthOk o width) then s.barDiscard fn o 1 else s.answer stOK (if write then [] else zeros width)
  | some (r, ix) =>
    if s.ringPart (ix.headD 0) ≠ fn then (if write then s.barDiscard fn o 1 else s.answer stOK (zeros width))
    else if write then (s.writeBarReg fn r ix (placed o width v) (partMask o width)).answer stOK []
    else s.answer stOK (readPart o width (s.view r 31 ix))

/-- An access to the boot window (R481): open in AWAIT_IMAGE only. -/
def State.bootBlock (s : State) (write : Bool) (o n : Nat) (v : Word) : State :=
  if s.bootState ≠ 1 then s.answer stOK (if write then [] else zeros n)
  else if write then { s with bootWin := Memory.writeList s.bootWin o (leBytes (min n 8) v.toNat) }.answer stOK []
  else s.answer stOK ((List.range n).map (fun i => s.bootWin.getD (o + i) 0))

/-- An access of the PF through the die aperture (R481, R483): dies 8A to 8A + 7. -/
def State.aperture (s : State) (write : Bool) (o width : Nat) (v : Word) : State :=
  let x := 8 * s.fld R.prmAperture 0 [] 1 0 + o / 0x1000000
  let off := winBase + x * 0x1000000 + o % 0x1000000
  let t := if write then s.regWrite (.fn 0) off width v else s.regRead off width
  if t.ansStatus = stOK then t
  else if write then t.barDiscard 0 (t.globalAddr off) 0 else t.answer stOK (zeros width)

/-- An access of a function through its BAR0 (R481, R483, R518). -/
def State.bar0 (s : State) (fn : Nat) (write : Bool) (off width : Nat) (v : Word) : State :=
  if !(s.fnPresent fn) then s.answer stNoUnit []
  else if off < 0x100000 then s.fnBlock fn write off width v
  else if fn = 0 ∧ 0x4000000 ≤ off ∧ off < 0x5000000 then s.bootBlock write (off - 0x4000000) width v
  else if s.barShut then s.answer stOK (if write then [] else zeros width)
  else if (0x100000 ≤ off ∧ off < 0x140000) ∨ (0x200000 ≤ off ∧ off < 0x300000) then s.ringBlock fn write off width v
  else if fn = 0 ∧ 0x8000000 ≤ off ∧ off < 0x10000000 then s.aperture write (off - 0x8000000) width v
  else s.answer stOK (if write then [] else zeros width)

/-- An access of a function through its BAR2 (R482, R483): at WIN + off, for its partition. A window over the register windows
answers NO_UNIT. -/
def State.bar2 (s : State) (fn : Nat) (write : Bool) (off len : Nat) (data : List Byte) : State :=
  let n := if write then data.length else len
  let a := s.fld R.prmBar2Win fn [] 47 0 + off
  if !(s.fnPresent fn) || decide (bar2Size fn < off + n) then s.answer stNoUnit []
  else if s.heldOff (.fn fn) a n then s
  else
    let t := if write then s.writeMem (.fn fn) a data else s.readMem (.fn fn) a n
    if t.ansStatus = stOK then t
    else if t.ansStatus = stUncorr then t.answer stUncorr []
    else if write then t.barDiscard fn (t.globalAddr a) 0 else t.answer stOK (zeros n)

end Sys2Proof.Machine
end

