-- ==== Sys2Proof/Machine/DumpOps.lean ====
section
/-! DEFINITION. Crash dumps (R530 to R532) over the scan map (R561). -/
namespace Sys2Proof.Machine

/-- The length of a unit's scan data that is fixed, and the data itself as writes from its start; an unlisted byte is 0. -/
structure Scan where
  len : Nat
  data : List (Nat × List Byte)

/-! The scan map (R561). -/

/-- A context image: 1,088 B. -/
def Ctx.scan (c : Ctx) : List Byte :=
  let w8 (t : Tab (BitVec 64)) (n : Nat) : List Byte := (List.range n).flatMap (fun i => leBytes 8 (t.getD i 0).toNat)
  let w16 (t : Tab (BitVec 128)) (n : Nat) : List Byte := (List.range n).flatMap (fun i => leBytes 16 (t.getD i 0).toNat)
  let ps := ((List.range 8).map (fun i => b2n (c.rp i) * 2 ^ i)).sum
  w8 c.s 32 ++ w8 c.a 16 ++ w8 c.m 16 ++ w16 c.w 16 ++ w16 c.l 8 ++ w16 c.t 8 ++
  leBytes 64 (c.pc + c.st.code * 2 ^ 16 + ps * 2 ^ 24 + c.fstat * 2 ^ 32)

/-- The contexts of a unit and its register block, from a window offset on. -/
def State.scanControl (s : State) (u : SeqUnit) (base len : Nat) : Scan :=
  let die := unitDie u
  let n := numCtx u
  let regs := (List.range (len / 8)).map (fun i => match regAt die (base + 8 * i) with
    | some (r, ix) => (n * 1088 + 8 * i, leBytes 8 (s.view r die ix).toNat)
    | none => (n * 1088 + 8 * i, zeros 8))
  { len := n * 1088 + len
    data := (List.range n).map (fun k => (1088 * k, ((s.seq u).ctx k).scan)) ++ regs }

/-- The accumulators by logical row, lane and entry, the held spare row, and the instruction memory of a unit. A spare row that
shadows a logical row holds that row's values. -/
def State.scanArrays (s : State) (u : SeqUnit) : Scan :=
  let q := s.seq u
  let accs := q.acc.map (fun e => (4 * e.1, leBytes 4 e.2.toNat))
  let code (at_ : Nat) : List (Nat × List Byte) := q.code.map (fun e => (at_ + 32 * e.1, leBytes 32 e.2.toNat))
  match u with
  | .iris _ => { len := 67584, data := accs ++ code 2048 }
  | .cluster p =>
    let row := s.shadowRow.getD p 0
    let spare := if q.spareBusy then (q.acc.filter (fun e => e.1 / 16384 == row)).map
        (fun e => (524288 + 4 * (e.1 % 16384), leBytes 4 e.2.toNat)) else []
    { len := 851968, data := accs ++ spare ++ code 589824 }

/-- The bytes of a memory range that are not 0. -/
def State.scanMem (s : State) (src n at_ : Nat) : List (Nat × List Byte) :=
  (s.mem.filter (fun e => decide (src ≤ e.1) && decide (e.1 < src + n))).map (fun e => (at_ + (e.1 - src), [e.2]))

/-- The indexes of a register's instances. -/
def instancesOf : List (Nat × Nat) → List (List Nat)
  | [] => [[]]
  | (n, _) :: t => (List.range n).flatMap (fun i => (instancesOf t).map (fun l => i :: l))

/-- The registers of a die with their window offsets, in ascending offset. -/
def State.scanRegs (s : State) (die : Nat) : List (Nat × Word) :=
  let rs := regsOfDie die ++ (if die = 31 then regsOf .fxg else [])
  let all := rs.flatMap (fun r => (instancesOf r.dims).map (fun ix =>
    ((r.at die ix - winBase) % 0x1000000, if s.pdOn (domainOf r die) then s.view r die ix else 0)))
  all.mergeSort (fun a b => decide (a.1 ≤ b.1))

/-- The scan data of a unit of a die (R561). The packet buffer of a Crocus die is not laid out, so its bytes are free values. -/
def State.scanUnit (s : State) (die kind unit : Nat) : Scan :=
  if die < 16 then
    (if kind = 0 then s.scanControl (.cluster (8 * die + unit)) (0x10000 + 0x1000 * unit) 0x800
     else if kind = 1 then s.scanArrays (.cluster (8 * die + unit))
     else { len := 136314880, data := s.scanMem (spBase die) 0x8000000 0 ++ s.scanMem (xchBase die) 0x200000 0x8000000 })
  else if die < 20 then
    (if kind = 0 then s.scanControl (.iris (48 * (die - 16) + unit)) (0x20000 + 0x400 * unit) 0x400
     else if kind = 1 then s.scanArrays (.iris (48 * (die - 16) + unit))
     else { len := 33554432, data := s.scanMem (irisBase (die - 16)) 0x2000000 0 })
  else if kind = 2 then
    { len := 67108864
      data := (List.range 67108864).map (fun i => (i, [BitVec.ofNat 8 (Config.freeValue (s.free + i))])) }
  else
    let l := s.scanRegs die
    { len := roundUp (16 * l.length) 64
      data := (List.range l.length).zip l |>.map (fun e => (16 * e.1, leBytes 8 e.2.1 ++ leBytes 8 e.2.2.toNat)) }

/-! Records (R531, R532). -/

/-- The 64 B of a dump record's header. -/
def dumpHeader (die kind unit status len ns stamp : Nat) : List Byte :=
  leBytes 1 die ++ leBytes 1 kind ++ leBytes 2 unit ++ leBytes 1 status ++ leBytes 3 0 ++ leBytes 4 len ++ leBytes 4 ns ++
  leBytes 8 stamp ++ zeros 40

/-- The power domain whose scan path reaches a unit. -/
def scanDomain (die kind : Nat) : Nat :=
  if die < 16 then (if kind = 1 then 2 * die else 2 * die + 1)
  else if die < 20 then (if kind = 2 then 33 + 2 * (die - 16) else 32 + 2 * (die - 16))
  else domainOf R.trcCfg die

/-- Whether a unit is HELD, by its own reset or by the chip's (R519, R530). -/
def State.unitHeld (s : State) (die kind unit : Nat) : Bool :=
  let t := if die < 16 then s.logCluster (8 * die + unit) else 0x100 + 48 * (die - 16) + unit
  s.resets.any (fun r => r.st == .held && (decide (3 ≤ r.level) || (decide (die < 20) && kind != 2 && r.level == 1 && r.target == t)))

/-- STATUS of a unit's record, the end of the buffer apart (R531): a disabled die or a domain that is not ON does not answer. -/
def State.scanStatus (s : State) (die kind unit : Nat) : Nat :=
  if !(s.dieOn die) || !(s.pdOn (scanDomain die kind)) then 1
  else if s.gstopped || s.unitHeld die kind unit then 0 else 2

/-- Host memory with a record's data (R530). -/
def State.putScan (s : State) (at_ : Nat) (x : Scan) : State :=
  let h := s.host.keep (fun a => !(decide (at_ ≤ a) && decide (a < at_ + x.len)))
  { s with host := x.data.foldl (fun h e => Memory.writeList h (at_ + e.1) e.2) h }

/-- The dump ends in a state (R531, R543). -/
def State.endDump (s : State) : State := { s.setFld R.prmDumpStat 31 [] 1 0 2 with dump := none }

/-- A record of the next unit with a status (R531, R532): the dump goes on behind it. -/
def State.dumpRecord (s : State) (j : DumpJob) (rest : List (Nat × Nat × Nat)) (die kind unit status : Nat) : State :=
  let x : Scan := if status = 0 then s.scanUnit die kind unit else { len := 0, data := [] }
  let full := j.limit < j.addr + 64 + x.len
  let status := if full then 3 else status
  let len := if full then 0 else x.len
  let ns := s.draw
  let hdr := dumpHeader die kind unit status len (ns.1 % 2 ^ 32) s.lc
  let s := ns.2
  if j.limit < j.addr + 64 then s.endDump
  else
    let s := s.hostStore j.addr hdr
    let s := if status = 0 then s.putScan (j.addr + 64) x else s
    let s := if status = 0 ∧ 20 ≤ die ∧ kind = 2 then { s with free := s.free + 67108864 } else s
    let s := s.setFld R.prmDumpStat 31 [] 47 8 (s.fld R.prmDumpStat 31 [] 47 8 + 64 + len)
    let s := if status = 1 then s.bumpFld R.prmDumpStat 31 [] 63 48 1 else s
    if full then s.endDump else { s with dump := some { j with units := rest, addr := j.addr + 64 + len } }

/-- The next unit of a running dump scanned (R530, R531); `dead` marks one that does not answer in time, which takes TMO_US. -/
def State.dumpNext (s : State) (dead : Bool) : State :=
  match s.dump with
  | none => s
  | some j =>
    match j.units with
    | [] => s.endDump
    | (die, kind, unit) :: rest =>
      let st := if dead then 1 else s.scanStatus die kind unit
      let s := if st = 1 then s.advanceTo (s.lc + 1000 * s.fld R.prmDumpCfg 31 [] 45 32) else s
      s.dumpRecord j rest die kind unit st

/-- The next n units of a running dump scanned. -/
def State.dumpSome (s : State) : Nat → State
  | 0 => s
  | n + 1 => State.dumpSome (s.dumpNext false) n

/-- The rest of a running dump (R530): every unit that is left, and the end. -/
def State.dumpRest (s : State) : State :=
  match s.dump with
  | none => s
  | some j => s.dumpSome (j.units.length + 1)

end Sys2Proof.Machine
end

