-- ==== Sys2Proof/Machine/Debug.lean ====
section
/-! DEFINITION. The meanings of the debug rows (R546 to R573), the crash-dump rows (R530 to R532), and the rows of register, mesh and
BAR accesses (R12 to R18, R28, R481 to R483). -/
namespace Sys2Proof.Machine

/-! Accesses. -/

/-- REGISTER_WRITE (R13): a master writes a register by its node offset. -/
def execRegisterWrite (m : Master) (off width : Nat) (v : BitVec 64) (s : State) : Host.Outcome State Fault Refusal :=
  .next (s.regWrite m off width v)

/-- MESH_TRANSFER (R28): a transfer over the package mesh reaches its destination. -/
def execMeshTransfer (x : MeshXfer) (s : State) : Host.Outcome State Fault Refusal :=
  .next ((s.meshRetries (x.src % 32) x.retries).transfer x)

/-- BAR0_ACCESS (R481, R483). -/
def execBar0Access (fn : Nat) (write : Bool) (off width : Nat) (v : BitVec 64) (s : State) : Host.Outcome State Fault Refusal :=
  .next (s.bar0 fn write off width v)

/-- BAR2_ACCESS (R482, R483). -/
def execBar2Access (fn : Nat) (write : Bool) (off len : Nat) (data : List (BitVec 8)) (s : State) :
    Host.Outcome State Fault Refusal := .next (s.bar2 fn write off len data)

/-- BAR2_WIN_WRITE (R482): a function writes PRM_BAR2_WIN. -/
def execBar2WinWrite (fn : Nat) (v : BitVec 64) (s : State) : Host.Outcome State Fault Refusal :=
  if s.fnPresent fn then .next ((s.writeWin fn v (partMask 0 8)).answer stOK []) else .next (s.answer stNoUnit [])

/-- TW_CFG_WRITE (R569): a function writes TW_CFG of its watch point w. -/
def execTwCfgWrite (fn w : Nat) (v : BitVec 64) (s : State) : Host.Outcome State Fault Refusal :=
  if s.fnPresent fn then .next ((s.writeTw fn (w % 64) v (partMask 0 8)).answer stOK []) else .next (s.answer stNoUnit [])

/-- TRC_DISABLE (R564): _TRC_CFG of a die written with EN 0. -/
def execTrcDisable (m : Master) (die : Nat) (v : BitVec 64) (s : State) : Host.Outcome State Fault Refusal :=
  .next (s.guardWrite m R.trcCfg (die % 32) [] (fun s => s.writeTrcCfg m (die % 32) (setField v 0 0 0) (partMask 0 8)))

/-! Crash dumps. -/

/-- DUMP_GO (R530): PRM_DUMP_CMD written with GO. -/
def execDumpGo (m : Master) (v : BitVec 64) (s : State) : Host.Outcome State Fault Refusal :=
  .next (s.guardWrite m R.prmDumpCmd 31 [] (fun s => s.writeDump (v ||| 0x800000000)))

/-- DUMP_SCAN_TIMEOUT (R531): n units of the running dump answer, and the next one does not within TMO_US. -/
def execDumpScanTimeout (n : Nat) (s : State) : Host.Outcome State Fault Refusal := .next ((s.dumpSome n).dumpNext true)

/-- DUMP_COMPLETE (R530): the running dump has scanned every named unit. -/
def execDumpComplete (s : State) : Host.Outcome State Fault Refusal := .next s.dumpRest

/-! The debug port. -/

/-- An instruction of the port (R546): the instruction register takes it and its data register is captured. -/
def State.tapTake (s : State) (ir : Nat) (dr : List Byte) : State := ({ s with tapIr := ir }).answer stOK dr

/-- The 32 bits of IDCODE (R1, R546). -/
def State.idcode (s : State) : Nat :=
  1 + 0x2B5 * 2 + (if s.ident.vx3214 then 0x5814 else 0x5816) * 2 ^ 12 + b2n s.ident.b0 * 2 ^ 28

/-- An instruction that needs a level on the TAP path (R548, R550): refused, it does nothing. In RETIRED the port answers only IDCODE
and BYPASS. -/
def State.tapRun (s : State) (level : Nat) (k : State → State) : Host.Outcome State Fault Refusal :=
  if !(s.pdOn 58) then .next s
  else if s.tapClosed || s.tapLevel < level then .next (s.dbgDenied .tap)
  else .next (k s)

/-- TAP_EXTEST (R546): the boundary-scan cells are captured; their order and values are the description file's. -/
def execTapExtest (s : State) : Host.Outcome State Fault Refusal := s.tapRun 3 (fun s =>
  let d := s.draw
  d.2.tapTake 0x00 (Config.boundaryScan d.1))

/-- TAP_IDCODE (R546). -/
def execTapIdcode (s : State) : Host.Outcome State Fault Refusal :=
  if s.pdOn 58 then .next (s.tapTake 0x01 (leBytes 4 s.idcode)) else .next s

/-- TAP_SAMPLE_PRELOAD (R546). -/
def execTapSamplePreload (s : State) : Host.Outcome State Fault Refusal := s.tapRun 3 (fun s =>
  let d := s.draw
  d.2.tapTake 0x02 (Config.boundaryScan d.1))

/-- TAP_DBG_CMD (R546, R547): PRM_DBG_CMD through its data register; WO, so it captures 0. -/
def execTapDbgCmd (v : BitVec 64) (s : State) : Host.Outcome State Fault Refusal :=
  s.tapRun 0 (fun s => (s.tapTake 0x10 (zeros 8)).dbgCommand .tap v)

/-- TAP_DBG_ADDR (R546): PRM_DBG_ADDR. -/
def execTapDbgAddr (v : BitVec 64) (s : State) : Host.Outcome State Fault Refusal := s.tapRun 1 (fun s =>
  (s.tapTake 0x11 (leBytes 8 (s.view R.prmDbgAddr 31 []).toNat)).writePrm (.debug s.tapLevel) R.prmDbgAddr [] v (partMask 0 8))

/-- TAP_DBG_DATA (R546): PRM_DBG_DATA. -/
def execTapDbgData (v : BitVec 64) (s : State) : Host.Outcome State Fault Refusal := s.tapRun 1 (fun s =>
  (s.tapTake 0x12 (leBytes 8 (s.view R.prmDbgData 31 []).toNat)).writePrm (.debug s.tapLevel) R.prmDbgData [] v (partMask 0 8))

/-- TAP_DBG_STAT (R546): PRM_DBG_STAT; a shifted-in value is ignored. -/
def execTapDbgStat (s : State) : Host.Outcome State Fault Refusal :=
  s.tapRun 0 (fun s => s.tapTake 0x13 (leBytes 8 (s.view R.prmDbgStat 31 []).toNat))

/-- TAP_DBG_AUTH (R546, R549): four bytes into the authentication buffer; the four bytes at the previous OFFSET are captured. -/
def execTapDbgAuth (v : BitVec 48) (s : State) : Host.Outcome State Fault Refusal := s.tapRun 0 (fun s =>
  let off := getField v 11 2 * 4
  let t := s.tapTake 0x14 (leBytes 2 s.authOfs ++ s.authBytes s.authOfs 4)
  { t.setAuth off (getField v 47 16) with authOfs := off })

/-- TAP_BYPASS (R546): code 0xFF, or any code that the table does not list. A listed code is no BYPASS. -/
def execTapBypass (code : BitVec 8) (s : State) : Host.Outcome State Fault Refusal :=
  if !(s.pdOn 58) || [0x00, 0x01, 0x02, 0x10, 0x11, 0x12, 0x13, 0x14].contains code.toNat then .next s
  else .next (s.tapTake code.toNat [0])

/-- TRST_ASSERT (R546, R549): the port is reset and the grant ends. -/
def execTrstAssert (s : State) : Host.Outcome State Fault Refusal :=
  .next { s.setFld R.prmDbgStat 31 [] 17 16 0 with tapIr := 1 }

/-! Debug commands. -/

/-- A debug command with an OP that reaches the debug unit on a path. -/
def State.dbgOp (s : State) (p : DbgPath) (op : Nat) (v : Word) : State := s.dbgArrive p (setField v 7 0 op)

/-- DBG_HALT (R551). -/
def execDbgHalt (p : DbgPath) (v : BitVec 64) (s : State) : Host.Outcome State Fault Refusal := .next (s.dbgOp p 1 v)

/-- DBG_RESUME (R551). -/
def execDbgResume (p : DbgPath) (v : BitVec 64) (s : State) : Host.Outcome State Fault Refusal := .next (s.dbgOp p 2 v)

/-- DBG_STEP (R553). -/
def execDbgStep (p : DbgPath) (v : BitVec 64) (s : State) : Host.Outcome State Fault Refusal := .next (s.dbgOp p 3 v)

/-- DBG_STEP_END (R553). -/
def execDbgStepEnd (u : SeqUnit) (s : State) : Host.Outcome State Fault Refusal := .next (s.stepEnd u)

/-- DBG_GSTOP (R558). -/
def execDbgGstop (p : DbgPath) (s : State) : Host.Outcome State Fault Refusal := .next (s.dbgOp p 4 0)

/-- DBG_STOP_N_ASSERT (R558): DBG_STOP_N is driven low. -/
def execDbgStopNAssert (s : State) : Host.Outcome State Fault Refusal := .next (if s.pdOn 58 then s.globalStop 4 else s)

/-- DBG_GRESUME (R560). -/
def execDbgGresume (p : DbgPath) (s : State) : Host.Outcome State Fault Refusal := .next (s.dbgOp p 5 0)

/-- GLOBAL_RESUME (R560): the instant that an accepted GRESUME named. -/
def execGlobalResume (s : State) : Host.Outcome State Fault Refusal := .next s.globalResume

/-- DBG_MEM_RD (R557). -/
def execDbgMemRd (p : DbgPath) (s : State) : Host.Outcome State Fault Refusal := .next (s.dbgOp p 6 0)

/-- DBG_MEM_WR (R557). -/
def execDbgMemWr (p : DbgPath) (s : State) : Host.Outcome State Fault Refusal := .next (s.dbgOp p 7 0)

/-- DBG_AUTH_NONCE (R549). -/
def execDbgAuthNonce (p : DbgPath) (s : State) : Host.Outcome State Fault Refusal := .next (s.dbgOp p 8 0)

/-- DBG_AUTH_TOKEN (R549, R550). -/
def execDbgAuthToken (p : DbgPath) (s : State) : Host.Outcome State Fault Refusal := .next (s.dbgOp p 9 0)

/-- BREAKPOINT_HIT (R555): the next bundle of a unit's running context meets an armed breakpoint. -/
def execBreakpointHit (u : SeqUnit) (w : Bundle) (s : State) : Host.Outcome State Fault Refusal :=
  match (s.seq u).run with
  | none => .next s
  | some k =>
    if !(s.seq u).canIssue then .next s
    else
      let t := (s.seq u).next
      let s := s.settle u t
      if (s.seq u).canIssue && (s.seq u).run == some k && s.bpStops u k t w then .next (s.breakHit u k) else .next s

end Sys2Proof.Machine
end

