-- ==== Sys2Proof/Machine/Fabric.lean ====
section
/-! DEFINITION. The meanings of the fabric rows (R379, R393 to R428, R490, R491). A Lupin die operand names die 22 to 25
by its remainder. -/
namespace Sys2Proof.Machine

/-- The Lupin die that an operand names. -/
def lupin (die : Nat) : Nat := 22 + die % 4

/-- NODE_LOCK (R393, R428): LPN_NODE written with LOCK. -/
def execNodeLock (m : Master) (die : Nat) (v : BitVec 64) (s : State) : Host.Outcome State Fault Refusal :=
  let w := v ||| 0x1000000
  .next (s.guardWrite m R.lpnNode (lupin die) [] (fun s =>
    s.nodeWide m R.lpnNode (lupin die) [] w (fun s => s.writeNode m w (partMask 0 8))))

/-- REGION_WRITE (R396, R428): word ix of the region descriptors written. -/
def execRegionWrite (m : Master) (die ix : Nat) (v : BitVec 64) (s : State) : Host.Outcome State Fault Refusal :=
  let i := ix % 8192
  .next (s.guardWrite m R.lpnRegion (lupin die) [i] (fun s =>
    s.nodeWide m R.lpnRegion (lupin die) [i] v (fun s => s.writeRegion m i v (partMask 0 8))))

/-- FABRIC_REQUEST_ARRIVAL (R397, R398, R403, R404): a request from a link reaches its home, or with none the i-th of the
requests on their way from this node's own issuers. -/
def execFabricRequestArrival (ext : Option FabReq) (i : Nat) (s : State) : Host.Outcome State Fault Refusal :=
  match ext with
  | some r => .next (s.arriveReq r)
  | none =>
    match s.localReqs[i]? with
    | none => .next s
    | some r => .next ({ s with localReqs := s.localReqs.eraseIdx i }.arriveReq r)

/-- HOT_LINE_SERVE (R409): the next request of a line's queue is applied, 8 ns after the last at the earliest, unless an
exact-mode step holds it off (R233). -/
def execHotLineServe (die line : Nat) (s : State) : Host.Outcome State Fault Refusal :=
  let k := die % 4
  match s.lineOf k line with
  | none => .next s
  | some x =>
    match x.queue with
    | [] => .next s
    | r :: t =>
      if s.reqHeld r then .next s
      else
        let s := s.advanceTo x.freeLc
        .next ((s.setLine k { x with queue := t, freeLc := s.lc + 8 }).serveReq k r)

/-- HOT_TOKEN_TIMEOUT (R411): 100 µs with no attempt of its holder free the starvation token. -/
def execHotTokenTimeout (die : Nat) (s : State) : Host.Outcome State Fault Refusal :=
  let k := die % 4
  match (s.home k).token with
  | none => .next s
  | some (_, _, lc) =>
    let s := s.advanceTo (lc + 100000)
    .next (s.setHome k { s.home k with token := none })

/-- FABRIC_REPLY_ARRIVAL (R402, R405): an answer from a link of a Lupin die, or with none the i-th of those on their way
from this node's own homes. -/
def execFabricReplyArrival (die : Nat) (ext : Option FabReply) (i : Nat) (s : State) : Host.Outcome State Fault Refusal :=
  match ext with
  | some p => .next (s.arriveReply die p)
  | none =>
    match s.localReps[i]? with
    | none => .next s
    | some p => .next ({ s with localReps := s.localReps.eraseIdx i }.arriveReply die p)

/-- LOSS_RETRY (R402). -/
def execLossRetry (id : Nat) (s : State) : Host.Outcome State Fault Refusal := .next (s.lossRetry id)

/-- HOT_RETRY (R402). -/
def execHotRetry (id : Nat) (s : State) : Host.Outcome State Fault Refusal := .next (s.hotRetry id)

/-- ATTEMPT_WINDOW_CLOSE (R405). -/
def execAttemptWindowClose (id : Nat) (s : State) : Host.Outcome State Fault Refusal := .next (s.windowClose id)

/-- OUTCOME_UNKNOWN_TIMEOUT (R405). -/
def execOutcomeUnknownTimeout (id : Nat) (s : State) : Host.Outcome State Fault Refusal := .next (s.unknownTimeout id)

/-- RECEIPT_EXPIRY (R404): the oldest APPLIED receipt of a home expires, 2 ms after its application. -/
def execReceiptExpiry (die : Nat) (s : State) : Host.Outcome State Fault Refusal :=
  let k := die % 4
  match (((s.home k).receipts.filter (fun r => r.reply.isSome)).map (fun r => r.lc)).min? with
  | none => .next s
  | some lc =>
    let s := s.advanceTo (lc + 2000000)
    .next (s.setHome k { s.home k with receipts := s.receiptsOf k })

/-- PEER_TABLE_WRITE (R413, R414, R428): four entries of the peer table written. -/
def execPeerTableWrite (m : Master) (die k : Nat) (v : BitVec 64) (s : State) : Host.Outcome State Fault Refusal :=
  let i := k % 16384
  .next (s.guardWrite m R.lpnPeer (lupin die) [i] (fun s =>
    s.nodeWide m R.lpnPeer (lupin die) [i] v (fun s => s.writePeer i v (partMask 0 8))))

/-- A write of LPN_MIRROR_CMD with an OP and GO (R428). -/
def State.mirrorCmd (s : State) (m : Master) (die op : Nat) (v : Word) : State :=
  let w := setField (setField v 15 12 op) 16 16 1
  s.guardWrite m R.lpnMirrorCmd (lupin die) [] (fun s => s.writeMirrorCmd m (lupin die) w)

/-- MIRROR_RESYNC (R417, R419). -/
def execMirrorResync (m : Master) (die : Nat) (v : BitVec 64) (s : State) : Host.Outcome State Fault Refusal :=
  .next (s.mirrorCmd m die 1 v)

/-- MIRROR_PROMOTE (R417). -/
def execMirrorPromote (m : Master) (die : Nat) (v : BitVec 64) (s : State) : Host.Outcome State Fault Refusal :=
  .next (s.mirrorCmd m die 2 v)

/-- MIRROR_RELEASE (R417, R420). -/
def execMirrorRelease (m : Master) (die : Nat) (v : BitVec 64) (s : State) : Host.Outcome State Fault Refusal :=
  .next (s.mirrorCmd m die 3 v)

/-- RESYNC_COMPLETE (R417, R419): the last byte of region n is copied and acknowledged: the primary becomes MIRRORED, no
sooner than 64 GB/s allows; on the partner the RECEIVING copy does. -/
def execResyncComplete (n : Nat) (s : State) : Host.Outcome State Fault Refusal :=
  let i := n % 4096
  if !((s.region i).2.getLsbD 25) then .next s
  else if s.regionRole i = 1 ∧ s.regionState i = 3 then
    .next ((s.advanceTo ((s.mirror i).startLc + getField (s.region i).2 17 0 * 0x200000 / 64)).setMirror i 1)
  else if s.regionRole i = 2 ∧ s.regionState i = 4 then .next (s.setMirror i 1)
  else .next s

/-- MIRROR_COPY_TIMEOUT (R417, R420): a copy of region n unanswered 2 ms after its first attempt. -/
def execMirrorCopyTimeout (n : Nat) (s : State) : Host.Outcome State Fault Refusal :=
  let i := n % 4096
  match ((s.mirror i).waits.map (fun w => w.lc)).min? with
  | none => .next s
  | some lc =>
    if s.regionRole i = 1 ∧ (s.regionState i = 1 ∨ s.regionState i = 3) then .next ((s.advanceTo (lc + 2000000)).toSingle i)
    else .next s

/-- SECONDARY_COPY_TIMEOUT (R417): a RECEIVING secondary without a copy for 2 ms is LOST. -/
def execSecondaryCopyTimeout (n : Nat) (s : State) : Host.Outcome State Fault Refusal :=
  let i := n % 4096
  if s.regionRole i = 2 ∧ s.regionState i = 4 then .next ((s.advanceTo ((s.mirror i).copyLc + 2000000)).setMirror i 5)
  else .next s

/-- RELEASE_NOTICE (R417, R420): the partner of region n has released it. -/
def execReleaseNotice (n : Nat) (s : State) : Host.Outcome State Fault Refusal :=
  if (s.region (n % 4096)).2.getLsbD 25 then .next (s.released (n % 4096)) else .next s

/-- LINK_CONFIG_WRITE (R423, R428). -/
def execLinkConfigWrite (m : Master) (die j : Nat) (v : BitVec 64) (s : State) : Host.Outcome State Fault Refusal :=
  .next (s.guardWrite m R.lpnLink (lupin die) [j % 8] (fun s => s.writeLink m (lupin die) (j % 8) v (partMask 0 8)))

/-- LINK_FLIT_SEND (R424, R426). -/
def execLinkFlitSend (die j : Nat) (s : State) : Host.Outcome State Fault Refusal := .next (s.sendFlit (lupin die) (j % 8))

/-- FLIT_CRC_FAIL (R424). -/
def execFlitCrcFail (die j : Nat) (s : State) : Host.Outcome State Fault Refusal := .next (s.replayLink (lupin die) (j % 8))

/-- LINK_ACK_TIMEOUT (R424). -/
def execLinkAckTimeout (die j : Nat) (s : State) : Host.Outcome State Fault Refusal := .next (s.ackTimeout (lupin die) (j % 8))

/-- LINK_ACK_RECEIVED (R424). -/
def execLinkAckReceived (die j seq : Nat) (s : State) : Host.Outcome State Fault Refusal :=
  .next (s.ackFlits (lupin die) (j % 8) seq)

/-- LANE_FAULT (R425): a lane loses lock (no code words), or its FEC reports uncorrectable code words within 1 µs. -/
def execLaneFault (die lane : Nat) (optical : Bool) (codewords : Nat) (s : State) : Host.Outcome State Fault Refusal :=
  .next (s.laneFault (lupin die) (lane % 24) optical codewords)

/-- LANE_SPARE_RESUME (R425). -/
def execLaneSpareResume (die j : Nat) (s : State) : Host.Outcome State Fault Refusal := .next (s.spareResume (lupin die) (j % 8))

/-- LINK_STALL_DOWN (R425). -/
def execLinkStallDown (die j : Nat) (s : State) : Host.Outcome State Fault Refusal := .next (s.stallDown (lupin die) (j % 8))

/-- LINK_TRAINED (R423). -/
def execLinkTrained (die j : Nat) (s : State) : Host.Outcome State Fault Refusal := .next (s.linkTrained (lupin die) (j % 8))

/-- LANE_MAPPING_NOTICE (R425): the far end has moved a lane to a wavelength of its fibre pair, which carries it from now
on. -/
def execLaneMappingNotice (die lane wave : Nat) (s : State) : Host.Outcome State Fault Refusal :=
  let d := lupin die
  let l := lane % 24
  let w := wave % 5
  .next (((s.setFld R.lpnLane d [l] 7 5 w).setFld R.phxFp (d + 4) [l / 4] (5 + w) (5 + w) 1).traceLink d l 1)

/-- YELLOW_REQUEST_SEND (R379). -/
def execYellowRequestSend (pair : Nat) (s : State) : Host.Outcome State Fault Refusal := .next (s.yellowSend (lupin pair))

/-- CMD_FABRIC_RLD (R394, R490, R491): the next command of ring r, a remote load, issues. -/
def execCmdFabricRld (r : Nat) (s : State) : Host.Outcome State Fault Refusal := .next (s.startFabric r 0x08)

/-- CMD_FABRIC_RST (R394, R490, R491): a remote store. -/
def execCmdFabricRst (r : Nat) (s : State) : Host.Outcome State Fault Refusal := .next (s.startFabric r 0x09)

/-- CMD_FABRIC_RAT (R394, R490, R491): a remote atomic. -/
def execCmdFabricRat (r : Nat) (s : State) : Host.Outcome State Fault Refusal := .next (s.startFabric r 0x0A)

/-- CMD_FABRIC_PUT (R394, R490, R491): a block put. -/
def execCmdFabricPut (r : Nat) (s : State) : Host.Outcome State Fault Refusal := .next (s.startFabric r 0x0B)

/-- CMD_FABRIC_GET (R394, R490, R491): a block get. -/
def execCmdFabricGet (r : Nat) (s : State) : Host.Outcome State Fault Refusal := .next (s.startFabric r 0x0C)

end Sys2Proof.Machine
end

