-- ==== Sys2Proof/Machine/Iris.lean ====
section
/-! DEFINITION. The meanings of the Iris rows: slot timers and images (R297 to R301), engine jobs (R304 to R324) and the
backhaul link (R326 to R331). The Iris number is taken modulo 4. -/
namespace Sys2Proof.Machine

/-- SLOT_TIMER_TICK (R297, R298, R300): the next tick of an enabled timer, whose tokens reach the cores dt signal cycles
later, at most 170. -/
def execSlotTimerTick (i t dt : Nat) (s : State) : Host.Outcome State Fault Refusal :=
  if s.gstopped then .next s else .next (s.timerTick (i % 4) (t % 8) dt)

/-- STIMER_CFG_WRITE (R332, R471). -/
def execStimerCfgWrite (m : Master) (i t : Nat) (v : BitVec 64) (s : State) : Host.Outcome State Fault Refusal :=
  .next (s.guardWrite m R.irsStimerCfg (16 + i % 4) [t % 8] (fun s => s.writeStimer m (i % 4) (t % 8) v (partMask 0 8)))

/-- IRIS_IMAGE_LOAD (R299, R300, R333): a write of IRS_CORE_IMG. -/
def execIrisImageLoad (m : Master) (i c : Nat) (v : BitVec 64) (s : State) : Host.Outcome State Fault Refusal :=
  .next (s.guardWrite m R.irsCoreImg (16 + i % 4) [c % 48] (fun s => s.writeImg m (i % 4) (c % 48) v (partMask 0 8)))

/-- IRIS_IMAGE_START (R301). -/
def execIrisImageStart (i c : Nat) (s : State) : Host.Outcome State Fault Refusal := .next (s.runImage (i % 4) (c % 48))

/-- ENGINE_JOB_START (R306, R307, R309). -/
def execEngineJobStart (i q : Nat) (s : State) : Host.Outcome State Fault Refusal := .next (s.startJob (i % 4) (q % 64))

/-- FFT_JOB (R313, R314): the FFT engine runs the job that its queue has started. -/
def execFftJob (i q : Nat) (s : State) : Host.Outcome State Fault Refusal := .next (s.engine 1 (i % 4) (q % 64))

/-- LDPC_DECODE_JOB (R315 to R317, R324). -/
def execLdpcDecodeJob (i q : Nat) (s : State) : Host.Outcome State Fault Refusal := .next (s.engine 2 (i % 4) (q % 64))

/-- LDPC_ENCODE_JOB (R318). -/
def execLdpcEncodeJob (i q : Nat) (s : State) : Host.Outcome State Fault Refusal := .next (s.engine 3 (i % 4) (q % 64))

/-- POLAR_ENCODE_JOB (R319). -/
def execPolarEncodeJob (i q : Nat) (s : State) : Host.Outcome State Fault Refusal := .next (s.engine 4 (i % 4) (q % 64))

/-- POLAR_DECODE_JOB (R319, R320). -/
def execPolarDecodeJob (i q : Nat) (s : State) : Host.Outcome State Fault Refusal := .next (s.engine 5 (i % 4) (q % 64))

/-- DEMAP_JOB (R321 to R323). -/
def execDemapJob (i q : Nat) (s : State) : Host.Outcome State Fault Refusal := .next (s.engine 6 (i % 4) (q % 64))

/-- ENGINE_JOB_COMPLETE (R307, R310, R311). -/
def execEngineJobComplete (i q : Nat) (s : State) : Host.Outcome State Fault Refusal := .next (s.endJob (i % 4) (q % 64))

/-- ENGINE_QUEUE_TOKEN (R307): the oldest token on its way to an engine queue arrives. -/
def execEngineQueueToken (i q : Nat) (s : State) : Host.Outcome State Fault Refusal :=
  match s.tokens.findIdx? (fun (m : TokenMsg) => m.target.kind == 2 && m.target.unit == 64 * (i % 4) + q % 64) with
  | none => .next s
  | some k => match s.tokens[k]? with
    | none => .next s
    | some m => .next (({ s with tokens := s.tokens.eraseIdx k }).deliverToken m 0)

/-- EQ_GATE_WRITE (R307, R332): a write of IRS_EQ. -/
def execEqGateWrite (m : Master) (i q : Nat) (v : BitVec 64) (s : State) : Host.Outcome State Fault Refusal :=
  .next (s.guardWrite m R.irsEq (16 + i % 4) [q % 64] (fun s => s.writeEq (i % 4) (q % 64) v (partMask 0 8)))

/-- BH_OFFER (R329): software offers the table that lies at an offset of the die's SRAM. -/
def execBhOffer (i seq at_ : Nat) (s : State) : Host.Outcome State Fault Refusal :=
  let t := s.bytes (irisBase (i % 4) + at_ % 0x1FFF800) 2048
  .next (s.setBh (i % 4) ((s.bhOf (i % 4)).offer s.lc seq t))

/-- BH_LOAD_REQ (R328, R330): a LOAD_REQ reaches the transmitting end, which builds a frame of the given FRAME_NO. -/
def execBhLoadReq (i frame : Nat) (msg : List (BitVec 8)) (s : State) : Host.Outcome State Fault Refusal :=
  .next (s.setBh (i % 4) ((s.bhOf (i % 4)).answerLoad (frame % 65536) msg))

/-- BH_ACK (R329): an ACK(s, f) reaches the offering end. -/
def execBhAck (i seq f : Nat) (s : State) : Host.Outcome State Fault Refusal :=
  let b := s.bhOf (i % 4)
  if b.st = .offered ∧ b.seq = seq then .next (s.setBh (i % 4) { b with st := .armed, switch := f % 65536 }) else .next s

/-- BH_NACK (R329): a NACK(s) reaches the offering end. -/
def execBhNack (i seq : Nat) (s : State) : Host.Outcome State Fault Refusal :=
  let b := s.bhOf (i % 4)
  if b.st = .offered ∧ b.seq = seq then .next (s.setBh (i % 4) b.release) else .next s

/-- BH_OFFER_TIMEOUT (R329): 1 ms after the last LOAD_REQ. -/
def execBhOfferTimeout (i : Nat) (s : State) : Host.Outcome State Fault Refusal :=
  let b := s.bhOf (i % 4)
  if b.st ≠ .offered then .next s
  else
    let s := s.advanceTo (b.sentLc + 1000000)
    .next (s.setBh (i % 4) (b.resend s.lc))

/-- BH_FRAME_RECEIVED (R326, R329, R331): a frame's header, if it decodes, and whether its payload decodes. -/
def execBhFrameReceived (i : Nat) (header : Option Nat) (payload : Bool) (s : State) : Host.Outcome State Fault Refusal :=
  .next (s.setBh (i % 4) ((s.bhOf (i % 4)).frame s.lc header payload))

/-- BH_FALLBACK (R331): a FALLBACK reaches the transmitting end, which builds a frame of the given FRAME_NO. -/
def execBhFallback (i frame : Nat) (s : State) : Host.Outcome State Fault Refusal :=
  .next (s.setBh (i % 4) ((s.bhOf (i % 4)).fallTx (frame + 1)))

/-- BH_HEADER_TIMEOUT (R329, R331): 2 ms with no header decoded from the far end. -/
def execBhHeaderTimeout (i frame : Nat) (s : State) : Host.Outcome State Fault Refusal :=
  let b := s.bhOf (i % 4)
  let b := if b.st = .idle then b else b.release
  .next ((s.advanceTo (b.headerLc + 2000000)).setBh (i % 4) (b.fallTx (frame + 1)))

end Sys2Proof.Machine
end

