-- ==== Sys2Proof/Machine/Mac.lean ====
section
/-! DEFINITION. The meanings of the MAC slot rows (R156, R157, R64). -/
namespace Sys2Proof.Machine

/-- MMA (R157): MAC MMA runs the lane-row operation that its tile describes, in deep or wide-shallow form. -/
def execMma (u : SeqUnit) (t : BitVec 3) (w : Bundle) (s : State) :
    Host.Outcome State Fault Refusal :=
  .next (s.issue u (w.withMac (.mma t)))

/-- MMAK (R156): MAC MMAK runs as MMA with K taken from Sk. -/
def execMmak (u : SeqUnit) (t : BitVec 3) (sk : BitVec 5) (w : Bundle) (s : State) :
    Host.Outcome State Fault Refusal :=
  .next (s.issue u (w.withMac (.mmak t sk)))

/-- FORMSW (R64): MAC FORMSW switches the cluster between deep and wide-shallow form in 4 lane cycles. -/
def execFormsw (u : SeqUnit) (wide : Bool) (w : Bundle) (s : State) :
    Host.Outcome State Fault Refusal :=
  .next (s.issue u (w.withMac (.formsw wide)))

end Sys2Proof.Machine
end

