-- ==== Sys2Proof/Machine/Memory.lean ====
section
/-! DEFINITION. The meanings of the memory rows (R213 to R246, R591). A die, stack or engine number beyond the device's
count is taken modulo the count. -/
namespace Sys2Proof.Machine

/-- SP_CFG_LOCK (R213, R15): DHL_SP_CFG written with LOCK. -/
def execSpCfgLock (m : Master) (die : Nat) (v : BitVec 64) (s : State) : Host.Outcome State Fault Refusal :=
  .next (s.guardWrite m R.dhlSpCfg (die % 16) [] (fun s =>
    s.plainWrite m R.dhlSpCfg (die % 16) [] (v ||| 0x100) (partMask 0 8)))

/-- SP_PWR_CMD (R221): DHL_SP_PWR_CMD written with GO. -/
def execSpPwrCmd (m : Master) (die : Nat) (v : BitVec 64) (s : State) : Host.Outcome State Fault Refusal :=
  .next (s.guardWrite m R.dhlSpPwrCmd (die % 16) [] (fun s => s.writeSpPwr m (die % 16) (v ||| 0x10000000000)))

/-- BANK_GROUP_TRANSITION_DONE (R222): the transition of bank group g ends; under die-wide interleave the 32 groups end
together (R220). -/
def execBankGroupTransitionDone (die g : Nat) (s : State) : Host.Outcome State Fault Refusal :=
  let d := die % 16
  if s.groupWide d then .next (s.endPower d (g % 32))
  else .next ((List.range 32).foldl (fun s g => s.endPower d g) s)

/-- OWNER_RECORD_APPLY (R219, R266): the i-th owner change that waits is applied if it may be. -/
def execOwnerRecordApply (i : Nat) (s : State) : Host.Outcome State Fault Refusal := .next (s.applyOwner i)

/-- SEALED_WIPE (R228, R229): the first cause that awaits die d reaches it and starts a wipe. -/
def execSealedWipe (die : Nat) (s : State) : Host.Outcome State Fault Refusal :=
  let i := s.wipes.findIdx (fun w => w.die == die)
  match s.wipes[i]? with
  | none => .next s
  | some w => .next ({ s with wipes := s.wipes.eraseIdx i }.startWipe w.die w.cause w.slices)

/-- SEALED_WIPE_COMPLETE (R229): the wipe of die d ends. -/
def execSealedWipeComplete (die : Nat) (s : State) : Host.Outcome State Fault Refusal :=
  let d := die % 16
  if s.fld R.dhlSealedStatus d [] 0 0 = 1 then .next (s.endWipe d) else .next s

/-- HBM_TRAINING_DONE (R591): the training of stack d ends; a failure raises a STATE event. -/
def execHbmTrainingDone (die : Nat) (ok : Bool) (s : State) : Host.Outcome State Fault Refusal :=
  let d := die % 16
  if !(s.training.contains d) then .next s
  else
    let s := { s with training := s.training.filter (fun x => x != d) }
    if ok then .next (s.setFld R.dhlHbmStatus d [] 0 0 1) else .next (s.stateEvent (R.dhlHbmStatus.at d []) 0 0)

/-- HBM_SCRUB_PASS (R238): the patrol scrubber completes a pass, unless PERIOD_H is 0. -/
def execHbmScrubPass (die : Nat) (s : State) : Host.Outcome State Fault Refusal :=
  let d := die % 16
  if s.fld R.dhlHbmScrub d [] 15 0 = 0 ∨ s.fld R.dhlHbmStatus d [] 0 0 = 0 then .next s
  else .next (s.setFld R.dhlHbmScrub d [] 47 16 (s.fld R.dhlHbmScrub d [] 47 16 + 1))

/-- TLP_CFG_LOCK (R240): TLP_CFG written with LOCK. -/
def execTlpCfgLock (m : Master) (v : BitVec 64) (s : State) : Host.Outcome State Fault Refusal :=
  .next (s.guardWrite m R.tlpCfg 30 [] (fun s => s.writeTlpCfg m (v ||| 0x100) (partMask 0 8)))

/-- LPDDR_TRAINING_DONE (R240): the channels of a mask have trained. -/
def execLpddrTrainingDone (mask : Nat) (s : State) : Host.Outcome State Fault Refusal :=
  if !(s.training.contains 30) then .next s
  else
    let s := { s with training := s.training.filter (fun x => x != 30) }
    .next ((s.setFld R.tlpStatus 30 [] 7 0 mask).tierUp)

/-- TIER_DMA_TAIL_WRITE (R244, R249): TLP_DMA_TAIL of engine e written. -/
def execTierDmaTailWrite (m : Master) (e : Nat) (v : BitVec 64) (s : State) : Host.Outcome State Fault Refusal :=
  .next (s.guardWrite m R.tlpDmaTail 30 [e % 8] (fun s => s.writeTierTail m (e % 8) v (partMask 0 8)))

/-- TIER_DMA_BASE_WRITE (R246): TLP_DMA_BASE of engine e written. -/
def execTierDmaBaseWrite (m : Master) (e : Nat) (v : BitVec 64) (s : State) : Host.Outcome State Fault Refusal :=
  .next (s.guardWrite m R.tlpDmaBase 30 [e % 8] (fun s => s.writeTierBase (e % 8) v (partMask 0 8)))

/-- TIER_DMA_DESCRIPTOR (R244 to R246): engine e takes the descriptor at HEAD, or stops. -/
def execTierDmaDescriptor (e : Nat) (s : State) : Host.Outcome State Fault Refusal := .next (s.startTier (e % 8))

/-- TIER_DMA_DESC_COMPLETE (R245, R246): the descriptor in engine e ends. -/
def execTierDmaDescComplete (e : Nat) (s : State) : Host.Outcome State Fault Refusal := .next (s.endTier (e % 8))

end Sys2Proof.Machine
end

