-- ==== Sys2Proof/Machine/Power.lean ====
section
/-! DEFINITION. The meanings of the power, heat and sideband rows (R577 to R585). -/
namespace Sys2Proof.Machine

/-- PD_CMD_ON (R577): PRM_PD_CMD written with ON and GO. -/
def execPdCmdOn (m : Master) (v : BitVec 64) (s : State) : Host.Outcome State Fault Refusal :=
  .next (s.guardWrite m R.prmPdCmd 31 [] (fun s => s.writePd m (v ||| 0xC0)))

/-- PD_CMD_OFF (R577): PRM_PD_CMD written with OFF and GO. -/
def execPdCmdOff (m : Master) (v : BitVec 64) (s : State) : Host.Outcome State Fault Refusal :=
  .next (s.guardWrite m R.prmPdCmd 31 [] (fun s => s.writePd m (setField v 6 6 0 ||| 0x80)))

/-- PD_TRANSITION_DONE (R577): the transition of a domain ends. -/
def execPdTransitionDone (dom : Nat) (s : State) : Host.Outcome State Fault Refusal := .next (s.endPd dom)

/-- POWER_SAMPLE (R580): a measurement of package power, in 0.125 W, and of the largest rail current, in thousandths of its
maximum. -/
def execPowerSample (power rail : Nat) (s : State) : Host.Outcome State Fault Refusal :=
  if s.pdOn 54 then .next (s.powerSample power rail) else .next s

/-- TEMP_SAMPLE (R580): a reading of every die's hottest sensor, by die index. -/
def execTempSample (temps : List Int) (s : State) : Host.Outcome State Fault Refusal :=
  if s.pdOn 54 then .next (s.tempSample temps) else .next s

/-- THERMTRIP (R583): a die has reached 115 °C. -/
def execThermtrip (die : Nat) (s : State) : Host.Outcome State Fault Refusal :=
  if s.porLow || decide (32 ≤ die) || !(s.dieOn die) then .next s else .next { s with thermtrip := true }

/-- PWR_CFG_WRITE (R582): PRM_PWR_CFG written. -/
def execPwrCfgWrite (m : Master) (v : BitVec 64) (s : State) : Host.Outcome State Fault Refusal :=
  .next (s.guardWrite m R.prmPwrCfg 31 [] (fun s => s.writePwr m v (partMask 0 8)))

/-- I3C_TELEMETRY_READ (R585): code 0x10. -/
def execI3cTelemetryRead (s : State) : Host.Outcome State Fault Refusal :=
  if s.porLow then .next (s.answer stNoUnit []) else .next (s.answer stOK s.telemetry)

/-- I3C_CARD_LIMIT (R585): code 0x20; a value out of range is NACKed. -/
def execI3cCardLimit (w : Nat) (s : State) : Host.Outcome State Fault Refusal :=
  if s.porLow || !(w == 0 || (decide (500 ≤ w) && decide (w ≤ 2150))) then .next (s.answer stNoUnit [])
  else .next ({ s with cardLimit := w }.answer stOK [])

end Sys2Proof.Machine
end

