-- ==== Sys2Proof/Machine/Recovery.lean ====
section
/-! DEFINITION. The meanings of the reset, watchdog and replay rows (R514 to R529). -/
namespace Sys2Proof.Machine

/-- RST_RESET (R516, R519): PRM_RST_CMD written with RESET and GO. -/
def execRstReset (m : Master) (v : BitVec 64) (s : State) : Host.Outcome State Fault Refusal :=
  .next (s.guardWrite m R.prmRstCmd 31 [] (fun s => s.writeRst m (setField v 4 3 0 ||| 0x1000000)))

/-- RST_RELEASE (R519): PRM_RST_CMD written with RELEASE and GO. -/
def execRstRelease (m : Master) (v : BitVec 64) (s : State) : Host.Outcome State Fault Refusal :=
  .next (s.guardWrite m R.prmRstCmd 31 [] (fun s => s.writeRst m (setField v 4 3 1 ||| 0x1000000)))

/-- RST_QUARANTINE (R527): PRM_RST_CMD written with QUARANTINE and GO. -/
def execRstQuarantine (m : Master) (v : BitVec 64) (s : State) : Host.Outcome State Fault Refusal :=
  .next (s.guardWrite m R.prmRstCmd 31 [] (fun s => s.writeRst m (setField v 4 3 2 ||| 0x1000000)))

/-- RST_UNQUARANTINE (R527): PRM_RST_CMD written with UNQUARANTINE and GO. -/
def execRstUnquarantine (m : Master) (v : BitVec 64) (s : State) : Host.Outcome State Fault Refusal :=
  .next (s.guardWrite m R.prmRstCmd 31 [] (fun s => s.writeRst m (setField v 4 3 3 ||| 0x1000000)))

/-- FENCE_COMPLETE (R519, R520): a reset in FENCING moves to DRAINING. -/
def execFenceComplete (id : Nat) (s : State) : Host.Outcome State Fault Refusal :=
  match s.resetOf id with
  | none => .next s
  | some r => if r.st = .fencing then .next (s.endFencing r) else .next s

/-- DRAIN_COMPLETE (R519, R521): a reset in DRAINING whose work has ended moves to RESETTING, or to HELD. -/
def execDrainComplete (id : Nat) (s : State) : Host.Outcome State Fault Refusal :=
  match s.resetOf id with
  | none => .next s
  | some r => if r.st = .draining then .next (s.endDraining r) else .next s

/-- RESET_DONE (R517, R519): a reset in RESETTING resets its domain and returns it to IDLE. -/
def execResetDone (id : Nat) (s : State) : Host.Outcome State Fault Refusal :=
  match s.resetOf id with
  | none => .next s
  | some r => if r.st = .resetting then .next (s.endReset r) else .next s

/-- RESET_ESCALATION (R523): a reset that is not HELD has missed its time. -/
def execResetEscalation (id : Nat) (s : State) : Host.Outcome State Fault Refusal :=
  match s.resetOf id with
  | none => .next s
  | some r => if r.st = .held ∨ r.level ≥ 4 then .next s else .next (s.escalate r)

/-- REMOTE_WAIT_WDOG (R524): a context has waited 2.1 ms for a remote operation. -/
def execRemoteWaitWdog (u : SeqUnit) (k : Nat) (s : State) : Host.Outcome State Fault Refusal := .next (s.remoteWdog u k)

/-- QUIESCE_WDOG (R524): logical cluster c has not become free in time. -/
def execQuiesceWdog (c : Nat) (s : State) : Host.Outcome State Fault Refusal := .next (s.quiesceWdog c)

/-- ENGINE_WDOG (R524): a job of queue q of Iris number i has run for 4 ms. -/
def execEngineWdog (i q : Nat) (s : State) : Host.Outcome State Fault Refusal := .next (s.engineWdog (i % 4) (q % 64))

/-- HEARTBEAT_WDOG (R524): HB_MS milliseconds have passed with no write of PRM_WDOG_HB. -/
def execHeartbeatWdog (s : State) : Host.Outcome State Fault Refusal := .next s.heartbeatWdog

/-- HEARTBEAT_WRITE (R525): PRM_WDOG_HB written with any value. -/
def execHeartbeatWrite (m : Master) (_v : BitVec 64) (s : State) : Host.Outcome State Fault Refusal :=
  .next (s.guardWrite m R.prmWdogHb 31 [] (fun s => s.writeHb))

/-- SAFETY_ISLAND_DISAGREE (R516, R524): the lockstep cores of Foxglove disagree, and L4 follows. -/
def execSafetyIslandDisagree (s : State) : Host.Outcome State Fault Refusal := .next (s.triggerReset 4 0 9 false)

/-- REPLAY_GO (R528): PRM_REPLAY_CMD written with GO. -/
def execReplayGo (m : Master) (v : BitVec 64) (s : State) : Host.Outcome State Fault Refusal :=
  .next (s.guardWrite m R.prmReplayCmd 31 [] (fun s => s.writeReplay m (v ||| 0x200)))

/-- REPLAY_END (R529): the replay that runs ends. -/
def execReplayEnd (s : State) : Host.Outcome State Fault Refusal := .next s.endReplay

end Sys2Proof.Machine
end

