-- ==== Sys2Proof/Machine/Rings.lean ====
section
/-! DEFINITION. The meanings of the traffic-tick and ring rows (R369 to R383, R484 to R501, R592). -/
namespace Sys2Proof.Machine

/-- TC_TICK (R369): LC reaches the next multiple of 250 ticks, and every policer, meter and shaper advances. -/
def execTcTick (s : State) : Host.Outcome State Fault Refusal := .next (s.advanceTo ((s.lc / 250 + 1) * 250))

/-- What a shaped queue's head costs: the oldest step of a ring's queue that has not been charged (R380, R382). -/
def State.headCost (s : State) (r : Nat) : Nat :=
  ((s.waitingSteps.filter (fun x => x.ring == r && !x.requeued)).head?.map StepRec.cost).getD 0

/-- CALENDAR_SLOT_EXPIRY (R381): the tick in which the head of ring r's queue becomes eligible comes. -/
def execCalendarSlotExpiry (r : Nat) (s : State) : Host.Outcome State Fault Refusal :=
  let cost := s.headCost r
  if s.shapeOk (ringShaper r) cost then .next s
  else .next (s.advanceTo (250 * s.shapeTick (ringShaper r) cost))

/-- RING_FETCH (R383): a pass of the host-ring engine. -/
def execRingFetch (s : State) : Host.Outcome State Fault Refusal := .next s.ringFetch

/-- DOORBELL (R486, R487): function fn writes the doorbell of ring r. -/
def execDoorbell (fn r : Nat) (v : BitVec 64) (s : State) : Host.Outcome State Fault Refusal :=
  if !(s.fnPresent fn) || s.chipFenced || decide (r ≥ 32768) then .next (s.answer stNoUnit [])
  else if s.ringPart r ≠ fn then .next ((s.protectBar fn (0x100000 + 8 * r)).answer stOK [])
  else .next ((s.writeDoorbell fn r v).answer stOK [])

/-- RING_ENABLE (R384, R592): PRM_RING_CFG of ring r written with EN. -/
def execRingEnable (m : Master) (r : Nat) (v : BitVec 64) (s : State) : Host.Outcome State Fault Refusal :=
  let r := r % 32768
  .next (s.guardWrite m R.prmRingCfg 31 [r] (fun s => s.writeRingCfg m r (v ||| 1) (partMask 0 8)))

/-- CMD_STEP (R490, R491): the oldest STEP fetched from ring r is passed to the admission unit. -/
def execCmdStep (r : Nat) (s : State) : Host.Outcome State Fault Refusal :=
  match s.ringCmd r (fun c => !c.started && c.field 0 1 == 1) with
  | none => .next s
  | some c => .next (s.submitStep c)

/-- The next command of a ring other than a STEP starts, if a test picks it (R491). -/
def State.startOther (s : State) (r : Nat) (p : Cmd → Bool) : State :=
  match s.nextOther r with
  | none => s
  | some c => if p c then s.startCmd c else s

/-- CMD_COPY_H2D (R490): the next command of ring r, a COPY to the device, starts. -/
def execCmdCopyH2d (r : Nat) (s : State) : Host.Outcome State Fault Refusal :=
  .next (s.startOther r (fun c => c.field 0 1 == 2 && c.field 0x2C 1 == 0))

/-- CMD_COPY_D2H (R490): the next command of ring r, a COPY to the host, starts. -/
def execCmdCopyD2h (r : Nat) (s : State) : Host.Outcome State Fault Refusal :=
  .next (s.startOther r (fun c => c.field 0 1 == 2 && c.field 0x2C 1 == 1))

/-- COPY_COMPLETE (R493): the oldest COPY of ring r that runs moves its data and completes. -/
def execCopyComplete (r : Nat) (s : State) : Host.Outcome State Fault Refusal :=
  match s.openCopy r with
  | none => .next s
  | some c => .next (s.finishCopy c)

/-- CQ_STAMP_WRITE (R494): PRM_CQ_STAMP written. -/
def execCqStampWrite (m : Master) (v : BitVec 64) (s : State) : Host.Outcome State Fault Refusal :=
  .next (s.guardWrite m R.prmCqStamp 31 [] (fun s => { s with stampSel := some v }))

/-- CQ_TDONE_WRITE (R494): PRM_CQ_TDONE written, which issues the stamp. -/
def execCqTdoneWrite (m : Master) (v : BitVec 64) (s : State) : Host.Outcome State Fault Refusal :=
  .next (s.guardWrite m R.prmCqTdone 31 [] (fun s => s.writeTdone m v))

/-- CQ_STAMP_TIMEOUT (R494): 1 ms after its DONE_LC an unstamped slot of ring r may be reused. -/
def execCqStampTimeout (r slot : Nat) (s : State) : Host.Outcome State Fault Refusal :=
  match (s.ring r).slots.find? (fun c => c.slot == slot && c.step && !c.stamped) with
  | none => .next s
  | some c =>
    let s := s.advanceTo (c.lc + 1000000)
    let g := s.ring r
    .next (s.setRing r { g with slots := g.slots.filter (fun c => !(c.released s.lc)) })

/-- A register of a function's own block written by its function. -/
def State.fnWrite (s : State) (fn : Nat) (k : State → State) : State :=
  if s.fnPresent fn then (k s).answer stOK [] else s.answer stNoUnit []

/-- EVT_RING_ENABLE (R497): function fn writes PRM_EVT_CFG with EN. -/
def execEvtRingEnable (fn : Nat) (v : BitVec 64) (s : State) : Host.Outcome State Fault Refusal :=
  .next (s.fnWrite fn (fun s => s.writeEvtCfg fn (v ||| 0x8000) (partMask 0 8)))

/-- EVT_HEAD_WRITE (R499): function fn writes PRM_EVT_HEAD. -/
def execEvtHeadWrite (fn : Nat) (v : BitVec 64) (s : State) : Host.Outcome State Fault Refusal :=
  .next (s.fnWrite fn (fun s => s.writeEvtHead fn v (partMask 0 8)))

/-- MB_H2F_SEND (R501): function fn sets H2F_FULL. -/
def execMbH2fSend (fn : Nat) (s : State) : Host.Outcome State Fault Refusal :=
  .next (s.fnWrite fn (fun s => s.writeMbCtrl fn 1 0xFFFFFFFF00000003))

/-- MB_F2H_REPLY (R501): control firmware takes the message of function fn, writes the words of F2H and sets F2H_FULL, which
sends MB_VEC. -/
def execMbF2hReply (fn : Nat) (words : List (BitVec 64)) (s : State) : Host.Outcome State Fault Refusal :=
  let s := (words.take 32).zipIdx.foldl (fun s e => s.setReg R.prmMbF2h fn [e.2] e.1) s
  let s := (s.setFld R.prmMbCtrl fn [] 0 0 0).setFld R.prmMbCtrl fn [] 1 1 1
  .next (s.sendMsix fn (s.fld R.prmMbCtrl fn [] 12 2))

/-- MB_F2H_CLEAR (R501): function fn clears F2H_FULL. -/
def execMbF2hClear (fn : Nat) (s : State) : Host.Outcome State Fault Refusal :=
  .next (s.fnWrite fn (fun s => s.writeMbCtrl fn 2 0xFFFFFFFF00000003))

end Sys2Proof.Machine
end

