-- ==== Sys2Proof/Machine/Streams.lean ====
section
/-! DEFINITION. The meanings of the BCST and STRM slot rows (R150 to R155). -/
namespace Sys2Proof.Machine

/-- BOPEN (R151): BCST BOPEN opens the broadcast stream for a row mask. -/
def execBopen (u : SeqUnit) (mask : BitVec 8) (a m ww : BitVec 4) (w : Bundle) (s : State) :
    Host.Outcome State Fault Refusal :=
  .next (s.issue u (w.withBcst (.bopen mask a m ww)))

/-- BSCALE (R151): BCST BSCALE opens the broadcast scale stream for a row mask. -/
def execBscale (u : SeqUnit) (mask : BitVec 8) (a m ww : BitVec 4) (w : Bundle) (s : State) :
    Host.Outcome State Fault Refusal :=
  .next (s.issue u (w.withBcst (.bscale mask a m ww)))

/-- BCLOSE (R152): BCST BCLOSE closes every broadcast and scale stream whose mask overlaps MASK. -/
def execBclose (u : SeqUnit) (mask : BitVec 8) (w : Bundle) (s : State) :
    Host.Outcome State Fault Refusal :=
  .next (s.issue u (w.withBcst (.bclose mask)))

/-- SOPEN (R151): STRM SOPEN opens the per-lane B stream for a row mask in deep form. -/
def execSopen (u : SeqUnit) (mask : BitVec 8) (a m ww : BitVec 4) (w : Bundle) (s : State) :
    Host.Outcome State Fault Refusal :=
  .next (s.issue u (w.withStrm (.sopen mask a m ww)))

/-- SSCALE (R151): STRM SSCALE opens the per-lane scale stream in deep form. -/
def execSscale (u : SeqUnit) (mask : BitVec 8) (a m ww : BitVec 4) (w : Bundle) (s : State) :
    Host.Outcome State Fault Refusal :=
  .next (s.issue u (w.withStrm (.sscale mask a m ww)))

/-- SCLOSE (R152): STRM SCLOSE closes the B and scale streams that overlap MASK. -/
def execSclose (u : SeqUnit) (mask : BitVec 8) (w : Bundle) (s : State) :
    Host.Outcome State Fault Refusal :=
  .next (s.issue u (w.withStrm (.sclose mask)))

/-- WOPEN (R154): STRM WOPEN opens a pending weight stream from HBM3E for a tile. -/
def execWopen (u : SeqUnit) (t : BitVec 3) (a m : BitVec 4) (w : Bundle) (s : State) :
    Host.Outcome State Fault Refusal :=
  .next (s.issue u (w.withStrm (.wopen t a m)))

/-- WCLOSE (R154): STRM WCLOSE discards the pending weight stream. -/
def execWclose (u : SeqUnit) (w : Bundle) (s : State) :
    Host.Outcome State Fault Refusal :=
  .next (s.issue u (w.withStrm .wclose))

/-- LDBIAS (R155): STRM LDBIAS loads lane bias values. -/
def execLdbias (u : SeqUnit) (mask : BitVec 8) (a m ww : BitVec 4) (w : Bundle) (s : State) :
    Host.Outcome State Fault Refusal :=
  .next (s.issue u (w.withStrm (.ldbias mask a m ww)))

end Sys2Proof.Machine
end

