-- ==== Sys2Proof/Machine/Vec.lean ====
section
/-! DEFINITION. The meanings of the VEC slot rows (R158 to R168, R205). -/
namespace Sys2Proof.Machine

/-- VPOST (R160): VEC VPOST scales, biases, activates and narrows accumulator entries, and stores them or writes them back. -/
def execVpost (u : SeqUnit) (t : BitVec 3) (sc : BitVec 2) (ss : BitVec 5) (bias : Bool) (act dfmt : BitVec 4) (st : Bool) (a m ww : BitVec 4) (w : Bundle) (s : State) :
    Host.Outcome State Fault Refusal :=
  .next (s.issue u (w.withVec (.vpost t sc ss bias act dfmt st a m ww)))

/-- VNORM (R165): VEC VNORM normalises INT32 entries by block. -/
def execVnorm (u : SeqUnit) (t : BitVec 3) (blk st : Bool) (a m ww : BitVec 4) (w : Bundle) (s : State) :
    Host.Outcome State Fault Refusal :=
  .next (s.issue u (w.withVec (.vnorm t blk st a m ww)))

/-- VBFP (R166): VEC VBFP stores entries as block floating point. -/
def execVbfp (u : SeqUnit) (t : BitVec 3) (blk : Bool) (wc : BitVec 2) (st : Bool) (a m ww : BitVec 4) (w : Bundle) (s : State) :
    Host.Outcome State Fault Refusal :=
  .next (s.issue u (w.withVec (.vbfp t blk wc st a m ww)))

/-- VMAXE (R167): VEC VMAXE stores the per-block maximum exponent. -/
def execVmaxe (u : SeqUnit) (t : BitVec 3) (blk st : Bool) (a m ww : BitVec 4) (w : Bundle) (s : State) :
    Host.Outcome State Fault Refusal :=
  .next (s.issue u (w.withVec (.vmaxe t blk st a m ww)))

/-- VRED (R168): VEC VRED writes a predicate from a reduction or an early-exit test. -/
def execVred (u : SeqUnit) (t pd : BitVec 3) (kind : BitVec 4) (ss : BitVec 5) (w : Bundle) (s : State) :
    Host.Outcome State Fault Refusal :=
  .next (s.issue u (w.withVec (.vred t pd kind ss)))

end Sys2Proof.Machine
end

