-- ==== Sys2Proof/Machine/Xfer.lean ====
section
/-! DEFINITION. The meanings of the XFER slot rows (R169 to R175, R195 to R204). -/
namespace Sys2Proof.Machine

/-- DMA (R170): XFER DMA copies S bytes between local regions at the latency row of its pair of regions. -/
def execDma (u : SeqUnit) (f : DForm) (w : Bundle) (s : State) :
    Host.Outcome State Fault Refusal :=
  .next (s.issue u (w.withXfer (.dma f)))

/-- SIGNAL (R110): XFER SIGNAL adds 1 to the named token. -/
def execSignal (u : SeqUnit) (st : BitVec 5) (w : Bundle) (s : State) :
    Host.Outcome State Fault Refusal :=
  .next (s.issue u (w.withXfer (.signal st)))

/-- WAIT (R110): XFER WAIT takes a non-zero token, or blocks in WAIT_TOKEN as a switch point. -/
def execWait (u : SeqUnit) (n : BitVec 6) (w : Bundle) (s : State) :
    Host.Outcome State Fault Refusal :=
  .next (s.issue u (w.withXfer (.wait n)))

/-- TTEST (R169): XFER TTEST sets Pd when a token's count is not 0. -/
def execTtest (u : SeqUnit) (pd : BitVec 3) (n : BitVec 6) (w : Bundle) (s : State) :
    Host.Outcome State Fault Refusal :=
  .next (s.issue u (w.withXfer (.ttest pd n)))

/-- RLD (R172): XFER RLD issues a remote load and waits remotely. -/
def execRld (u : SeqUnit) (a : BitVec 4) (d : BitVec 5) (sz : BitVec 2) (w : Bundle) (s : State) :
    Host.Outcome State Fault Refusal :=
  .next (s.issue u (w.withXfer (.rld a d sz)))

/-- RST (R172): XFER RST issues a remote store. -/
def execRst (u : SeqUnit) (a : BitVec 4) (d : BitVec 5) (sz : BitVec 2) (w : Bundle) (s : State) :
    Host.Outcome State Fault Refusal :=
  .next (s.issue u (w.withXfer (.rst a d sz)))

/-- RAT (R173): XFER RAT issues a remote atomic, with or without a result. -/
def execRat (u : SeqUnit) (a : BitVec 4) (d b c : BitVec 5) (kind : BitVec 4) (res : Bool) (w : Bundle) (s : State) :
    Host.Outcome State Fault Refusal :=
  .next (s.issue u (w.withXfer (.rat a d b c kind res)))

/-- PUT (R399): XFER PUT sends a block put as 4-KiB packets. -/
def execPut (u : SeqUnit) (f : DForm) (w : Bundle) (s : State) :
    Host.Outcome State Fault Refusal :=
  .next (s.issue u (w.withXfer (.put f)))

/-- GET (R399): XFER GET issues a block get as 4-KiB packets. -/
def execGet (u : SeqUnit) (f : DForm) (w : Bundle) (s : State) :
    Host.Outcome State Fault Refusal :=
  .next (s.issue u (w.withXfer (.get f)))

/-- FWAIT (R172): XFER FWAIT waits for every remote operation of the context and returns FSTAT. -/
def execFwait (u : SeqUnit) (d : BitVec 5) (w : Bundle) (s : State) :
    Host.Outcome State Fault Refusal :=
  .next (s.issue u (w.withXfer (.fwait d)))

/-- GATHER (R201): XFER GATHER copies table rows that an index list names. -/
def execGather (u : SeqUnit) (f : DForm) (w : Bundle) (s : State) :
    Host.Outcome State Fault Refusal :=
  .next (s.issue u (w.withXfer (.gather f)))

/-- COMPACT (R202): XFER COMPACT keeps the rows whose mask bit is set. -/
def execCompact (u : SeqUnit) (f : DForm) (w : Bundle) (s : State) :
    Host.Outcome State Fault Refusal :=
  .next (s.issue u (w.withXfer (.compact f)))

/-- ROUTE (R197): XFER ROUTE copies token rows into per-expert buffers under the overflow policy. -/
def execRoute (u : SeqUnit) (f : DForm) (w : Bundle) (s : State) :
    Host.Outcome State Fault Refusal :=
  .next (s.issue u (w.withXfer (.route f)))

/-- ENGJOB (R175): XFER ENGJOB submits a job descriptor to an Iris engine queue. -/
def execEngjob (u : SeqUnit) (a : BitVec 4) (st : BitVec 5) (q : BitVec 6) (w : Bundle) (s : State) :
    Host.Outcome State Fault Refusal :=
  .next (s.issue u (w.withXfer (.engjob a st q)))

end Sys2Proof.Machine
end

