-- ==== Sys2Proof/Machine/Dispatch.lean ====
section
/-! DEFINITION. The dispatch of every command to its meaning: one arm per constructor of `Instr`. -/
namespace Sys2Proof.Machine

/-- The effect of one command on everything but the queue of waiting commands. -/
def exec (i : Instr) (s : State) : Host.Outcome State Fault Refusal :=
  match i with
  | .registerWrite m off width v => Sys2Proof.Machine.execRegisterWrite m off width v s
  | .meshTransfer x => Sys2Proof.Machine.execMeshTransfer x s
  | .spareRetire m die lc v => Sys2Proof.Machine.execSpareRetire m die lc v s
  | .nop u b => Sys2Proof.Machine.execNop u b s
  | .execPastCodeEnd u => Sys2Proof.Machine.execExecPastCodeEnd u s
  | .faultDrainComplete step => Sys2Proof.Machine.execFaultDrainComplete step s
  | .memoryErrorDetected u off => Sys2Proof.Machine.execMemoryErrorDetected u off s
  | .resultVisible u => Sys2Proof.Machine.execResultVisible u s
  | .contextResume u => Sys2Proof.Machine.execContextResume u s
  | .remoteReplyArrival u k dt => Sys2Proof.Machine.execRemoteReplyArrival u k dt s
  | .tokenArrival k dt => Sys2Proof.Machine.execTokenArrival k dt s
  | .unscheduledBankWin u mcls bank wr => Sys2Proof.Machine.execUnscheduledBankWin u mcls bank wr s
  | .add u d a b w => Sys2Proof.Machine.execAdd u d a b w s
  | .sub u d a b w => Sys2Proof.Machine.execSub u d a b w s
  | .andOp u d a b w => Sys2Proof.Machine.execAndOp u d a b w s
  | .orOp u d a b w => Sys2Proof.Machine.execOrOp u d a b w s
  | .xorOp u d a b w => Sys2Proof.Machine.execXorOp u d a b w s
  | .shl u d a b w => Sys2Proof.Machine.execShl u d a b w s
  | .shr u d a b w => Sys2Proof.Machine.execShr u d a b w s
  | .sra u d a b w => Sys2Proof.Machine.execSra u d a b w s
  | .mul u d a b w => Sys2Proof.Machine.execMul u d a b w s
  | .min u d a b w => Sys2Proof.Machine.execMin u d a b w s
  | .max u d a b w => Sys2Proof.Machine.execMax u d a b w s
  | .minu u d a b w => Sys2Proof.Machine.execMinu u d a b w s
  | .maxu u d a b w => Sys2Proof.Machine.execMaxu u d a b w s
  | .addi u d a imm w => Sys2Proof.Machine.execAddi u d a imm w s
  | .andi u d a imm w => Sys2Proof.Machine.execAndi u d a imm w s
  | .ori u d a imm w => Sys2Proof.Machine.execOri u d a imm w s
  | .xori u d a imm w => Sys2Proof.Machine.execXori u d a imm w s
  | .shli u d a sh w => Sys2Proof.Machine.execShli u d a sh w s
  | .shri u d a sh w => Sys2Proof.Machine.execShri u d a sh w s
  | .srai u d a sh w => Sys2Proof.Machine.execSrai u d a sh w s
  | .li u d imm w => Sys2Proof.Machine.execLi u d imm w s
  | .lis u d imm w => Sys2Proof.Machine.execLis u d imm w s
  | .cmp u pd cond a b w => Sys2Proof.Machine.execCmp u pd cond a b w s
  | .cmpi u pd cond a imm w => Sys2Proof.Machine.execCmpi u pd cond a imm w s
  | .cmpf u pd cond a b w => Sys2Proof.Machine.execCmpf u pd cond a b w s
  | .plog u pd op pa ia pb ib w => Sys2Proof.Machine.execPlog u pd op pa ia pb ib w s
  | .mov u dk dn sk sn w => Sys2Proof.Machine.execMov u dk dn sk sn w s
  | .rdsr u d sr w => Sys2Proof.Machine.execRdsr u d sr w s
  | .br u cp target w => Sys2Proof.Machine.execBr u cp target w s
  | .call u cp target w => Sys2Proof.Machine.execCall u cp target w s
  | .jr u cp a w => Sys2Proof.Machine.execJr u cp a w s
  | .bskip u cp target w => Sys2Proof.Machine.execBskip u cp target w s
  | .loop u lk stop sc w => Sys2Proof.Machine.execLoop u lk stop sc w s
  | .loopi u lk stop cnt w => Sys2Proof.Machine.execLoopi u lk stop cnt w s
  | .idle u n1 w => Sys2Proof.Machine.execIdle u n1 w s
  | .yield u w => Sys2Proof.Machine.execYield u w s
  | .halt u w => Sys2Proof.Machine.execHalt u w s
  | .commit u mis w => Sys2Proof.Machine.execCommit u mis w s
  | .amod u hi a m ww w => Sys2Proof.Machine.execAmod u hi a m ww w s
  | .ld8 u hi r a m ww w => Sys2Proof.Machine.execLd8 u hi r a m ww w s
  | .ld16 u hi r a m ww w => Sys2Proof.Machine.execLd16 u hi r a m ww w s
  | .ld32 u hi r a m ww w => Sys2Proof.Machine.execLd32 u hi r a m ww w s
  | .ld64 u hi r a m ww w => Sys2Proof.Machine.execLd64 u hi r a m ww w s
  | .ldqs u hi r a m ww w => Sys2Proof.Machine.execLdqs u hi r a m ww w s
  | .ldqw u hi r a m ww w => Sys2Proof.Machine.execLdqw u hi r a m ww w s
  | .ldqt u hi r a m ww w => Sys2Proof.Machine.execLdqt u hi r a m ww w s
  | .ldql u hi r a m ww w => Sys2Proof.Machine.execLdql u hi r a m ww w s
  | .st8 u hi r a m ww w => Sys2Proof.Machine.execSt8 u hi r a m ww w s
  | .st16 u hi r a m ww w => Sys2Proof.Machine.execSt16 u hi r a m ww w s
  | .st32 u hi r a m ww w => Sys2Proof.Machine.execSt32 u hi r a m ww w s
  | .st64 u hi r a m ww w => Sys2Proof.Machine.execSt64 u hi r a m ww w s
  | .stqs u hi r a m ww w => Sys2Proof.Machine.execStqs u hi r a m ww w s
  | .bopen u mask a m ww w => Sys2Proof.Machine.execBopen u mask a m ww w s
  | .bscale u mask a m ww w => Sys2Proof.Machine.execBscale u mask a m ww w s
  | .bclose u mask w => Sys2Proof.Machine.execBclose u mask w s
  | .sopen u mask a m ww w => Sys2Proof.Machine.execSopen u mask a m ww w s
  | .sscale u mask a m ww w => Sys2Proof.Machine.execSscale u mask a m ww w s
  | .sclose u mask w => Sys2Proof.Machine.execSclose u mask w s
  | .wopen u t a m w => Sys2Proof.Machine.execWopen u t a m w s
  | .wclose u w => Sys2Proof.Machine.execWclose u w s
  | .ldbias u mask a m ww w => Sys2Proof.Machine.execLdbias u mask a m ww w s
  | .weightStreamFirstStaging u => Sys2Proof.Machine.execWeightStreamFirstStaging u s
  | .weightStreamHalfRefill u extra => Sys2Proof.Machine.execWeightStreamHalfRefill u extra s
  | .mma u t w => Sys2Proof.Machine.execMma u t w s
  | .mmak u t sk w => Sys2Proof.Machine.execMmak u t sk w s
  | .formsw u wide w => Sys2Proof.Machine.execFormsw u wide w s
  | .macAccumReady u => Sys2Proof.Machine.execMacAccumReady u s
  | .vpost u t sc ss bias act dfmt st a m ww w => Sys2Proof.Machine.execVpost u t sc ss bias act dfmt st a m ww w s
  | .vnorm u t blk st a m ww w => Sys2Proof.Machine.execVnorm u t blk st a m ww w s
  | .vbfp u t blk wc st a m ww w => Sys2Proof.Machine.execVbfp u t blk wc st a m ww w s
  | .vmaxe u t blk st a m ww w => Sys2Proof.Machine.execVmaxe u t blk st a m ww w s
  | .vred u t pd kind ss w => Sys2Proof.Machine.execVred u t pd kind ss w s
  | .dma u f w => Sys2Proof.Machine.execDma u f w s
  | .dmaComplete u k dt => Sys2Proof.Machine.execDmaComplete u k dt s
  | .signal u st w => Sys2Proof.Machine.execSignal u st w s
  | .wait u n w => Sys2Proof.Machine.execWait u n w s
  | .ttest u pd n w => Sys2Proof.Machine.execTtest u pd n w s
  | .rld u a d sz w => Sys2Proof.Machine.execRld u a d sz w s
  | .rst u a d sz w => Sys2Proof.Machine.execRst u a d sz w s
  | .rat u a d b c kind res w => Sys2Proof.Machine.execRat u a d b c kind res w s
  | .put u f w => Sys2Proof.Machine.execPut u f w s
  | .get u f w => Sys2Proof.Machine.execGet u f w s
  | .fwait u d w => Sys2Proof.Machine.execFwait u d w s
  | .gather u f w => Sys2Proof.Machine.execGather u f w s
  | .compact u f w => Sys2Proof.Machine.execCompact u f w s
  | .route u f w => Sys2Proof.Machine.execRoute u f w s
  | .listOpComplete u => Sys2Proof.Machine.execListOpComplete u s
  | .engjob u a st q w => Sys2Proof.Machine.execEngjob u a st q w s
  | .spCfgLock m die v => Sys2Proof.Machine.execSpCfgLock m die v s
  | .spPwrCmd m die v => Sys2Proof.Machine.execSpPwrCmd m die v s
  | .bankGroupTransitionDone die g => Sys2Proof.Machine.execBankGroupTransitionDone die g s
  | .ownerRecordApply k => Sys2Proof.Machine.execOwnerRecordApply k s
  | .sealedWipe die => Sys2Proof.Machine.execSealedWipe die s
  | .sealedWipeComplete die => Sys2Proof.Machine.execSealedWipeComplete die s
  | .hbmTrainingDone die ok => Sys2Proof.Machine.execHbmTrainingDone die ok s
  | .hbmScrubPass die => Sys2Proof.Machine.execHbmScrubPass die s
  | .tlpCfgLock m v => Sys2Proof.Machine.execTlpCfgLock m v s
  | .lpddrTrainingDone mask => Sys2Proof.Machine.execLpddrTrainingDone mask s
  | .tierDmaTailWrite m e v => Sys2Proof.Machine.execTierDmaTailWrite m e v s
  | .tierDmaBaseWrite m e v => Sys2Proof.Machine.execTierDmaBaseWrite m e v s
  | .tierDmaDescriptor e => Sys2Proof.Machine.execTierDmaDescriptor e s
  | .tierDmaDescComplete e => Sys2Proof.Machine.execTierDmaDescComplete e s
  | .gateCycleBoundary => Sys2Proof.Machine.execGateCycleBoundary s
  | .gateEntryBoundary c => Sys2Proof.Machine.execGateEntryBoundary c s
  | .dieRateUpdate rates => Sys2Proof.Machine.execDieRateUpdate rates s
  | .fxgApply m v => Sys2Proof.Machine.execFxgApply m v s
  | .fxgCancel m v => Sys2Proof.Machine.execFxgCancel m v s
  | .fxgValidationDone => Sys2Proof.Machine.execFxgValidationDone s
  | .fxgSwap => Sys2Proof.Machine.execFxgSwap s
  | .fxgDrainEmpty => Sys2Proof.Machine.execFxgDrainEmpty s
  | .fxgDrainTimeout => Sys2Proof.Machine.execFxgDrainTimeout s
  | .admissionDecision => Sys2Proof.Machine.execAdmissionDecision s
  | .radioStepPlacement => Sys2Proof.Machine.execRadioStepPlacement s
  | .stepStart c dt => Sys2Proof.Machine.execStepStart c dt s
  | .stepCommitDecision step => Sys2Proof.Machine.execStepCommitDecision step s
  | .abortAtEdge c => Sys2Proof.Machine.execAbortAtEdge c s
  | .slotTimerTick d t dt => Sys2Proof.Machine.execSlotTimerTick d t dt s
  | .stimerCfgWrite m d t v => Sys2Proof.Machine.execStimerCfgWrite m d t v s
  | .irisImageLoad m d c v => Sys2Proof.Machine.execIrisImageLoad m d c v s
  | .irisImageStart d c => Sys2Proof.Machine.execIrisImageStart d c s
  | .engineJobStart d q => Sys2Proof.Machine.execEngineJobStart d q s
  | .fftJob d q => Sys2Proof.Machine.execFftJob d q s
  | .ldpcDecodeJob d q => Sys2Proof.Machine.execLdpcDecodeJob d q s
  | .ldpcEncodeJob d q => Sys2Proof.Machine.execLdpcEncodeJob d q s
  | .polarEncodeJob d q => Sys2Proof.Machine.execPolarEncodeJob d q s
  | .polarDecodeJob d q => Sys2Proof.Machine.execPolarDecodeJob d q s
  | .demapJob d q => Sys2Proof.Machine.execDemapJob d q s
  | .engineJobComplete d q => Sys2Proof.Machine.execEngineJobComplete d q s
  | .engineQueueToken d q => Sys2Proof.Machine.execEngineQueueToken d q s
  | .eqGateWrite m d q v => Sys2Proof.Machine.execEqGateWrite m d q v s
  | .bhOffer d seq at_ => Sys2Proof.Machine.execBhOffer d seq at_ s
  | .bhLoadReq d frame msg => Sys2Proof.Machine.execBhLoadReq d frame msg s
  | .bhAck d seq f => Sys2Proof.Machine.execBhAck d seq f s
  | .bhNack d seq => Sys2Proof.Machine.execBhNack d seq s
  | .bhOfferTimeout d => Sys2Proof.Machine.execBhOfferTimeout d s
  | .bhFrameReceived d header payload => Sys2Proof.Machine.execBhFrameReceived d header payload s
  | .bhFallback d frame => Sys2Proof.Machine.execBhFallback d frame s
  | .bhHeaderTimeout d frame => Sys2Proof.Machine.execBhHeaderTimeout d frame s
  | .fronthaulFrameRx k x fill => Sys2Proof.Machine.execFronthaulFrameRx k x fill s
  | .crkSpareMove m k v => Sys2Proof.Machine.execCrkSpareMove m k v s
  | .portTrained k l => Sys2Proof.Machine.execPortTrained k l s
  | .uplinkHeaderWrite k f n => Sys2Proof.Machine.execUplinkHeaderWrite k f n s
  | .downlinkRecordSend k f n => Sys2Proof.Machine.execDownlinkRecordSend k f n s
  | .cplaneRecordSend k f n => Sys2Proof.Machine.execCplaneRecordSend k f n s
  | .crkPathEnable m k p units v => Sys2Proof.Machine.execCrkPathEnable m k p units v s
  | .txPathBlock k p rate sat => Sys2Proof.Machine.execTxPathBlock k p rate sat s
  | .symbolMarkWrite k p n => Sys2Proof.Machine.execSymbolMarkWrite k p n s
  | .agcPeriodEnd k p level clips => Sys2Proof.Machine.execAgcPeriodEnd k p level clips s
  | .freezeEntryStart k p e => Sys2Proof.Machine.execFreezeEntryStart k p e s
  | .preambleDetect k p => Sys2Proof.Machine.execPreambleDetect k p s
  | .crkFrzWrite m k p j v => Sys2Proof.Machine.execCrkFrzWrite m k p j v s
  | .gainControlWordSend k p n => Sys2Proof.Machine.execGainControlWordSend k p n s
  | .offsetEstimate k p f => Sys2Proof.Machine.execOffsetEstimate k p f s
  | .tcTick => Sys2Proof.Machine.execTcTick s
  | .calendarSlotExpiry r => Sys2Proof.Machine.execCalendarSlotExpiry r s
  | .ringFetch => Sys2Proof.Machine.execRingFetch s
  | .egressFrameEnqueue k l => Sys2Proof.Machine.execEgressFrameEnqueue k l s
  | .egressFrameStart k l => Sys2Proof.Machine.execEgressFrameStart k l s
  | .gateListGo m k l v => Sys2Proof.Machine.execGateListGo m k l v s
  | .gateListSwitch k l => Sys2Proof.Machine.execGateListSwitch k l s
  | .gateEnWrite m k l v => Sys2Proof.Machine.execGateEnWrite m k l v s
  | .yellowRequestSend pair => Sys2Proof.Machine.execYellowRequestSend pair s
  | .nodeLock m die v => Sys2Proof.Machine.execNodeLock m die v s
  | .regionWrite m die ix v => Sys2Proof.Machine.execRegionWrite m die ix v s
  | .fabricRequestArrival ext k => Sys2Proof.Machine.execFabricRequestArrival ext k s
  | .hotLineServe die line => Sys2Proof.Machine.execHotLineServe die line s
  | .hotTokenTimeout die => Sys2Proof.Machine.execHotTokenTimeout die s
  | .fabricReplyArrival die ext k => Sys2Proof.Machine.execFabricReplyArrival die ext k s
  | .lossRetry id => Sys2Proof.Machine.execLossRetry id s
  | .hotRetry id => Sys2Proof.Machine.execHotRetry id s
  | .attemptWindowClose id => Sys2Proof.Machine.execAttemptWindowClose id s
  | .outcomeUnknownTimeout id => Sys2Proof.Machine.execOutcomeUnknownTimeout id s
  | .receiptExpiry die => Sys2Proof.Machine.execReceiptExpiry die s
  | .peerTableWrite m die k v => Sys2Proof.Machine.execPeerTableWrite m die k v s
  | .mirrorResync m die v => Sys2Proof.Machine.execMirrorResync m die v s
  | .mirrorPromote m die v => Sys2Proof.Machine.execMirrorPromote m die v s
  | .mirrorRelease m die v => Sys2Proof.Machine.execMirrorRelease m die v s
  | .resyncComplete n => Sys2Proof.Machine.execResyncComplete n s
  | .mirrorCopyTimeout n => Sys2Proof.Machine.execMirrorCopyTimeout n s
  | .secondaryCopyTimeout n => Sys2Proof.Machine.execSecondaryCopyTimeout n s
  | .releaseNotice n => Sys2Proof.Machine.execReleaseNotice n s
  | .linkConfigWrite m die j v => Sys2Proof.Machine.execLinkConfigWrite m die j v s
  | .linkFlitSend die j => Sys2Proof.Machine.execLinkFlitSend die j s
  | .flitCrcFail die j => Sys2Proof.Machine.execFlitCrcFail die j s
  | .linkAckTimeout die j => Sys2Proof.Machine.execLinkAckTimeout die j s
  | .laneFault die lane optical codewords => Sys2Proof.Machine.execLaneFault die lane optical codewords s
  | .laneSpareResume die j => Sys2Proof.Machine.execLaneSpareResume die j s
  | .linkStallDown die j => Sys2Proof.Machine.execLinkStallDown die j s
  | .syncWord => Sys2Proof.Machine.execSyncWord s
  | .tbRateWrite m n v => Sys2Proof.Machine.execTbRateWrite m n v s
  | .tbStepWrite m n v => Sys2Proof.Machine.execTbStepWrite m n v s
  | .tbSwitch m v => Sys2Proof.Machine.execTbSwitch m v s
  | .tbAlign m v => Sys2Proof.Machine.execTbAlign m v s
  | .tbStateWrite m n v => Sys2Proof.Machine.execTbStateWrite m n v s
  | .servoWatchdog n => Sys2Proof.Machine.execServoWatchdog n s
  | .tbSnapshot m v => Sys2Proof.Machine.execTbSnapshot m v s
  | .replicaValid die => Sys2Proof.Machine.execReplicaValid die s
  | .rclkLockLoss k out port => Sys2Proof.Machine.execRclkLockLoss k out port s
  | .lsEnable m v => Sys2Proof.Machine.execLsEnable m v s
  | .lsDisable m v => Sys2Proof.Machine.execLsDisable m v s
  | .lsRecordPut step => Sys2Proof.Machine.execLsRecordPut step s
  | .lsRecordArrival seq => Sys2Proof.Machine.execLsRecordArrival seq s
  | .lsTimeout seq => Sys2Proof.Machine.execLsTimeout seq s
  | .inputDigestDone step => Sys2Proof.Machine.execInputDigestDone step s
  | .resultDigestDone step => Sys2Proof.Machine.execResultDigestDone step s
  | .bar0Access fn write off width v => Sys2Proof.Machine.execBar0Access fn write off width v s
  | .bar2Access fn write off len data => Sys2Proof.Machine.execBar2Access fn write off len data s
  | .bar2WinWrite fn v => Sys2Proof.Machine.execBar2WinWrite fn v s
  | .flrVf n => Sys2Proof.Machine.execFlrVf n s
  | .flrPf => Sys2Proof.Machine.execFlrPf s
  | .doorbell fn r v => Sys2Proof.Machine.execDoorbell fn r v s
  | .ringEnable m r v => Sys2Proof.Machine.execRingEnable m r v s
  | .cmdStep r => Sys2Proof.Machine.execCmdStep r s
  | .cmdCopyH2d r => Sys2Proof.Machine.execCmdCopyH2d r s
  | .cmdCopyD2h r => Sys2Proof.Machine.execCmdCopyD2h r s
  | .cmdFabricRld r => Sys2Proof.Machine.execCmdFabricRld r s
  | .cmdFabricRst r => Sys2Proof.Machine.execCmdFabricRst r s
  | .cmdFabricRat r => Sys2Proof.Machine.execCmdFabricRat r s
  | .cmdFabricPut r => Sys2Proof.Machine.execCmdFabricPut r s
  | .cmdFabricGet r => Sys2Proof.Machine.execCmdFabricGet r s
  | .cmdWset r => Sys2Proof.Machine.execCmdWset r s
  | .cmdFrame r => Sys2Proof.Machine.execCmdFrame r s
  | .cqStampWrite m v => Sys2Proof.Machine.execCqStampWrite m v s
  | .cqTdoneWrite m v => Sys2Proof.Machine.execCqTdoneWrite m v s
  | .cqStampTimeout r slot => Sys2Proof.Machine.execCqStampTimeout r slot s
  | .evtRingEnable fn v => Sys2Proof.Machine.execEvtRingEnable fn v s
  | .evtHeadWrite fn v => Sys2Proof.Machine.execEvtHeadWrite fn v s
  | .mbH2fSend fn => Sys2Proof.Machine.execMbH2fSend fn s
  | .mbF2hReply fn words => Sys2Proof.Machine.execMbF2hReply fn words s
  | .mbF2hClear fn => Sys2Proof.Machine.execMbF2hClear fn s
  | .powerGood => Sys2Proof.Machine.execPowerGood s
  | .porDeassert => Sys2Proof.Machine.execPorDeassert s
  | .perstDeassert => Sys2Proof.Machine.execPerstDeassert s
  | .perstAssert => Sys2Proof.Machine.execPerstAssert s
  | .bootGo v => Sys2Proof.Machine.execBootGo v s
  | .bootVerifyDone => Sys2Proof.Machine.execBootVerifyDone s
  | .lcTransition m v => Sys2Proof.Machine.execLcTransition m v s
  | .tamperEvent c => Sys2Proof.Machine.execTamperEvent c s
  | .spdmGetVersion => Sys2Proof.Machine.execSpdmGetVersion s
  | .spdmGetCapabilities v14 => Sys2Proof.Machine.execSpdmGetCapabilities v14 s
  | .spdmNegotiateAlgorithms sha3Offered => Sys2Proof.Machine.execSpdmNegotiateAlgorithms sha3Offered s
  | .spdmGetDigests => Sys2Proof.Machine.execSpdmGetDigests s
  | .spdmGetCertificate slot => Sys2Proof.Machine.execSpdmGetCertificate slot s
  | .spdmChallenge slot nonce => Sys2Proof.Machine.execSpdmChallenge slot nonce s
  | .spdmGetMeasurements k slot => Sys2Proof.Machine.execSpdmGetMeasurements k slot s
  | .spdmKeyExchange slot => Sys2Proof.Machine.execSpdmKeyExchange slot s
  | .spdmFinish => Sys2Proof.Machine.execSpdmFinish s
  | .spdmEndSession => Sys2Proof.Machine.execSpdmEndSession s
  | .rstReset m v => Sys2Proof.Machine.execRstReset m v s
  | .rstRelease m v => Sys2Proof.Machine.execRstRelease m v s
  | .rstQuarantine m v => Sys2Proof.Machine.execRstQuarantine m v s
  | .rstUnquarantine m v => Sys2Proof.Machine.execRstUnquarantine m v s
  | .fenceComplete id => Sys2Proof.Machine.execFenceComplete id s
  | .drainComplete id => Sys2Proof.Machine.execDrainComplete id s
  | .resetDone id => Sys2Proof.Machine.execResetDone id s
  | .resetEscalation id => Sys2Proof.Machine.execResetEscalation id s
  | .remoteWaitWdog u k => Sys2Proof.Machine.execRemoteWaitWdog u k s
  | .quiesceWdog c => Sys2Proof.Machine.execQuiesceWdog c s
  | .engineWdog d q => Sys2Proof.Machine.execEngineWdog d q s
  | .heartbeatWdog => Sys2Proof.Machine.execHeartbeatWdog s
  | .heartbeatWrite m v => Sys2Proof.Machine.execHeartbeatWrite m v s
  | .safetyIslandDisagree => Sys2Proof.Machine.execSafetyIslandDisagree s
  | .replayGo m v => Sys2Proof.Machine.execReplayGo m v s
  | .replayEnd => Sys2Proof.Machine.execReplayEnd s
  | .dumpGo m v => Sys2Proof.Machine.execDumpGo m v s
  | .dumpScanTimeout n => Sys2Proof.Machine.execDumpScanTimeout n s
  | .tapExtest => Sys2Proof.Machine.execTapExtest s
  | .tapIdcode => Sys2Proof.Machine.execTapIdcode s
  | .tapSamplePreload => Sys2Proof.Machine.execTapSamplePreload s
  | .tapDbgCmd v => Sys2Proof.Machine.execTapDbgCmd v s
  | .tapDbgAddr v => Sys2Proof.Machine.execTapDbgAddr v s
  | .tapDbgData v => Sys2Proof.Machine.execTapDbgData v s
  | .tapDbgStat => Sys2Proof.Machine.execTapDbgStat s
  | .tapDbgAuth v => Sys2Proof.Machine.execTapDbgAuth v s
  | .tapBypass code => Sys2Proof.Machine.execTapBypass code s
  | .trstAssert => Sys2Proof.Machine.execTrstAssert s
  | .dbgHalt p v => Sys2Proof.Machine.execDbgHalt p v s
  | .dbgResume p v => Sys2Proof.Machine.execDbgResume p v s
  | .dbgStep p v => Sys2Proof.Machine.execDbgStep p v s
  | .dbgStepEnd u => Sys2Proof.Machine.execDbgStepEnd u s
  | .dbgGstop p => Sys2Proof.Machine.execDbgGstop p s
  | .dbgStopNAssert => Sys2Proof.Machine.execDbgStopNAssert s
  | .dbgGresume p => Sys2Proof.Machine.execDbgGresume p s
  | .globalResume => Sys2Proof.Machine.execGlobalResume s
  | .dbgMemRd p => Sys2Proof.Machine.execDbgMemRd p s
  | .dbgMemWr p => Sys2Proof.Machine.execDbgMemWr p s
  | .dbgAuthNonce p => Sys2Proof.Machine.execDbgAuthNonce p s
  | .dbgAuthToken p => Sys2Proof.Machine.execDbgAuthToken p s
  | .breakpointHit u w => Sys2Proof.Machine.execBreakpointHit u w s
  | .trcDisable m die v => Sys2Proof.Machine.execTrcDisable m die v s
  | .twCfgWrite fn w v => Sys2Proof.Machine.execTwCfgWrite fn w v s
  | .pdCmdOn m v => Sys2Proof.Machine.execPdCmdOn m v s
  | .pdCmdOff m v => Sys2Proof.Machine.execPdCmdOff m v s
  | .pdTransitionDone dom => Sys2Proof.Machine.execPdTransitionDone dom s
  | .powerSample power rail => Sys2Proof.Machine.execPowerSample power rail s
  | .tempSample temps => Sys2Proof.Machine.execTempSample temps s
  | .thermtrip die => Sys2Proof.Machine.execThermtrip die s
  | .pwrCfgWrite m v => Sys2Proof.Machine.execPwrCfgWrite m v s
  | .i3cTelemetryRead => Sys2Proof.Machine.execI3cTelemetryRead s
  | .i3cCardLimit w => Sys2Proof.Machine.execI3cCardLimit w s
  | .porAssert => Sys2Proof.Machine.execPorAssert s
  | .fronthaulLaneLoss k l => Sys2Proof.Machine.execFronthaulLaneLoss k l s
  | .linkTrained die j => Sys2Proof.Machine.execLinkTrained die j s
  | .linkAckReceived die j seq => Sys2Proof.Machine.execLinkAckReceived die j seq s
  | .laneMappingNotice die lane wave => Sys2Proof.Machine.execLaneMappingNotice die lane wave s
  | .rclkLockRegain k out => Sys2Proof.Machine.execRclkLockRegain k out s
  | .copyComplete r => Sys2Proof.Machine.execCopyComplete r s
  | .wsetDigestDone r => Sys2Proof.Machine.execWsetDigestDone r s
  | .dumpComplete => Sys2Proof.Machine.execDumpComplete s

end Sys2Proof.Machine
end

