-- ==== Sys2Proof/Safety.lean ====
section
/-! DEFINITION. What the statements about the block are phrased in: a command that answers a next state, a sequencer about
to issue one bundle with nothing else in flight, what such a bundle may change, and the form in which tables and memories
are held. -/
namespace Sys2Proof.Machine

/-- A command answers a next state, of which P holds. -/
def Runs (i : Instr) (s : State) (P : State → Prop) : Prop := ∃ t, exec i s = .next t ∧ P t

/-- No counter, no trace unit and no watchpoint of any die is enabled (R556, R562, R565). -/
def State.unobserved (s : State) : Prop :=
  ∀ die < 32, s.fld R.pmuCtl die [] 0 0 = 0 ∧ s.fld R.trcCfg die [] 0 0 = 0 ∧ ∀ w < 4, s.fld R.wpW1 die [w] 20 20 = 0

/-- Context k of unit u issues its next bundle now: it runs, nothing holds the unit, no result is on its way, no breakpoint
or watchpoint is armed for it, its program counter lies in the code, and nothing observes the device. -/
def State.poised (s : State) (u : SeqUnit) (k : Nat) : Prop :=
  unitDie u < 20 ∧ (s.seq u).run = some k ∧ (s.seq u).canIssue = true ∧ (s.seq u).pend = [] ∧ (s.seq u).dbgWatch = none ∧
  s.bpHits u k = [] ∧ ((s.seq u).ctx k).pc < (s.seq u).codeLen ∧ s.unobserved

/-- The state in the cycle in which a unit's running context issues its next bundle. -/
def State.issuing (s : State) (u : SeqUnit) : State :=
  let s := s.settle u (s.seq u).next
  s.setSeq u { s.seq u with bpPass := false }

/-- No slot of a bundle raises an exception as context k issues it (R131, R132). -/
def State.admits (s : State) (u : SeqUnit) (k : Nat) (b : Bundle) : Prop :=
  let s := s.settle u (s.seq u).next
  firstExc (s.bundleExcs u (s.seq u) ((s.seq u).ctx k) k (s.seq u).next b) = none

/-- What one bundle of context k leaves: `q` is the unit's sequencer with the operation's own effect on it, `c` the context
with its visible results, `pend` the results on their way. Beyond these only the present cycle, the next issue cycle and the
context's program counter and loop registers may differ, and nothing outside the unit's sequencer does. -/
def State.issued (s t : State) (u : SeqUnit) (k : Nat) (q : Seq) (c : Ctx) (pend : List Pend) : Prop :=
  let q' := t.seq u
  t = s.setSeq u q' ∧
  q' = { q with ctxs := q'.ctxs, cyc := q'.cyc, next := q'.next, bpPass := false, pend := pend } ∧
  q'.ctx k = { c with pc := (q'.ctx k).pc, l := (q'.ctx k).l } ∧
  (∀ j, j ≠ k → q'.ctx j = (s.seq u).ctx j) ∧
  (∀ off, t.byte off = s.byte off)

/-- Where context k goes on after its bundle: its program counter and the cycle of the next issue. -/
def State.goesOn (t : State) (u : SeqUnit) (k pc next : Nat) : Prop :=
  (t.seq u).run = some k ∧ ((t.seq u).ctx k).pc = pc ∧ (t.seq u).next = next

/-- The context that a switch point after context k selects, where k itself is left in state `st` (R86): the first READY one in
the order k + 1, …, k. -/
def State.nextReady (s : State) (u : SeqUnit) (k : Nat) (st : CtxSt) : Option Nat :=
  ((List.range (numCtx u)).map (fun i => (k + 1 + i) % numCtx u)).find?
    (fun j => if j = k then st == .ready else ((s.seq u).ctx j).st == .ready)

/-- A switch point in the cycle in which context k issues (R86, R87): the next READY context is selected and issues three
cycles later, or none runs; context k is left as `c` (its program counter and loop registers apart) unless it is itself
selected. Other contexts keep all but their state. -/
def State.switches (s t : State) (u : SeqUnit) (k : Nat) (c : Ctx) : Prop :=
  let q' := t.seq u
  let ck := { q'.ctx k with pc := c.pc, l := c.l }
  (∀ j, j ≠ k → { q'.ctx j with st := ((s.seq u).ctx j).st } = (s.seq u).ctx j) ∧
  match s.nextReady u k c.st with
  | some j => q'.run = some j ∧ (q'.ctx j).st = .running ∧ q'.next = (s.seq u).next + 3 ∧
      ck = (if j = k then { c with st := .running } else c)
  | none => q'.run = none ∧ ck = c

/-- What a switch point may change of a unit beyond its contexts: `q` is the unit with the operation's own effect on it. -/
def State.switched (s t : State) (u : SeqUnit) (q : Seq) (pend : List Pend) : Prop :=
  let q' := t.seq u
  t = s.setSeq u q' ∧
  q' = { q with ctxs := q'.ctxs, cyc := q'.cyc, next := q'.next, run := q'.run, last := q'.last, idleFrom := q'.idleFrom,
                switches := q'.switches, bpPass := false, pend := pend }

/-- No cluster of the step on a unit has been aborted. -/
def State.sound (s : State) (u : SeqUnit) : Prop := ∀ r ∈ s.steps, r.id = (s.seq u).step → r.aborted = []

/-- What a precise exception of context k leaves of its unit (R133, R137): the fault recorded with the slot at fault, the
context FAULTED, the step stopped, no effect of the bundle, and no byte of memory changed. -/
def State.excepted (s t : State) (u : SeqUnit) (k code slot addr : Nat) : Prop :=
  let q := s.seq u
  let q' := t.seq u
  q' = { q with ctxs := q'.ctxs, cyc := q'.cyc, run := none, stopped := true, pend := [],
                fault := faultWord u code k (q.ctx k).pc slot true,
                faddr := if code = exIllegal then 0 else BitVec.ofNat 64 addr } ∧
  q'.ctx k = { q.ctx k with st := .faulted } ∧ (∀ j, j ≠ k → q'.ctx j = q.ctx j) ∧ (∀ off, t.byte off = s.byte off)

/-- A bundle with one predicate field and no operation. -/
def aloneIn (p : BitVec 4) : Bundle := { pred := p }

/-- A register answers a master's write: it is present, powered and not fenced, and its writer class admits the master (R18,
R29, R258). -/
def State.grants (s : State) (m : Master) (r : RegD) (die : Nat) (ix : List Nat) : Prop :=
  s.regStatus r die ix = stOK ∧ mayWrite r.writer m = true

/-- The node's memory and host memory are in their canonical form: addresses strictly rising, and no byte listed that an
unlisted address reads as. -/
def State.canonical (s : State) : Bool := Memory.wf s.mem && Memory.wf s.host

/-- What most commands leave alone: the node's memory, the sequencers, the steps and the remote operations. -/
def State.keeps (s t : State) : Prop := t.mem = s.mem ∧ t.seqs = s.seqs ∧ t.steps = s.steps ∧ t.remote = s.remote

/-- A write that its register answers: the status is OK, and memory, sequencers, steps and remote operations stay. -/
def State.wrote (s t : State) : Prop := t.ansStatus = stOK ∧ s.keeps t

end Sys2Proof.Machine
end

