-- ==== Sys2Proof/Certificates/Slice0/Obligations.lean ====
section
/-! DEFINITION. The statements about the model, for the provers. -/
open Sys2Proof Sys2Proof.Machine

/-- With a command at the front of its queue, a step is that command's effect on the state with the queue's rest. On
an empty queue a step lets one LC tick pass (the model's choice, log entry 2): LC is one more, the queue stays empty,
and memory, sequencers, steps and remote operations stay. (R9) -/
def Obligations.StepTakesFront : Prop :=
  (∀ (s : State) (c : Instr) (rest : List Instr), s.pending = c :: rest → step s = exec c { s with pending := rest }) ∧
  (∀ s : State, s.pending = [] → ∃ t, step s = .next t ∧ t.lc = s.lc + 1 ∧ t.pending = [] ∧ s.keeps t)

/-- Every bundle that has an encoding (each slot a defined operation, each operand within its format) is encoded by
256 bits that decode to it, with every operand at every value; and of the 256-bit words that decode to a bundle with
every slot defined, each is the encoding of what it decodes to, so that no two words spell one bundle. (R88, R128,
R139, R148, R150, R156, R158, R169) -/
def Obligations.BundleRoundTrip : Prop :=
  (∀ b : Bundle, b.encodable = true → ∃ x, encodeBundle b = some x ∧ decodeBundle x = b) ∧
  (∀ x y : BundleWord, encodeBundle (decodeBundle x) = some y → y = x)

/-- From every state whose node memory and host memory are in canonical form (addresses strictly rising, no byte
listed that an unlisted address reads as), whatever command is at the front of the queue, a step that answers a next
state leaves both in that form. (R35, R243) -/
def Obligations.CanonicalKept : Prop :=
  ∀ s t : State, s.canonical = true → step s = .next t → t.canonical = true

/-- After reset the queue is empty, the memories are in canonical form and list nothing, domains 54 to 59 are ON and
every other is OFF, every ring has EN 0 and PARTITION 0, no gate schedule runs, no step and no reset is under way,
and the configuration of the admission unit reads its reset values. (R576, R384, R288) -/
def Obligations.ResetState : Prop :=
  State.reset.pending = [] ∧ State.reset.canonical = true ∧ State.reset.mem = [] ∧
  (∀ n < 60, State.reset.pdOn n = decide (54 ≤ n)) ∧
  (∀ r < 32768, State.reset.fld R.prmRingCfg 31 [r] 0 0 = 0 ∧ State.reset.fld R.prmRingCfg 31 [r] 13 8 = 0) ∧
  State.reset.fld R.fxgGate 31 [] 0 0 = 0 ∧ State.reset.steps = [] ∧ State.reset.resets = [] ∧
  State.reset.fld R.fxgCfg 31 [] 7 0 = 16 ∧ State.reset.fld R.fxgCfg 31 [] 11 8 = 2 ∧
  State.reset.fld R.fxgCfg 31 [] 23 16 = 64 ∧ State.reset.fld R.fxgCfg 31 [] 31 24 = 16

/-- A poised context whose bundle holds one of the CTL register operations alone completes: the destination scalar
register holds the operation's result as the issue cycle ends (MUL's product is on its way to it for two cycles
more), the next bundle follows in the next lane cycle where no loop is active, and nothing else changes. (R140, R141,
R105) -/
def Obligations.CtlAlu : Prop :=
  ∀ (s : State) (u : SeqUnit) (k : Nat) (d a b : BitVec 5) (p : BitVec 4), s.poised u k →
    let c := (s.seq u).ctx k
    let x := c.rs a
    let y := c.rs b
    let n := y.toNat % 64
    let t0 := (s.seq u).next
    (∀ e ∈ [(Instr.add u d a b (aloneIn p), x + y), (.sub u d a b (aloneIn p), x - y),
        (.andOp u d a b (aloneIn p), x &&& y), (.orOp u d a b (aloneIn p), x ||| y),
        (.xorOp u d a b (aloneIn p), x ^^^ y), (.shl u d a b (aloneIn p), x <<< n),
        (.shr u d a b (aloneIn p), x >>> n), (.sra u d a b (aloneIn p), x.sshiftRight n),
        (.min u d a b (aloneIn p), if x.toInt ≤ y.toInt then x else y),
        (.max u d a b (aloneIn p), if x.toInt ≤ y.toInt then y else x),
        (.minu u d a b (aloneIn p), if x.toNat ≤ y.toNat then x else y),
        (.maxu u d a b (aloneIn p), if x.toNat ≤ y.toNat then y else x)],
      Runs e.1 s (fun t =>
        s.issued t u k (s.seq u) { c with s := c.s.put d.toNat e.2 } [] ∧
        (c.activeLoops = [] → t.goesOn u k (c.pc + 1) (t0 + 1)))) ∧
    Runs (.mul u d a b (aloneIn p)) s (fun t =>
      s.issued t u k (s.seq u) c [⟨t0 + 3, k, .regS d.toNat (x * y)⟩] ∧
      (c.activeLoops = [] → t.goesOn u k (c.pc + 1) (t0 + 1)))

/-- A poised context whose bundle holds one of ADDI, ANDI, ORI, XORI, SHLI, SHRI, SRAI, LI and LIS alone completes:
the destination holds the result as the issue cycle ends (ADDI and LI extend their immediate by its sign, the logic
operations by zeros, LIS shifts the destination left by 16), the next bundle follows, and nothing else changes.
(R140, R141, R105) -/
def Obligations.CtlImm : Prop :=
  ∀ (s : State) (u : SeqUnit) (k : Nat) (d a : BitVec 5) (i12 : BitVec 12) (sh : BitVec 6) (i17 : BitVec 17)
    (i16 : BitVec 16) (p : BitVec 4), s.poised u k →
    let c := (s.seq u).ctx k
    let x := c.rs a
    ∀ e ∈ [(Instr.addi u d a i12 (aloneIn p), x + i12.signExtend 64), (.andi u d a i12 (aloneIn p), x &&& i12.zeroExtend 64),
        (.ori u d a i12 (aloneIn p), x ||| i12.zeroExtend 64), (.xori u d a i12 (aloneIn p), x ^^^ i12.zeroExtend 64),
        (.shli u d a sh (aloneIn p), x <<< sh.toNat), (.shri u d a sh (aloneIn p), x >>> sh.toNat),
        (.srai u d a sh (aloneIn p), x.sshiftRight sh.toNat), (.li u d i17 (aloneIn p), i17.signExtend 64),
        (.lis u d i16 (aloneIn p), (c.rs d) <<< 16 ||| i16.zeroExtend 64)],
      Runs e.1 s (fun t =>
        s.issued t u k (s.seq u) { c with s := c.s.put d.toNat e.2 } [] ∧
        (c.activeLoops = [] → t.goesOn u k (c.pc + 1) ((s.seq u).next + 1)))

/-- CMP, CMPI, CMPF and PLOG alone in a poised context's bundle write their predicate with the condition R142 gives
(P0 is no destination: R129); cond codes 6 and 7 and the PLOG code 3 raise the illegal-operation exception instead.
(R142) -/
def Obligations.CtlPred : Prop :=
  ∀ (s : State) (u : SeqUnit) (k : Nat) (pd : BitVec 3) (a b : BitVec 5) (imm : BitVec 8) (pa pb : BitVec 3) (ia ib : Bool)
    (p : BitVec 4), s.poised u k →
    let c := (s.seq u).ctx k
    let x := c.rs a
    let y := c.rs b
    let z := imm.signExtend 64
    let f := fp32Num (x.extractLsb' 0 32)
    let g := fp32Num (y.extractLsb' 0 32)
    let nan := f.isNaN || g.isNaN
    let l := c.rp pa.toNat ^^ ia
    let r := c.rp pb.toNat ^^ ib
    (pd ≠ 0 → ∀ e ∈ [(Instr.cmp u pd 0 a b (aloneIn p), decide (x = y)), (.cmp u pd 1 a b (aloneIn p), decide (x ≠ y)),
        (.cmp u pd 2 a b (aloneIn p), decide (x.toInt < y.toInt)), (.cmp u pd 3 a b (aloneIn p), decide (y.toInt ≤ x.toInt)),
        (.cmp u pd 4 a b (aloneIn p), decide (x.toNat < y.toNat)), (.cmp u pd 5 a b (aloneIn p), decide (y.toNat ≤ x.toNat)),
        (.cmpi u pd 0 a imm (aloneIn p), decide (x = z)), (.cmpi u pd 1 a imm (aloneIn p), decide (x ≠ z)),
        (.cmpi u pd 2 a imm (aloneIn p), decide (x.toInt < z.toInt)),
        (.cmpi u pd 3 a imm (aloneIn p), decide (z.toInt ≤ x.toInt)),
        (.cmpi u pd 4 a imm (aloneIn p), decide (x.toNat < z.toNat)),
        (.cmpi u pd 5 a imm (aloneIn p), decide (z.toNat ≤ x.toNat)),
        (.cmpf u pd 0 a b (aloneIn p), !nan && f.eqv g), (.cmpf u pd 1 a b (aloneIn p), nan || !(f.eqv g)),
        (.cmpf u pd 2 a b (aloneIn p), !nan && f.lt g), (.cmpf u pd 3 a b (aloneIn p), !nan && !(f.lt g)),
        (.cmpf u pd 4 a b (aloneIn p), nan), (.cmpf u pd 5 a b (aloneIn p), !nan),
        (.plog u pd 0 pa ia pb ib (aloneIn p), l && r), (.plog u pd 1 pa ia pb ib (aloneIn p), l || r),
        (.plog u pd 2 pa ia pb ib (aloneIn p), l ^^ r)],
      Runs e.1 s (fun t =>
        s.issued t u k (s.seq u) { c with p := c.p.put pd.toNat e.2 } [] ∧
        (c.activeLoops = [] → t.goesOn u k (c.pc + 1) ((s.seq u).next + 1)))) ∧
    (FNum.eqv (fp32Num 0) (fp32Num 0x80000000) = true) ∧
    ((s.seq u).fault.getLsbD 27 = false → s.sound u →
      ∀ i ∈ [Instr.cmp u pd 6 a b (aloneIn p), .cmp u pd 7 a b (aloneIn p), .cmpi u pd 6 a imm (aloneIn p),
          .cmpi u pd 7 a imm (aloneIn p), .cmpf u pd 6 a b (aloneIn p), .cmpf u pd 7 a b (aloneIn p),
          .plog u pd 3 pa ia pb ib (aloneIn p)],
        Runs i s (fun t => s.excepted t u k exIllegal 0 0))

/-- MOV alone in a poised context's bundle completes for each of the pairs of kinds that R143 allows, with register
numbers that the kinds have and an even scalar pair: the destination holds the source (128-bit registers through a
pair, the first register the less significant half), the reserved bits of W and L and L's ACTIVE are stored as 0, a
predicate reads as 0 or 1 and is set by a nonzero scalar, and nothing else changes. (R143, R129, R93) -/
def Obligations.CtlMove : Prop :=
  ∀ (s : State) (u : SeqUnit) (k : Nat) (dn sn : BitVec 5) (p : BitVec 4), s.poised u k →
    let c := (s.seq u).ctx k
    let d := dn.toNat
    let n := sn.toNat
    let done (dk sk : BitVec 3) (c' : Ctx) : Prop :=
      Runs (.mov u dk dn sk sn (aloneIn p)) s (fun t => s.issued t u k (s.seq u) c' [])
    let pair (v : BitVec 128) : Ctx := { c with s := (c.s.put d (v.extractLsb' 0 64)).put (d + 1) (v.extractLsb' 64 64) }
    let v : BitVec 128 := c.rs (sn + 1) ++ c.rs sn
    done 0 0 { c with s := c.s.put d (c.rs sn) } ∧
    (d < 16 → n < 16 → done 1 1 { c with a := c.a.put d (c.a.getD n 0) } ∧ done 2 2 { c with m := c.m.put d (c.m.getD n 0) }) ∧
    (d < 16 → done 1 0 { c with a := c.a.put d (c.rs sn) } ∧ done 2 0 { c with m := c.m.put d (c.rs sn) }) ∧
    (n < 16 → done 0 1 { c with s := c.s.put d (c.a.getD n 0) } ∧ done 0 2 { c with s := c.s.put d (c.m.getD n 0) }) ∧
    (d < 16 → n % 2 = 0 → done 3 0 { c with w := c.w.put d (v &&& 0x000000000007FFFF0000FFFFFFFFFFC0) }) ∧
    (d < 8 → n % 2 = 0 → loopActive (c.rl d) = false →
      Runs (.mov u 4 dn 0 sn (aloneIn p)) s (fun t =>
        s.issued t u k (s.seq u) c [] ∧
        (c.activeLoops = [] → ((t.seq u).ctx k).l = c.l.put d (v &&& 0x0000000000001FFF00001FFFFFFFFFFF)))) ∧
    (d < 8 → n % 2 = 0 → done 5 0 { c with t := c.t.put d v }) ∧
    (n < 16 → d % 2 = 0 → done 0 3 (pair (c.rw n))) ∧
    (n < 8 → d % 2 = 0 → done 0 4 (pair (c.rl n)) ∧ done 0 5 (pair (c.rt n))) ∧
    (n < 8 → done 0 6 { c with s := c.s.put d (if c.rp n then 1 else 0) }) ∧
    (d < 8 → d ≠ 0 → done 6 0 { c with p := c.p.put d (decide (c.rs sn ≠ 0)) }) ∧
    (d < 8 → d ≠ 0 → n < 8 → done 6 6 { c with p := c.p.put d (c.rp n) })

/-- RDSR alone in a poised context's bundle writes the value R144 gives for its code: the flags, FSTAT, the
outstanding remote operations, ARITH, the unit's cycles at issue or a token's count; a timing code in throughput mode
counts one nondeterminism event; in exact mode a timing code, and in any mode a code the table does not list, raises
the illegal-operation exception. (R144) -/
def Obligations.CtlReadSpecial : Prop :=
  ∀ (s : State) (u : SeqUnit) (k : Nat) (d : BitVec 5) (n : BitVec 6) (sr : BitVec 8) (p : BitVec 4), s.poised u k →
    let q := s.seq u
    let c := q.ctx k
    let reads (code : BitVec 8) (v : BitVec 64) (q' : Seq) : Prop :=
      Runs (.rdsr u d code (aloneIn p)) s (fun t =>
        s.issued t u k q' { c with s := c.s.put d.toNat v } [] ∧
        (c.activeLoops = [] → t.goesOn u k (c.pc + 1) (q.next + 1)))
    let timed : Seq := { q with ndTiming := if q.ndTiming < 65535 then q.ndTiming + 1 else 65535 }
    let refused (code : BitVec 8) : Prop :=
      q.fault.getLsbD 27 = false → s.sound u →
        Runs (.rdsr u d code (aloneIn p)) s (fun t => s.excepted t u k exIllegal 0 0)
    reads 0 (c.aflags.zeroExtend 64) q ∧ reads 1 (BitVec.ofNat 64 c.fstat) q ∧ reads 3 c.arith q ∧
    (q.exact = false → reads 2 (BitVec.ofNat 64 c.outst) timed ∧
      reads 4 (BitVec.ofNat 64 (q.next + q.frzUnsched + q.frzOwn)) timed ∧
      reads (0x40 + n.zeroExtend 8) (BitVec.ofNat 64 (q.tokens.getD n.toNat 0)) timed) ∧
    (q.exact = true → refused 2 ∧ refused 4 ∧ refused (0x40 + n.zeroExtend 8)) ∧
    ((5 ≤ sr.toNat ∧ sr.toNat < 0x40) ∨ 0x80 ≤ sr.toNat → refused sr)

/-- A NOP bundle goes on to the next index. BR, CALL, JR and BSKIP whose target lies in the code go there three
cycles later when their condition holds (CALL with the next index in S31, BSKIP only forward and counted), every
active loop whose body the target leaves becomes inactive and no other, and otherwise they go on to the next index;
nothing else changes. (R145, R103, R105, R206) -/
def Obligations.CtlBranch : Prop :=
  ∀ (s : State) (u : SeqUnit) (k : Nat) (cp : BitVec 4) (tg : BitVec 13) (a : BitVec 5) (p : BitVec 4), s.poised u k →
    let q := s.seq u
    let c := q.ctx k
    let jt := (c.rs a).toNat % 8192
    let on (t : State) : Prop := c.activeLoops = [] → t.goesOn u k (c.pc + 1) (q.next + 1)
    let goes (t : State) (n : Nat) : Prop :=
      t.goesOn u k n (q.next + 3) ∧
      ∀ i < 8, loopActive (((t.seq u).ctx k).rl i) =
        (loopActive (c.rl i) && decide (loopStart (c.rl i) ≤ n ∧ n ≤ loopEnd (c.rl i)))
    Runs (.nop u (aloneIn p)) s (fun t => s.issued t u k q c [] ∧ on t) ∧
    (tg.toNat < q.codeLen →
      Runs (.br u cp tg (aloneIn p)) s (fun t =>
        s.issued t u k q c [] ∧ (c.pred cp = true → goes t tg.toNat) ∧ (c.pred cp = false → on t)) ∧
      Runs (.call u cp tg (aloneIn p)) s (fun t =>
        (c.pred cp = true →
          s.issued t u k q { c with s := c.s.put 31 (BitVec.ofNat 64 (c.pc + 1)) } [] ∧ goes t tg.toNat) ∧
        (c.pred cp = false → s.issued t u k q c [] ∧ on t))) ∧
    (jt < q.codeLen →
      Runs (.jr u cp a (aloneIn p)) s (fun t =>
        s.issued t u k q c [] ∧ (c.pred cp = true → goes t jt) ∧ (c.pred cp = false → on t))) ∧
    (tg.toNat < q.codeLen → c.pc < tg.toNat →
      Runs (.bskip u cp tg (aloneIn p)) s (fun t =>
        (c.pred cp = true →
          s.issued t u k { q with bskipTaken := q.bskipTaken + 1,
                                  bskipBundles := q.bskipBundles + (tg.toNat - c.pc - 1) } c [] ∧ goes t tg.toNat) ∧
        (c.pred cp = false → s.issued t u k q c [] ∧ on t)))

/-- LOOP and LOOPI in a context with no active loop write their loop register: count, start at the next index, the
end given, active unless the count is 0; with count 0 execution goes on after the end three cycles later. IDLE goes
on n cycles later. A bundle at the end of the one active loop returns to its start with the count less one while
passes are left, and otherwise leaves the loop inactive and goes on. (R101, R102, R105, R146) -/
def Obligations.CtlLoop : Prop :=
  ∀ (s : State) (u : SeqUnit) (k : Nat) (lk : BitVec 3) (stop : BitVec 13) (sc : BitVec 5) (cnt : BitVec 6) (n1 : BitVec 16)
    (p : BitVec 4), s.poised u k →
    let q := s.seq u
    let c := q.ctx k
    let starts (i : Instr) (n : Nat) : Prop :=
      Runs i s (fun t =>
        let l := ((t.seq u).ctx k).rl lk.toNat
        s.issued t u k q c [] ∧ loopCount l = n ∧ loopStart l = (c.pc + 1) % 8192 ∧ loopEnd l = stop.toNat ∧
        loopActive l = decide (n ≠ 0) ∧
        (∀ j, j ≠ lk.toNat → ((t.seq u).ctx k).rl j = c.rl j) ∧
        t.goesOn u k (if n = 0 then stop.toNat + 1 else c.pc + 1) (q.next + if n = 0 then 3 else 1))
    (c.activeLoops = [] → c.pc < stop.toNat → stop.toNat < q.codeLen →
      starts (.loop u lk stop sc (aloneIn p)) ((c.rs sc).toNat % 2 ^ 32) ∧
      starts (.loopi u lk stop cnt (aloneIn p)) cnt.toNat) ∧
    Runs (.idle u n1 (aloneIn p)) s (fun t =>
      s.issued t u k q c [] ∧ (c.activeLoops = [] → t.goesOn u k (c.pc + 1) (q.next + n1.toNat + 1))) ∧
    (∀ i l, c.activeLoops = [(i, l)] → loopEnd l = c.pc →
      Runs (.nop u (aloneIn p)) s (fun t =>
        let l' := ((t.seq u).ctx k).rl i
        s.issued t u k q c [] ∧ loopStart l' = loopStart l ∧ loopEnd l' = loopEnd l ∧
        (1 < loopCount l → loopCount l' = loopCount l - 1 ∧ loopActive l' = true ∧ t.goesOn u k (loopStart l) (q.next + 1)) ∧
        (loopCount l ≤ 1 → loopCount l' = 0 ∧ loopActive l' = false ∧ t.goesOn u k (c.pc + 1) (q.next + 1))))

/-- YIELD leaves its context READY and selects the first READY context in the order k + 1, …, k, which issues three
cycles later. HALT with no remote operation outstanding leaves it HALTED, and the next READY context is selected or
none runs. COMMIT by context 0 with no remote operation outstanding and every other context halted or idle stops
issue and ends the step eight cycles later. (R86, R87, R119, R147) -/
def Obligations.CtlSwitch : Prop :=
  ∀ (s : State) (u : SeqUnit) (k : Nat) (p : BitVec 4), s.poised u k → k < numCtx u →
    let q := s.seq u
    let c := q.ctx k
    Runs (.yield u (aloneIn p)) s (fun t =>
      s.switched t u q [] ∧ s.switches t u k { c with st := .ready, readyAt := q.next } ∧
      (c.activeLoops = [] → ((t.seq u).ctx k).pc = c.pc + 1)) ∧
    (c.outst = 0 →
      Runs (.halt u (aloneIn p)) s (fun t => s.switched t u q [] ∧ s.switches t u k { c with st := .halted })) ∧
    (k = 0 → c.outst = 0 → (∀ j, 0 < j → j < 8 → (q.ctx j).st = .halted ∨ (q.ctx j).st = .idle) →
      Runs (.commit u false (aloneIn p)) s (fun t =>
        s.issued t u k { q with committing := true } c [⟨q.next + 8, k, .stepDone⟩]))

/-- A load alone in a poised context's bundle, in either AGU slot under a true predicate, that raises nothing and
meets no word in error: its address register receives the post-modified address as the issue cycle ends, and its
destination receives the zero-extended bytes after 6 cycles (8 from the exchange region, 5 on an Iris core); AMOD
does the first alone. Nothing else changes. (R148, R97, R105) -/
def Obligations.AguLoads : Prop :=
  ∀ (s : State) (u : SeqUnit) (k : Nat) (hi : Bool) (r : BitVec 5) (a m ww : BitVec 4) (p : BitVec 4), s.poised u k →
    let c := (s.seq u).ctx k
    let off := offOf (c.ra a)
    let t0 := (s.seq u).next
    let lat := if u.isIris then 5 else match regionOf off with
      | .xch _ _ => 8
      | _ => 6
    let n := r.toNat
    let v (size : Nat) : Nat := s.num off size
    let c' := { c with a := c.a.put a.toNat (postModify (c.ra a) (c.rm m) (windowOf (c.rw ww.toNat))) }
    c.pred p = true →
    (∀ e ∈ [(Instr.ld8 u hi r a m ww (aloneIn p), LoadKind.b8, 1, [Effect.regS n (BitVec.ofNat 64 (v 1))]),
        (.ld16 u hi r a m ww (aloneIn p), .b16, 2, [.regS n (BitVec.ofNat 64 (v 2))]),
        (.ld32 u hi r a m ww (aloneIn p), .b32, 4, [.regS n (BitVec.ofNat 64 (v 4))]),
        (.ld64 u hi r a m ww (aloneIn p), .b64, 8, [.regS n (BitVec.ofNat 64 (v 8))]),
        (.ldqs u hi r a m ww (aloneIn p), .qs, 16,
          [.regS n (BitVec.ofNat 64 (v 16)), .regS (n + 1) (BitVec.ofNat 64 (v 16 / 2 ^ 64))]),
        (.ldqw u hi r a m ww (aloneIn p), .qw, 16, [.regW n (BitVec.ofNat 128 (v 16))]),
        (.ldqt u hi r a m ww (aloneIn p), .qt, 16, [.regT n (BitVec.ofNat 128 (v 16))]),
        (.ldql u hi r a m ww (aloneIn p), .ql, 16, [.regL n (BitVec.ofNat 128 (v 16) &&& ~~~ (1#128 <<< 80))])],
      s.admits u k ((aloneIn p).withAgu hi (.load e.2.1 r a m ww)) → s.badIn off e.2.2.1 = none →
      Runs e.1 s (fun t =>
        s.issued t u k (s.seq u) c' (e.2.2.2.map (fun x => ⟨t0 + lat, k, x⟩)) ∧
        (c.activeLoops = [] → t.goesOn u k (c.pc + 1) (t0 + 1)))) ∧
    (s.admits u k ((aloneIn p).withAgu hi (.amod a m ww)) →
      Runs (.amod u hi a m ww (aloneIn p)) s (fun t =>
        s.issued t u k (s.seq u) c' [] ∧ (c.activeLoops = [] → t.goesOn u k (c.pc + 1) (t0 + 1))))

/-- A store alone in a poised context's bundle, in either AGU slot under a true predicate, that raises nothing: its
address register receives the post-modified address, and the bytes of its register are on their way to the address
register's offset, where they become visible 4 cycles after issue; nothing else changes in the issue cycle. (R148,
R97, R105) -/
def Obligations.AguStores : Prop :=
  ∀ (s : State) (u : SeqUnit) (k : Nat) (hi : Bool) (r : BitVec 5) (a m ww : BitVec 4) (p : BitVec 4), s.poised u k →
    let c := (s.seq u).ctx k
    let t0 := (s.seq u).next
    let x := (c.rs r).toNat
    c.pred p = true →
    ∀ e ∈ [(Instr.st8 u hi r a m ww (aloneIn p), StoreKind.b8, leBytes 1 x),
        (.st16 u hi r a m ww (aloneIn p), .b16, leBytes 2 x), (.st32 u hi r a m ww (aloneIn p), .b32, leBytes 4 x),
        (.st64 u hi r a m ww (aloneIn p), .b64, leBytes 8 x),
        (.stqs u hi r a m ww (aloneIn p), .qs, leBytes 8 x ++ leBytes 8 (c.rs (r + 1)).toNat)],
      s.admits u k ((aloneIn p).withAgu hi (.store e.2.1 r a m ww)) →
      Runs e.1 s (fun t =>
        s.issued t u k (s.seq u)
          { c with a := c.a.put a.toNat (postModify (c.ra a) (c.rm m) (windowOf (c.rw ww.toNat))) }
          [⟨t0 + 4, k, .mem (offOf (c.ra a)) e.2.2⟩] ∧
        (c.activeLoops = [] → t.goesOn u k (c.pc + 1) (t0 + 1)))

/-- Post-modification adds M to A; with a window of nonzero length in force the offset wraps within the window's
bytes: it stays at or above the base and below the end, it differs from the plain sum by a multiple of the length,
and the node field is kept. (R97, R98, R99) -/
def Obligations.WindowWrap : Prop :=
  ∀ (a m : BitVec 64) (w : Window), w.base + w.len ≤ 2 ^ 48 →
    (w.len = 0 → postModify a m w = a + m) ∧
    (0 < w.len →
      let o := offOf (postModify a m w)
      w.base ≤ o ∧ o < w.base + w.len ∧ (w.len : Int) ∣ (o : Int) - ((offOf a : Int) + m.toInt) ∧
      nodeOf (postModify a m w) = nodeOf a)

/-- When the one result on its way to a unit that may reach its cycle becomes visible, a scalar, address or predicate
register of the issuing context holds it, or its bytes stand in memory at its offset and no other byte changes; the
unit's cycle is then the result's, and nothing else of the unit changes. (R95, R96, R243, R148) -/
def Obligations.ResultLands : Prop :=
  ∀ (s : State) (u : SeqUnit) (x : Pend), (s.seq u).pend = [x] → (s.seq u).free x.due = true →
    let q := s.seq u
    let q' : Seq := { q with pend := [], cyc := max q.cyc x.due }
    let c := q.ctx x.ctx
    Runs (.resultVisible u) s (fun t =>
      (∀ n v, x.what = .regS n v → t = s.setSeq u (q'.setCtx x.ctx { c with s := c.s.put n v })) ∧
      (∀ n v, x.what = .regA n v → t = s.setSeq u (q'.setCtx x.ctx { c with a := c.a.put n v })) ∧
      (∀ n v, x.what = .regP n v → t = s.setSeq u (q'.setCtx x.ctx { c with p := c.p.put n v })) ∧
      (∀ off bs, x.what = .mem off bs → s.badWords = [] →
        t.seq u = q' ∧ t.regs = s.regs ∧
        ∀ a, t.byte a = if off ≤ a ∧ a < off + bs.length then bs.getD (a - off) 0 else s.byte a))

/-- BOPEN, BSCALE, SOPEN and SSCALE alone in a poised context's bundle, that raise nothing, add one stream of their
kind and mask at their address and window, ready 8 cycles later (10 on an Iris core), and post-modify their address
register. BCLOSE and SCLOSE close exactly the open streams of their two kinds whose mask overlaps theirs. Nothing
else changes. (R150, R151, R152, R105) -/
def Obligations.ScratchStreams : Prop :=
  ∀ (s : State) (u : SeqUnit) (k : Nat) (mask : BitVec 8) (a m ww : BitVec 4) (p : BitVec 4), s.poised u k →
    let q := s.seq u
    let c := q.ctx k
    let win := windowOf (c.rw ww.toNat)
    let opened (kind : StreamKind) : Seq := { q with streams := q.streams ++
      [{ kind := kind, mask := mask.toNat, ptr := offOf (c.ra a), winBase := win.base, winLen := win.len,
         ready := q.next + if u.isIris then 10 else 8 }] }
    let closed (k1 k2 : StreamKind) : Seq :=
      { q with streams := q.streams.filter (fun x => !((x.kind == k1 || x.kind == k2) && (x.mask &&& mask.toNat) != 0)) }
    let c' := { c with a := c.a.put a.toNat (postModify (c.ra a) (c.rm m) win) }
    c.pred p = true →
    ∀ e ∈ [(Instr.bopen u mask a m ww (aloneIn p), (aloneIn p).withBcst (.bopen mask a m ww), opened .bcast, c'),
        (.bscale u mask a m ww (aloneIn p), (aloneIn p).withBcst (.bscale mask a m ww), opened .bscale, c'),
        (.sopen u mask a m ww (aloneIn p), (aloneIn p).withStrm (.sopen mask a m ww), opened .b, c'),
        (.sscale u mask a m ww (aloneIn p), (aloneIn p).withStrm (.sscale mask a m ww), opened .bscl, c'),
        (.bclose u mask (aloneIn p), (aloneIn p).withBcst (.bclose mask), closed .bcast .bscale, c),
        (.sclose u mask (aloneIn p), (aloneIn p).withStrm (.sclose mask), closed .b .bscl, c)],
      s.admits u k e.2.1 →
      Runs e.1 s (fun t =>
        s.issued t u k e.2.2.1 e.2.2.2 [] ∧ (c.activeLoops = [] → t.goesOn u k (c.pc + 1) (q.next + 1)))

/-- WOPEN opens the pending weight stream, whose first bytes reach staging 240 cycles after the later of its issue
and the port's last byte, and WCLOSE discards it; LDBIAS has its values on their way for 6 cycles. At the first
staging the stream is staged. A half's refill whose read was repeated for up to 48 cycles moves the pending stream's
first staging, or the operation in flight, by them and counts one corrected error; without a repeat it changes
nothing of either. (R154, R155, R58, R61, R62) -/
def Obligations.WeightStreams : Prop :=
  (∀ (s : State) (u : SeqUnit) (k : Nat) (mask : BitVec 8) (tt : BitVec 3) (a m ww : BitVec 4) (p : BitVec 4), s.poised u k →
    let q := s.seq u
    let c := q.ctx k
    let win := windowOf (c.rw ww.toNat)
    let tile := c.rt tt.toNat
    let first := max q.next q.portFree + 240
    let bytes := wstreamBytes (tileOf tile)
    let n := popCount mask.toNat 8 * rowLanes u * 4
    c.pred p = true →
    (s.admits u k ((aloneIn p).withStrm (.wopen tt a m)) →
      Runs (.wopen u tt a m (aloneIn p)) s (fun t =>
        s.issued t u k { q with wpend := some { tile := tile, addr := offOf (c.ra a), first := first, staged := false },
                                portFree := first + cdiv bytes (64 * q.rate) - 1 }
          { c with a := c.a.put a.toNat (c.ra a + c.rm m) } [])) ∧
    (s.admits u k ((aloneIn p).withStrm .wclose) →
      Runs (.wclose u (aloneIn p)) s (fun t =>
        s.issued t u k { q with wpend := none,
                                portFree := if q.wpend.isSome then min q.portFree q.next else q.portFree } c [])) ∧
    (s.admits u k ((aloneIn p).withStrm (.ldbias mask a m ww)) → s.badPieces win (offOf (c.ra a)) n = none →
      Runs (.ldbias u mask a m ww (aloneIn p)) s (fun t =>
        s.issued t u k { q with biasReady := q.next + 6 }
          { c with a := c.a.put a.toNat (postModify (c.ra a) (c.rm m) win) }
          [⟨q.next + 6, k, .bias (s.biasCells u c mask.toNat a ww)⟩]))) ∧
  (∀ (s : State) (u : SeqUnit) (w : WStream), (s.seq u).wpend = some w → (s.seq u).pend = [] →
    let q := s.seq u
    (q.free w.first = true →
      Runs (.weightStreamFirstStaging u) s (fun t =>
        t = s.setSeq u { q with cyc := max q.cyc w.first, wpend := some { w with staged := true } })) ∧
    (∀ extra, extra ≤ 48 → q.form = true → q.active = true → u.isIris = false → unitDie u < 16 → s.unobserved →
      w.staged = false → (∀ x ∈ q.macs, x.until_ ≤ q.cyc) →
      Runs (.weightStreamHalfRefill u extra) s (fun t =>
        t.seq u = { q with wpend := some { w with first := w.first + extra }, portFree := q.portFree + extra } ∧
        t.fld R.dhlHbmEcc (unitDie u) [] 31 0 =
          (if extra = 0 then 0 else if s.fld R.dhlHbmEcc (unitDie u) [] 31 0 < 2 ^ 32 - 1 then 1 else 0) +
            s.fld R.dhlHbmEcc (unitDie u) [] 31 0))) ∧
  (∀ (s : State) (u : SeqUnit) (x : MacBusy) (extra : Nat), (s.seq u).macs = [x] → (s.seq u).cyc < x.until_ → extra ≤ 48 →
    (s.seq u).form = true → (s.seq u).active = true → u.isIris = false → unitDie u < 16 → s.unobserved →
    Runs (.weightStreamHalfRefill u extra) s (fun t =>
      (t.seq u).macs = [{ x with until_ := x.until_ + extra, readable := x.readable + extra }] ∧
      (t.seq u).portFree = (s.seq u).portFree + extra ∧ (t.seq u).ctxs = (s.seq u).ctxs ∧ (t.seq u).acc = (s.seq u).acc))

/-- MMA and MMAK alone in a poised context's bundle, that raise nothing and would consume no word in error, have on
their way the accumulator values and flags of their tile's operation, due five cycles (four on an Iris core) after
their occupancy ends, and leave their unit with rows, streams and counters as the operation leaves them; FORMSW
switches the form for four cycles and keeps of the accumulators only entries 0 to 3 where the form changes. Nothing
else changes. (R156, R54, R64, R105) -/
def Obligations.MacRuns : Prop :=
  ∀ (s : State) (u : SeqUnit) (k : Nat) (tt : BitVec 3) (sk : BitVec 5) (wide : Bool) (p : BitVec 4), s.poised u k →
    let q := s.seq u
    let c := q.ctx k
    let s0 := s.issuing u
    let q0 := s0.seq u
    let t0 := q.next
    let zskip := c.arith.getLsbD 0 && !u.isIris
    c.pred p = true →
    (∀ e ∈ [(Instr.mma u tt (aloneIn p), MacOp.mma tt, (tileOf (c.rt tt.toNat)).k),
        (.mmak u tt sk (aloneIn p), .mmak tt sk, (c.rs sk).toNat)],
      s.admits u k ((aloneIn p).withMac e.2.1) →
      ∃ x, s0.macCtx u q0 (tileOf (c.rt tt.toNat)) e.2.2 = some x ∧
        (s0.macBad x (s0.macTiming q0 x zskip t0) t0 = none →
          Runs e.1 s (fun t =>
            let r := s0.macAll q0 x zskip
            let due := (s0.macTiming q0 x zskip t0).until_ + if u.isIris then 4 else 5
            s.issued t u k ((s0.macUnit q0 c x t0 q0).freeze true (s0.macFreeze x)) c
              [⟨due, k, .mac r.1 r.2 (!u.isIris)⟩] ∧
            (c.activeLoops = [] → t.goesOn u k (c.pc + 1) (t0 + 1))))) ∧
    (s.admits u k ((aloneIn p).withMac (.formsw wide)) →
      Runs (.formsw u wide (aloneIn p)) s (fun t =>
        s.issued t u k
          (if q.form = wide then { q with formUntil := t0 + 4 }
           else { q with form := wide, formUntil := t0 + 4, halfFree := (0, 0), wpend := none,
                         acc := q.acc.keep (fun e => decide (e % 32 < 4)) }) c [] ∧
        (c.activeLoops = [] → t.goesOn u k (c.pc + 1) (t0 + 1))))

/-- A dense deep-form operation of a cluster with no zero skipping occupies its rows for R + Kc × max(M, R) cycles
after its issue, where Kc is the number of chunks of K and R the bytes of the B vector; one with K = 0 for two
cycles; a signal-profile operation of an Iris core for 2 + K × M cycles. (R53, R66, R188, R121) -/
def Obligations.MacOccupancy : Prop :=
  ∀ (s : State) (q : Seq) (x : MacCtx) (t : Nat),
    (x.kk = 0 → (s.macTiming q x false t).until_ = t + 2) ∧
    (x.kk ≠ 0 → x.t.wide = false → x.t.senc = 0 → x.q = s.chunks x.u x.t x.kk x.k x.b x.src → 0 < x.k →
      (x.u.isIris = false →
        (s.macTiming q x false t).until_ = t + (x.b + (x.kk + x.k - 1) / x.k * max x.t.m x.b)) ∧
      (x.u.isIris = true → (s.macTiming q x false t).until_ = t + (2 + x.kk * x.t.m)))

/-- When the result on its way to a cluster is a lane-row operation's and its cycle may come, the accumulator entries
hold its values, the issuing context's flags gain its flags and lose none, and the count of token 63 rises by one
where no context waits on it and it has room. (R54, R191, R75, R110) -/
def Obligations.MacReady : Prop :=
  ∀ (s : State) (n k due : Nat) (cells : List (Nat × BitVec 32)) (f : AFlags),
    let u := SeqUnit.cluster n
    let q := s.seq u
    q.pend = [⟨due, k, .mac cells f true⟩] → q.free due = true → q.waiterOn 63 = none → q.tokens.getD 63 0 < 65535 →
    Runs (.macAccumReady u) s (fun t =>
      t = s.setSeq u { q with
        pend := [], cyc := max q.cyc due, acc := cells.foldl (fun a e => a.put e.1 e.2) q.acc,
        ctxs := q.ctxs.put k { q.ctx k with aflags := (q.ctx k).aflags ||| f },
        tokens := q.tokens.put 63 (q.tokens.getD 63 0 + 1) })

/-- VPOST, VNORM, VBFP, VMAXE and VRED alone in a poised context's bundle, that raise nothing, hold the VEC unit for
as many cycles as the tile has entries, and have their results on their way for the latency of their row more: the
entries written back, or the rows stored from the address register at a stride of a multiple of 64 B with the address
register post-modified, the flags, or the predicate. With no watch point armed in the partition nothing else changes
but the draws of stochastic rounding. (R158, R159, R160, R165, R166, R167, R168, R105) -/
def Obligations.VecRuns : Prop :=
  ∀ (s : State) (u : SeqUnit) (k : Nat) (tt pd : BitVec 3) (sc wc : BitVec 2) (ss : BitVec 5) (bias blk st : Bool)
    (act dfmt kind a m ww p : BitVec 4), s.poised u k →
    let q := s.seq u
    let c := q.ctx k
    let s0 := s.issuing u
    let q0 := s0.seq u
    let x := tileOf (c.rt tt.toNat)
    let due (lat : Nat) : Nat := q.next + (x.entries + lat)
    let win := windowOf (c.rw ww.toNat)
    let off := offOf (c.ra a)
    let c' := { c with a := c.a.put a.toNat (postModify (c.ra a) (c.rm m) win) }
    let post := postOf s0 q0 c sc ss bias act dfmt
    let lat := if actIsTable act.toNat then 8 else 4
    let srx := flagIf (getField c.arith 2 1 == 1 && q.exact && post.narrows x) fSRX
    let bl := laneBlocks x blk
    c.pred p = true → (∀ w < 64, s.fld R.twCfg q.part [w] 0 0 = 0) →
    let done (i : Instr) (op : VecOp) (pend : List Pend) (c' : Ctx) : Prop :=
      s.admits u k ((aloneIn p).withVec op) →
      Runs i s (fun t =>
        ({ s with free := s.free + s0.vecDraws q0 c op } : State).issued t u k (s0.vecUnit q0 c q.next op q0) c' pend ∧
        (t.seq u).vecUntil = q.next + x.entries ∧
        (c.activeLoops = [] → t.goesOn u k (c.pc + 1) (q.next + 1)))
    let stores (rows : List (List Byte)) : Effect := .memList (rowWrites win off rows)
    (st = false →
      let b := post.back x q0
      done (.vpost u tt sc ss bias act dfmt st a m ww (aloneIn p)) (.vpost tt sc ss bias act dfmt st a m ww)
        [⟨due lat, k, .acc b.1⟩, ⟨due lat, k, .flags (b.2 ||| srx)⟩] c) ∧
    (st = true →
      let rows := (x.outRows.zipIdx).map (fun r => post.row x q0 r.1 r.2)
      done (.vpost u tt sc ss bias act dfmt st a m ww (aloneIn p)) (.vpost tt sc ss bias act dfmt st a m ww)
        [⟨due lat, k, stores (rows.map (fun r => r.1))⟩,
         ⟨due lat, k, .flags (rows.foldl (fun f r => f ||| r.2) srx)⟩] c') ∧
    (let cells := (x.outRows.map (fun r => (bl.map (fun l => (l.map (fun i => r.map (fun e =>
        (accKey i e, (q0.entry i e) <<< blockShift q0 r l)))).flatten)).flatten)).flatten
      let shifts := x.outRows.map (fun r => bl.map (fun l => BitVec.ofNat 8 (blockShift q0 r l)))
      done (.vnorm u tt blk st a m ww (aloneIn p)) (.vnorm tt blk st a m ww)
        (⟨due 4, k, .acc cells⟩ :: if st then [⟨due 4, k, stores shifts⟩] else []) (if st then c' else c)) ∧
    done (.vbfp u tt blk wc st a m ww (aloneIn p)) (.vbfp tt blk wc st a m ww)
      [⟨due 4, k, stores (x.outRows.map (fun r => (bl.map (fun l => bfpBlock q0 (wcWidth wc.toNat) r l)).flatten))⟩] c' ∧
    done (.vmaxe u tt blk st a m ww (aloneIn p)) (.vmaxe tt blk st a m ww)
      [⟨due 6, k, stores (x.outRows.map (fun r => bl.map (fun l => BitVec.ofNat 8 (maxExponent q0 (r.headD 0) l))))⟩] c' ∧
    done (.vred u tt pd kind ss (aloneIn p)) (.vred tt pd kind ss)
      [⟨due 6, k, .regP pd.toNat (vredValue q0 x kind.toNat (c.rs ss))⟩] c

/-- Over the active lanes and entries of its tile, VRED kind 0 is true exactly where some value is zero, kind 1 where
every magnitude is below the limit, kind 3 where some value is at or above it, for integer accumulators by their
signed values; kind 2 of FP32 accumulators is true exactly where some value is a NaN. (R168) -/
def Obligations.VredTests : Prop :=
  ∀ (q : Seq) (t : Tile) (ss : BitVec 64),
    let lim := (ss.extractLsb' 0 32).toInt
    let inTile (l e : Nat) : Prop := l ∈ t.lanes ∧ t.e ≤ e ∧ e < t.e + t.entries
    (t.intAcc = true →
      (vredValue q t 0 ss = true ↔ ∃ l e, inTile l e ∧ q.entry l e = 0) ∧
      (vredValue q t 1 ss = true ↔ ∀ l e, inTile l e → ((q.entry l e).toInt.natAbs : Int) < lim) ∧
      (vredValue q t 2 ss = false) ∧
      (vredValue q t 3 ss = true ↔ ∃ l e, inTile l e ∧ lim ≤ (q.entry l e).toInt)) ∧
    (t.intAcc = false →
      (vredValue q t 2 ss = true ↔ ∃ l e, inTile l e ∧ (fp32Num (q.entry l e)).isNaN = true))

/-- SIGNAL alone in a poised context's bundle, that raises nothing, sends one token to its target as the issue cycle
ends. WAIT takes 1 from a token's count and goes on, or leaves its context waiting for the token at a switch point
where the count is 0. TTEST in throughput mode writes whether the count is not 0 and counts one nondeterminism event.
ENGJOB on an Iris core appends its job to the engine queue. Nothing else changes. (R110, R171, R175, R460, R306) -/
def Obligations.XferTokens : Prop :=
  ∀ (s : State) (u : SeqUnit) (k : Nat) (st : BitVec 5) (n : BitVec 6) (pd : BitVec 3) (a : BitVec 4) (qn : BitVec 6)
    (p : BitVec 4), s.poised u k → k < numCtx u →
    let q := s.seq u
    let c := q.ctx k
    let count := q.tokens.getD n.toNat 0
    c.pred p = true →
    (∀ x, tokenTargetOf (c.rs st).toNat = some x →
      Runs (.signal u st (aloneIn p)) s (fun t =>
        ({ s with tokens := s.tokens ++ [{ target := x, fromUnit := s.masterCode (.unit u), part := q.part,
                                           radio := q.radio }] } : State).issued t u k q c [] ∧
        (c.activeLoops = [] → t.goesOn u k (c.pc + 1) (q.next + 1)))) ∧
    (0 < count →
      Runs (.wait u n (aloneIn p)) s (fun t =>
        s.issued t u k { q with tokens := q.tokens.put n.toNat (count - 1) } c [] ∧
        (c.activeLoops = [] → t.goesOn u k (c.pc + 1) (q.next + 1)))) ∧
    (count = 0 →
      Runs (.wait u n (aloneIn p)) s (fun t =>
        s.switched t u q [] ∧
        s.switches t u k { c with st := .waitToken, waitTok := n.toNat, waitFrom := q.next })) ∧
    (pd ≠ 0 → q.exact = false →
      Runs (.ttest u pd n (aloneIn p)) s (fun t =>
        s.issued t u k { q with ndTiming := if q.ndTiming < 65535 then q.ndTiming + 1 else 65535 }
          { c with p := c.p.put pd.toNat (decide (0 < count)) } [])) ∧
    (∀ x, u.isIris = true → s.admits u k ((aloneIn p).withXfer (.engjob a st qn)) →
      tokenTargetOf (c.rs st).toNat = some x →
      Runs (.engjob u a st qn (aloneIn p)) s (fun t =>
        let e := s.engq (irisOf u) qn.toNat
        ∃ job : EngJob, job.desc = offOf (c.ra a) ∧ job.token = x ∧
          (s.setEngq (irisOf u) qn.toNat { e with jobs := e.jobs ++ [job] }).issued t u k q c []))

/-- DMA alone in a poised context's bundle, that raises nothing, becomes one more outstanding operation and
post-modifies its source address; one within the own die's regions ends 16 + ⌈bytes/512⌉ cycles after issue, one with
the own stack 200 + ⌈bytes/(64 × RATE)⌉ cycles after the port is free, one to another die has no fixed end. When a
DMA with no word in error ends as the one result due, its bytes stand at its destination and no other byte changes,
and it is no longer outstanding. (R105, R106, R170, R113) -/
def Obligations.DmaRuns : Prop :=
  (∀ (s : State) (u : SeqUnit) (k : Nat) (f : DForm) (p : BitVec 4), s.poised u k →
    let q := s.seq u
    let c := q.ctx k
    let s0 := s.issuing u
    let d := s0.dmaIssue u (s0.seq u) c k q.next f
    let n := xferSize (c.rs f.ss)
    let src := windowPieces (windowOf (c.rw f.w.toNat)) (offOf (c.ra f.a)) n
    let row := dmaRow (s0.dmaEndPieces u src) (s0.dmaEnd u (offOf (c.ra f.b)) n)
    c.pred p = true → s.admits u k ((aloneIn p).withXfer (.dma f)) →
    (row = some .within → d.2.1 = some (q.next + 16 + (n + 511) / 512)) ∧
    (row = some .hbm → d.2.1 = some (max q.next q.portFree + 200 + cdiv n (64 * q.rate))) ∧
    (row = some .iris → d.2.1 = some (q.next + 20 + (n + 255) / 256)) ∧ (row = some .far → d.2.1 = none) ∧
    Runs (.dma u f (aloneIn p)) s (fun t =>
      s.issued t u k { q with dmas := q.dmas ++ [d.1], nextId := q.nextId + 1, portFree := d.2.2 }
        { c with a := c.a.put f.a.toNat (postModify (c.ra f.a) (c.rm f.m) (windowOf (c.rw f.w.toNat))) }
        (match d.2.1 with
         | some e => [⟨e, k, .dmaEnd q.nextId⟩]
         | none => []))) ∧
  (∀ (s : State) (u : SeqUnit) (d : Dma) (k due off : Nat) (bs : List Byte),
    (s.seq u).dmas = [d] → (s.seq u).pend = [⟨due, k, .dmaEnd d.id⟩] → (s.seq u).free due = true → d.list = false →
    d.remote = false → d.held = false → d.bad = none → d.token = none → d.writes = [(off, bs)] → s.badWords = [] →
    s.unobserved → (s.seq u).dbgWatch = none →
    Runs (.dmaComplete u 0 0) s (fun t =>
      t.seq u = { s.seq u with pend := [], dmas := [], cyc := max (s.seq u).cyc due } ∧
      ∀ a, t.byte a = if off ≤ a ∧ a < off + bs.length then bs.getD (a - off) 0 else s.byte a))

/-- GATHER, COMPACT and ROUTE alone in a poised context's bundle, that raise nothing, become one more outstanding
operation with the writes of their rules, ending 16 + ⌈S/512⌉ cycles after issue; ROUTE adds its counts of placed,
redirected and dropped choices, and one nondeterminism event where its counts are shared. GATHER copies for each
listed index below NSRC the row it names, and zeros for any other. When the operation ends as the one result due, it
is no longer outstanding and its token is sent. (R195, R200, R201, R202, R174) -/
def Obligations.ListOps : Prop :=
  (∀ (s : State) (u : SeqUnit) (k : Nat) (f : DForm) (p : BitVec 4), s.poised u k →
    let q := s.seq u
    let c := q.ctx k
    let s0 := s.issuing u
    let l (op : XferOp) : ListOp := s0.listRun c op f
    let left (op : XferOp) : Seq :=
      { q with dmas := q.dmas ++ [s0.listDma (s0.seq u) c k op f], nextId := q.nextId + 1,
               placed := q.placed + (l op).placed, redirected := q.redirected + (l op).redirected,
               dropped := q.dropped + (l op).dropped }
    let pend (op : XferOp) : List Pend := [⟨q.next + (16 + ((l op).bound + 511) / 512), k, .dmaEnd q.nextId⟩]
    c.pred p = true →
    (s.admits u k ((aloneIn p).withXfer (.gather f)) →
      Runs (.gather u f (aloneIn p)) s (fun t => s.issued t u k (left (.gather f)) c (pend (.gather f)))) ∧
    (s.admits u k ((aloneIn p).withXfer (.compact f)) →
      Runs (.compact u f (aloneIn p)) s (fun t => s.issued t u k (left (.compact f)) c (pend (.compact f)))) ∧
    (s.admits u k ((aloneIn p).withXfer (.route f)) →
      Runs (.route u f (aloneIn p)) s (fun t =>
        s.issued t u k { left (.route f) with
            ndRoute := if (routeP (c.rs f.ss).toNat).shared then satAdd q.ndRoute 1 65535 else q.ndRoute }
          c (pend (.route f))))) ∧
  (∀ (s : State) (pw a b x : Nat), gatherBad pw = false →
    ∀ i, i ≤ bitsOf pw 15 0 →
      let rb := 64 * bitsOf pw 23 16
      let ix := s.num (x + 4 * i) 4
      (s.gatherOp pw a b x).writes[i]? =
        some (b + i * rb, if ix < bitsOf pw 47 24 then s.bytes (a + ix * rb) rb else List.replicate rb 0)) ∧
  (∀ (s : State) (u : SeqUnit) (d : Dma) (k due : Nat) (tok : TokenTarget),
    (s.seq u).dmas = [d] → (s.seq u).pend = [⟨due, k, .dmaEnd d.id⟩] → (s.seq u).free due = true → d.list = true →
    d.held = false → d.bad = none → d.token = some tok → s.badWords = [] → s.unobserved → (s.seq u).dbgWatch = none →
    Runs (.listOpComplete u) s (fun t =>
      t.seq u = { s.seq u with pend := [], dmas := [], cyc := max (s.seq u).cyc due } ∧
      t.tokens = s.tokens ++ [{ target := tok, fromUnit := s.masterCode (.unit u), part := (s.seq u).part,
                                radio := (s.seq u).radio }] ∧
      ∀ a, t.byte a = (s.storeAll d.writes).byte a))

/-- RLD, RST, RAT, PUT and GET alone in a poised cluster context's bundle, that raise nothing, each add one operation
to those outstanding, with the node, offset, size and operands of their registers, and one to the context's count; a
load and an atomic with a result leave the context waiting for it at a switch point, the others go on. FWAIT with
nothing outstanding writes FSTAT to its register, clears it and leaves the context READY at a switch point; with
operations outstanding it waits for them. A store, a get and an atomic without result change no byte of memory as
they issue. (R172, R173, R109, R399) -/
def Obligations.RemoteOps : Prop :=
  ∀ (s : State) (n k : Nat) (a : BitVec 4) (d b cc : BitVec 5) (sz : BitVec 2) (kind : BitVec 4) (f : DForm) (p : BitVec 4),
    let u := SeqUnit.cluster n
    s.poised u k → k < 8 →
    let q := s.seq u
    let c := q.ctx k
    let node (r : BitVec 64) : Nat := if nodeOf r = 0xFFFF then s.nodeId else nodeOf r
    let sent (t : State) (good : RemoteOp → Prop) : Prop :=
      t.nextOp = s.nextOp + 1 ∧ ∃ o, t.remote = s.remote ++ [o] ∧ o.id = s.nextOp ∧ o.issuer = .ctx u k ∧ good o
    let still (t : State) : Prop := ∀ off, t.byte off = s.byte off
    let one : Ctx := { c with outst := c.outst + 1 }
    let waits (t : State) : Prop :=
      s.switches t u k { one with st := .waitRemote, awaits := [s.nextOp], fwaitDst := none, waitFrom := q.next }
    let goes (t : State) : Prop := ((t.seq u).ctx k).outst = c.outst + 1 ∧ ((t.seq u).ctx k).st = c.st ∧
      (c.activeLoops = [] → t.goesOn u k (c.pc + 1) (q.next + 1))
    c.pred p = true →
    (s.admits u k ((aloneIn p).withXfer (.rld a d sz)) →
      Runs (.rld u a d sz (aloneIn p)) s (fun t => waits t ∧ sent t (fun o =>
        o.kind = .rld ∧ o.dst = node (c.ra a) ∧ o.addr = offOf (c.ra a) ∧ o.size = 2 ^ sz.toNat ∧ o.sd = some d.toNat))) ∧
    (s.admits u k ((aloneIn p).withXfer (.rst a d sz)) →
      Runs (.rst u a d sz (aloneIn p)) s (fun t => goes t ∧ still t ∧ sent t (fun o =>
        o.kind = .rst ∧ o.dst = node (c.ra a) ∧ o.addr = offOf (c.ra a) ∧ o.size = 2 ^ sz.toNat ∧
        o.data = leBytes (2 ^ sz.toNat) (c.rs d).toNat))) ∧
    (∀ res, s.admits u k ((aloneIn p).withXfer (.rat a d b cc kind res)) →
      Runs (.rat u a d b cc kind res (aloneIn p)) s (fun t => (if res then waits t else goes t ∧ still t) ∧ sent t (fun o =>
        o.kind = .rat ∧ o.dst = node (c.ra a) ∧ o.addr = offOf (c.ra a) ∧ o.akind = kind.toNat ∧
        o.operand = (c.rs b).toNat ∧ o.cmp = (c.rs cc).toNat ∧ o.res = res))) ∧
    (s.admits u k ((aloneIn p).withXfer (.put f)) →
      Runs (.put u f (aloneIn p)) s (fun t => goes t ∧ sent t (fun o =>
        o.kind = .put ∧ o.dst = node (c.ra f.b) ∧ o.addr = offOf (c.ra f.b) ∧ o.size = xferSize (c.rs f.ss)))) ∧
    (s.admits u k ((aloneIn p).withXfer (.get f)) →
      Runs (.get u f (aloneIn p)) s (fun t => goes t ∧ still t ∧ sent t (fun o =>
        o.kind = .get ∧ o.dst = node (c.ra f.a) ∧ o.addr = offOf (c.ra f.a) ∧ o.size = xferSize (c.rs f.ss) ∧
        o.loc = offOf (c.ra f.b)))) ∧
    (s.outstanding u k = [] →
      Runs (.fwait u d (aloneIn p)) s (fun t => s.switched t u q [] ∧
        s.switches t u k { c with st := .ready, readyAt := q.next, s := c.s.put d.toNat (BitVec.ofNat 64 c.fstat), fstat := stOK, fstatOp := none, fwaitDst := none })) ∧
    (s.outstanding u k ≠ [] →
      Runs (.fwait u d (aloneIn p)) s (fun t => s.switched t u q [] ∧
        s.switches t u k { c with st := .waitRemote, awaits := s.outstanding u k, fwaitDst := some d.toNat, waitFrom := q.next }))

/-- When a slot of a poised context's bundle raises, no operation of the bundle has any effect: the unit records the
first slot in bit order that raises, with its code and the bundle's index, the context is FAULTED and the step
stopped, and no register, stream, accumulator or byte of memory changes. Under a false predicate only the CTL slot
can raise. (R132, R133, R137, R90) -/
def Obligations.BundleException : Prop :=
  ∀ (s : State) (u : SeqUnit) (k : Nat) (b : Bundle), s.poised u k → s.sound u → (s.seq u).fault.getLsbD 27 = false →
    let s1 := s.settle u (s.seq u).next
    let q := s1.seq u
    let c := q.ctx k
    let excs := s1.bundleExcs u q c k q.next { b with ctl := some .nop }
    (∀ slot code addr, firstExc excs = some (slot, code, addr) →
      Runs (.nop u b) s (fun t => s.excepted t u k code slot addr)) ∧
    (c.pred b.pred = false → firstExc excs = none)

/-- On a unit that may issue and runs no context, the context that has been READY longest is selected (one of those
that became READY first) and issues three cycles after it became READY; nothing is selected while none is READY. On a
unit whose switch point has selected a context, its issue cycle is reached and nothing else changes where no result
is on its way. (R86, R87) -/
def Obligations.SeqResumes : Prop :=
  ∀ (s : State) (u : SeqUnit), unitDie u < 20 → s.unobserved → (s.seq u).canIssue = true →
    let q := s.seq u
    let rd (k : Nat) : Prop := k < numCtx u ∧ (q.ctx k).st = .ready
    ((q.run = none) → (∃ k, rd k) →
      Runs (.contextResume u) s (fun t => ∃ j, rd j ∧ (∀ k, rd k → (q.ctx j).readyAt ≤ (q.ctx k).readyAt) ∧
        (t.seq u).run = some j ∧ (t.seq u).next = (q.ctx j).readyAt + 3 ∧
        (t.seq u).ctx j = { q.ctx j with st := .running } ∧ (∀ k, k ≠ j → (t.seq u).ctx k = q.ctx k) ∧
        (t.seq u).switches = q.switches + 1 ∧ ∀ off, t.byte off = s.byte off)) ∧
    (q.run = none → (∀ k, ¬ rd k) → Runs (.contextResume u) s (fun t => t.seq u = q)) ∧
    (∀ k, q.run = some k → q.pend = [] →
      Runs (.contextResume u) s (fun t => t = s.setSeq u { q with cyc := max q.cyc q.next }))

/-- A running context whose next bundle index has reached the end of the code raises the illegal-operation exception,
precise, and no bundle takes effect. An uncorrectable error with no data on its way raises MEMORY_ERROR, imprecise,
with the global address of the word; in both the context is FAULTED and the step stopped. (R92, R135, R137) -/
def Obligations.SeqExceptions : Prop :=
  ∀ (s : State) (u : SeqUnit) (k : Nat), unitDie u < 20 → (s.seq u).run = some k → (s.seq u).canIssue = true →
    (s.seq u).pend = [] → (s.seq u).dbgWatch = none → s.sound u → (s.seq u).fault.getLsbD 27 = false →
    let q := s.seq u
    (q.codeLen ≤ (q.ctx k).pc → Runs (.execPastCodeEnd u) s (fun t => s.excepted t u k exIllegal 0 0)) ∧
    (∀ off, Runs (.memoryErrorDetected u off) s (fun t =>
      (t.seq u).fault = faultWord u exMemory k (q.ctx k).pc 0 false ∧
      (t.seq u).faddr = BitVec.ofNat 64 (s.globalAddr off) ∧ ((t.seq u).ctx k).st = .faulted ∧
      (t.seq u).stopped = true ∧ (t.seq u).run = none ∧ ∀ a, t.byte a = s.byte a))

/-- On an active cluster in throughput mode, whose last such win lies at least 8 cycles back, the cluster freezes for
one cycle more and its DHL_SEQ counters alone change; on one in exact mode, or within 8 cycles of the last win, the
command has no effect. (R115, R116, R231, R234) -/
def Obligations.BankWin : Prop :=
  ∀ (s : State) (n mcls bank : Nat) (wr : Bool), n < 128 → s.unobserved → (s.seq (.cluster n)).active = true →
    let u := SeqUnit.cluster n
    let q := s.seq u
    let soon := ∃ w, q.lastWin = some w ∧ q.cycles < w + 8
    (q.exact = true ∨ soon → exec (.unscheduledBankWin u mcls bank wr) s = .next s) ∧
    (q.exact = false → ¬ soon →
      Runs (.unscheduledBankWin u mcls bank wr) s (fun t =>
        t.seq u = { q with frzUnsched := q.frzUnsched + 1, lastWin := some q.cycles,
                           ndIntrude := if wr && q.slice.getLsbD (bank / 16) then satAdd q.ndIntrude 1 65535 else q.ndIntrude } ∧
        (∀ v, v ≠ u → v.key ≠ u.key → t.seq v = s.seq v) ∧ (∀ off, t.byte off = s.byte off) ∧
        (s.fld R.dhlSpCfg (n / 8) [] 9 9 = 1 → s.fld R.dhlSpConf (n / 8) [n % 8] 63 32 < 2 ^ 32 - 1 →
          t.fld R.dhlSpConf (n / 8) [n % 8] 63 32 = s.fld R.dhlSpConf (n / 8) [n % 8] 63 32 + 1)))

/-- When the next bundle of a running context, which raises no exception, is named by one armed breakpoint of the
unit with action 0, the unit halts before it with cause 2 and the breakpoint's number, the breakpoint counts one hit,
and the bundle has no effect. (R551, R555) -/
def Obligations.BreakpointHalts : Prop :=
  ∀ (s : State) (u : SeqUnit) (k i : Nat) (w : Bundle), unitDie u < 20 → (s.seq u).run = some k → (s.seq u).canIssue = true →
    (s.seq u).pend = [] → (s.seq u).bpPass = false → s.bpHits u k = [i] → ((s.seq u).ctx k).pc < (s.seq u).codeLen →
    getField (s.bpReg u i) 2 1 = 0 → s.admits u k w →
    Runs (.breakpointHit u w) s (fun t =>
      (t.seq u).dbgHalted = true ∧ (t.seq u).dbgCause = 2 ∧ (t.seq u).dbgIndex = i ∧ (t.seq u).ctxs = (s.seq u).ctxs ∧
      (t.seq u).run = some k ∧ (t.seq u).acc = (s.seq u).acc ∧ (∀ off, t.byte off = s.byte off) ∧
      getField (t.bpReg u i) 63 32 = satAdd (getField (s.bpReg u i) 63 32) 1 (2 ^ 32 - 1))

/-- A token for an active cluster of its sender's partition raises the target's count by one where no context waits
on it; one for a cluster that runs no step is discarded. A RADIO token for an engine queue raises the queue's count.
The reply of the one outstanding operation of a waiting context writes its value and status word, lowers the
context's count of outstanding operations by one, and makes the context READY. (R110, R111, R85, R172, R307) -/
def Obligations.Arrivals : Prop :=
  (∀ (s : State) (dt : Nat) (m : TokenMsg) (rest : List TokenMsg) (c : Nat), s.tokens = m :: rest → m.target.kind = 0 →
    s.physCluster m.target.unit = some c → (s.seq (.cluster c)).pend = [] →
    let u := SeqUnit.cluster c
    let q := s.seq u
    let n := m.target.token
    (q.active = true → q.part = m.part → m.dead = false → q.waiterOn n = none → q.tokens.getD n 0 < 65535 →
      Runs (.tokenArrival 0 dt) s (fun t => t = ({ s with tokens := rest } : State).setSeq u
        { q with cyc := max q.cyc (q.arrival dt), tokens := q.tokens.put n (q.tokens.getD n 0 + 1) })) ∧
    (q.active = false → Runs (.tokenArrival 0 dt) s (fun t => t.tokens = rest ∧ t.seqs = s.seqs ∧ t.mem = s.mem))) ∧
  (∀ (s : State) (d n : Nat) (m : TokenMsg) (rest : List TokenMsg), d < 4 → n < 64 → s.tokens = m :: rest →
    m.target.kind = 2 → m.target.unit = 64 * d + n → m.target.token = 0 → m.radio = true → s.kindOf d n ≠ 0 →
    (s.engq d n).token < 65535 →
    Runs (.engineQueueToken d n) s (fun t =>
      t = ({ s with tokens := rest } : State).setEngq d n { s.engq d n with token := (s.engq d n).token + 1 })) ∧
  (∀ (s : State) (u : SeqUnit) (k d dt code : Nat) (r : RemoteOp), s.remote = [r] → r.issuer = .ctx u k →
    r.status = some code → r.orphan = false → r.sd = some d → r.token = none → (s.seq u).step = r.step →
    (s.seq u).active = true → (s.seq u).stopped = false → (s.seq u).pend = [] →
    let q := s.seq u
    let c := q.ctx k
    c.st = .waitRemote → c.awaits = [r.id] → c.fwaitDst = none →
    Runs (.remoteReplyArrival u k dt) s (fun t =>
      let c' := (t.seq u).ctx k
      t.remote = [] ∧ c'.st = .ready ∧ c'.readyAt = q.arrival dt ∧ c'.outst = c.outst - 1 ∧ c'.pc = c.pc ∧
      c'.s = (c.s.put d (BitVec.ofNat 64 r.value)).put (d + 1) (BitVec.ofNat 64 (code + r.hint * 2 ^ 32)) ∧
      (code = stOK → c'.fstat = c.fstat) ∧ (∀ off, t.byte off = s.byte off)))

/-- A granted SP_CFG_LOCK with the lock open stores INTERLEAVE and ARB and sets LOCK; TLP_CFG_LOCK does so for
CH_MASK, storing 0xFF for any value but 0xFF, 0x0F and 0xF0. A granted SP_PWR_CMD whose named groups may all change
puts each named group that is not in its target state into transition, and zeroes the bytes of those that go OFF; a
refused one changes no group. BANK_GROUP_TRANSITION_DONE puts a group in transition into its target state. (R213,
R220, R221, R222, R240) -/
def Obligations.BankPower : Prop :=
  ∀ (s : State) (m : Master) (die : Nat) (v : BitVec 64),
    let d := die % 16
    (s.grants m R.dhlSpCfg d [] → s.fld R.dhlSpCfg d [] 8 8 = 0 →
      Runs (.spCfgLock m die v) s (fun t => t.ansStatus = stOK ∧ t.mem = s.mem ∧ t.seqs = s.seqs ∧
        t.fld R.dhlSpCfg d [] 8 8 = 1 ∧ t.fld R.dhlSpCfg d [] 0 0 = getField v 0 0 ∧
        t.fld R.dhlSpCfg d [] 1 1 = getField v 1 1)) ∧
    (s.grants m R.tlpCfg 30 [] → s.fld R.tlpCfg 30 [] 8 8 = 0 →
      Runs (.tlpCfgLock m v) s (fun t => t.ansStatus = stOK ∧ t.mem = s.mem ∧ t.seqs = s.seqs ∧
        t.fld R.tlpCfg 30 [] 8 8 = 1 ∧
        t.fld R.tlpCfg 30 [] 7 0 =
          (if getField v 7 0 = 0x0F ∨ getField v 7 0 = 0xF0 then getField v 7 0 else 0xFF))) ∧
    (s.grants m R.dhlSpPwrCmd d [] → s.pwrRefused d (getField v 31 0) (getField v 33 32) = false →
      Runs (.spPwrCmd m die v) s (fun t => t.ansStatus = stOK ∧ t.seqs = s.seqs ∧
        (∀ g < 32, t.bankSt d g =
          if bitOf (getField v 31 0) g && s.bankSt d g != getField v 33 32 then 3 else s.bankSt d g) ∧
        (∀ a, t.byte a = s.byte a ∨
          (getField v 33 32 = 2 ∧ t.byte a = 0 ∧ ∃ o, regionOf a = .sp d o ∧
            bitOf (getField v 31 0) (groupOf (s.groupWide d) o) = true)))) ∧
    (s.grants m R.dhlSpPwrCmd d [] → s.pwrRefused d (getField v 31 0) (getField v 33 32) = true →
      Runs (.spPwrCmd m die v) s (fun t => t.mem = s.mem ∧ t.seqs = s.seqs ∧ ∀ g < 32, t.bankSt d g = s.bankSt d g)) ∧
    (∀ g to_, g < 32 → s.groupWide d = true → s.bankGo.find (32 * d + g) = some to_ → to_ < 4 →
      Runs (.bankGroupTransitionDone die g) s (fun t => t.bankSt d g = to_ ∧ t.mem = s.mem ∧ t.seqs = s.seqs ∧
        (∀ j < 32, j ≠ g → t.bankSt d j = s.bankSt d j)))

/-- The one owner change that waits, for an exchange slot of a powered die on which the old owner's partition runs
nothing, gives the slot its new owner and zeroes its bytes and no other. A wipe that reaches its die marks it busy
with its cause, counts one more wipe, and leaves every byte of its slices 0 and every other byte as it was; its end
clears the busy mark where no owner change and no operation waits on it. (R219, R228, R229) -/
def Obligations.OwnersAndWipes : Prop :=
  (∀ (s : State) (r : OwnerReq), s.ownerReqs = [r] → r.kind = 1 → r.die < 16 → r.unit < 32 → r.owner < 256 →
    r.wiping = false → s.partRuns r.die (s.slotOwner r.die r.unit) = false → s.pdOn (2 * r.die + 1) = true →
    Runs (.ownerRecordApply 0) s (fun t =>
      t.slotOwner r.die r.unit = r.owner ∧ t.ownerReqs = [] ∧ t.seqs = s.seqs ∧
      (∀ k < 32, k ≠ r.unit → t.slotOwner r.die k = s.slotOwner r.die k) ∧
      (let lo := xchBase r.die + r.unit * 0x10000
       ∀ a, t.byte a = if lo ≤ a ∧ a < lo + 0x10000 then 0 else s.byte a))) ∧
  (∀ (s : State) (w : WipeReq) (rest : List WipeReq), s.wipes = w :: rest → w.die < 16 → w.cause < 8 → w.slices < 256 →
    s.fld R.dhlSealedStatus w.die [] 0 0 = 0 →
    Runs (.sealedWipe w.die) s (fun t =>
      t.wipes = rest ∧ t.fld R.dhlSealedStatus w.die [] 0 0 = 1 ∧ t.fld R.dhlSealedStatus w.die [] 3 1 = w.cause ∧
      t.fld R.dhlSealedStatus w.die [] 15 8 = w.slices ∧
      t.fld R.dhlSealedStatus w.die [] 47 16 = (s.fld R.dhlSealedStatus w.die [] 47 16 + 1) % 2 ^ 32 ∧
      ∀ a, t.byte a = match regionOf a with
        | .sealed x o => if x = w.die ∧ bitOf w.slices (o / 0x100000) then 0 else s.byte a
        | _ => s.byte a)) ∧
  (∀ (s : State) (die : Nat),
    let d := die % 16
    s.fld R.dhlSealedStatus d [] 0 0 = 1 → (∀ l < 8, (s.seq (.cluster (8 * d + l))).dmas = []) → s.ownerReqs = [] →
    Runs (.sealedWipeComplete die) s (fun t =>
      t.fld R.dhlSealedStatus d [] 0 0 = 0 ∧ t.mem = s.mem ∧
      t.fld R.dhlSealedStatus d [] 15 1 = s.fld R.dhlSealedStatus d [] 15 1))

/-- The end of a stack's training sets TRAINED where it succeeded and leaves it where it failed; the end of the
LPDDR5X training shows the channels that trained, and the tier up exactly where the lock is committed and every
channel of CH_MASK trained. A scrub pass of a trained stack with a period counts one more pass. No byte of memory
changes. (R238, R240, R591) -/
def Obligations.Training : Prop :=
  ∀ (s : State) (die mask : Nat),
    let d := die % 16
    (d ∈ s.training →
      Runs (.hbmTrainingDone die true) s (fun t => t.fld R.dhlHbmStatus d [] 0 0 = 1 ∧ d ∉ t.training ∧ t.mem = s.mem ∧
        t.seqs = s.seqs) ∧
      Runs (.hbmTrainingDone die false) s (fun t =>
        t.fld R.dhlHbmStatus d [] 0 0 = s.fld R.dhlHbmStatus d [] 0 0 ∧ d ∉ t.training ∧ t.mem = s.mem ∧ t.seqs = s.seqs)) ∧
    (s.fld R.dhlHbmScrub d [] 15 0 ≠ 0 → s.fld R.dhlHbmStatus d [] 0 0 = 1 →
      Runs (.hbmScrubPass die) s (fun t =>
        t.fld R.dhlHbmScrub d [] 47 16 = (s.fld R.dhlHbmScrub d [] 47 16 + 1) % 2 ^ 32 ∧
        t.fld R.dhlHbmScrub d [] 15 0 = s.fld R.dhlHbmScrub d [] 15 0 ∧ t.mem = s.mem)) ∧
    (30 ∈ s.training → mask < 256 →
      Runs (.lpddrTrainingDone mask) s (fun t =>
        t.fld R.tlpStatus 30 [] 7 0 = mask ∧ 30 ∉ t.training ∧ t.mem = s.mem ∧
        (t.fld R.tlpStatus 30 [] 8 8 = 1 ↔ s.fld R.tlpCfg 30 [] 8 8 = 1 ∧
          ∀ c < 8, bitOf (s.fld R.tlpCfg 30 [] 7 0) c = true → bitOf mask c = true)))

/-- A granted write of a ring's TAIL below its size stores it, and of its BASE stores the ring, clears STOP and sets
HEAD to 0. An engine that is not stopped, holds no descriptor and has one to read takes it from memory with its
addresses, length and the status its checks give; one whose ring it cannot read stops. A descriptor whose checks
failed completes with NO_UNIT: it moves nothing but its status word, and HEAD advances. (R244, R245, R246, R249) -/
def Obligations.TierDma : Prop :=
  ∀ (s : State) (m : Master) (en : Nat) (v : BitVec 64),
    let e := en % 8
    let head := s.fld R.tlpDmaHead 30 [e] 15 0
    let a := s.fld R.tlpDmaBase 30 [e] 47 0 + 32 * head
    let ready := s.pdOn 52 = true ∧ s.chipFenced = false ∧ s.fld R.tlpDmaHead 30 [e] 16 16 = 0 ∧ s.tier.find e = none ∧
      head ≠ s.fld R.tlpDmaTail 30 [e] 15 0
    (s.grants m R.tlpDmaTail 30 [e] → getField v 15 0 < s.tierSlots e →
      Runs (.tierDmaTailWrite m en v) s (fun t => t.fld R.tlpDmaTail 30 [e] 15 0 = getField v 15 0 ∧ t.mem = s.mem ∧
        t.seqs = s.seqs)) ∧
    (s.grants m R.tlpDmaBase 30 [e] →
      Runs (.tierDmaBaseWrite m en v) s (fun t =>
        t.fld R.tlpDmaBase 30 [e] 47 0 = getField v 47 5 * 32 ∧
        t.fld R.tlpDmaBase 30 [e] 51 48 = (if 4 ≤ getField v 51 48 ∧ getField v 51 48 ≤ 12 then getField v 51 48 else 4) ∧
        t.fld R.tlpDmaHead 30 [e] 16 0 = 0 ∧ t.mem = s.mem ∧ t.seqs = s.seqs)) ∧
    (ready → (∃ o, regionOf a = .lpddr o) → s.memUp a = true → s.badIn a 32 = none →
      Runs (.tierDmaDescriptor en) s (fun t => ∃ j, t.tier.find e = some j ∧ j.at_ = a ∧ j.src = s.num a 8 ∧
        j.dst = s.num (a + 8) 8 ∧ j.len = s.num (a + 16) 4 ∧ t.mem = s.mem ∧
        j.status = s.tierCheck (s.num a 8) (s.num (a + 8) 8) (s.num (a + 16) 4) (s.num (a + 22) 2) (s.num (a + 24) 8))) ∧
    (ready → s.memUp a = false →
      Runs (.tierDmaDescriptor en) s (fun t =>
        t.fld R.tlpDmaHead 30 [e] 16 16 = 1 ∧ t.fld R.tlpDmaHead 30 [e] 15 0 = head ∧ t.tier.find e = none ∧
        t.mem = s.mem)) ∧
    (∀ j, s.gstopped = false → s.tier.find e = some j → j.status = stNoUnit → j.stale = false → j.token = none →
      s.tierSlots e ≤ 2 ^ 12 →
      Runs (.tierDmaDescComplete en) s (fun t =>
        t.tier.find e = none ∧ t.fld R.tlpDmaHead 30 [e] 15 0 = (head + 1) % s.tierSlots e ∧
        t.num (j.at_ + 20) 2 = stNoUnit + 0x8000 ∧
        (∀ b, (b < j.at_ + 20 ∨ j.at_ + 22 ≤ b) → t.byte b = s.byte b)))

/-- At the next multiple of 1,000 LC ticks the sync word is sent, where no unit is held red at a meter. Each base has
advanced exactly by its rate and takes its pending step, saturated to 48 signed bits; a rate word that awaits the
word comes into force unless the base is in HOLDOVER. A pending SWITCH selects the other radio base and is counted,
ALIGN sets OFS to 0, and without ALIGN the active radio time is what it would have been without step, rate or switch.
Memory, sequencers, steps and remote operations stay. (R431, R433, R435, R440, R442) -/
def Obligations.SyncWord : Prop :=
  ∀ s : State, s.held = [] →
    let lc' := (s.lc / 1000 + 1) * 1000
    let n := lc' - s.lc
    let a := s.activeBase
    let sw := s.fld R.prmTbStat 31 [] 1 1
    Runs .syncWord s (fun t =>
      t.lc = lc' ∧ s.keeps t ∧
      (∀ i < 4,
        (t.base i).val = (s.base i).val + s.tickOf i * n +
          max (-(2 ^ 47)) (min (s.base i).pendStep (2 ^ 47 - 1)) * 2 ^ 40 ∧
        (t.base i).pendStep = 0 ∧ t.servo i = s.servo i ∧
        (s.servo i ≠ 2 → (t.base i).pendRate = none ∧ (t.base i).rate = ((s.base i).pendRate).getD (s.base i).rate) ∧
        (s.servo i = 2 → (t.base i).pendRate = (s.base i).pendRate ∧ (t.base i).rate = (s.base i).rate)) ∧
      t.activeBase = (if sw = 1 then 1 - a else a) ∧ t.fld R.prmTbStat 31 [] 1 1 = 0 ∧
      t.fld R.prmTbStat 31 [] 63 32 = (s.fld R.prmTbStat 31 [] 63 32 + sw) % 2 ^ 32 ∧
      t.alignPend = false ∧ (s.alignPend = true → t.ofs = 0) ∧
      (s.alignPend = false → t.art32 = ((s.base a).val + s.tickOf a * n) / 2 ^ 8 + s.ofs + s.ofsStep))

/-- A granted write of a base's RATE stores the value clamped to 858,993 either way, sets LIMIT where it was clamped,
and awaits the next sync word; STEP adds to the step that awaits it; SWITCH and ALIGN await it, and a refused ALIGN
changes nothing; STATE takes 0 to 2 with the watchdog and averaging held in range, and 3 leaves the state. The servo
watchdog puts a LOCKED base into HOLDOVER at its due tick. TAKE captures LC and every base. The replica of a die that
runs becomes valid. A recovered-clock output is held low from the loss of lock to its return. (R434, R435, R436,
R437, R440, R442, R446, R452) -/
def Obligations.TimeBases : Prop :=
  ∀ (s : State) (m : Master) (n : Nat) (v : BitVec 64),
    let b := n % 4
    (s.grants m R.prmTbRate 31 [b] →
      let x := sext 40 v.toNat
      let y := max (-858993) (min x 858993)
      Runs (.tbRateWrite m n v) s (fun t => s.wrote t ∧ (t.base b).pendRate = some y ∧ (t.base b).val = (s.base b).val ∧
        (t.base b).rate = (s.base b).rate ∧ (t.base b).pendStep = (s.base b).pendStep ∧
        t.fld R.prmTbRate 31 [b] 39 0 = wrapInt 40 y ∧
        t.fld R.prmTbCfg 31 [b] 2 2 = (if x = y then s.fld R.prmTbCfg 31 [b] 2 2 else 1) ∧
        ∀ j < 4, j ≠ b → t.base j = s.base j)) ∧
    (s.grants m R.prmTbStep 31 [b] →
      Runs (.tbStepWrite m n v) s (fun t => s.wrote t ∧ t.regs = s.regs ∧
        t.base b = { s.base b with pendStep := (s.base b).pendStep + sext 48 v.toNat } ∧
        ∀ j < 4, j ≠ b → t.base j = s.base j)) ∧
    (s.grants m R.prmTbCtrl 31 [] →
      Runs (.tbSwitch m v) s (fun t => s.wrote t ∧ t.tb = s.tb ∧ t.ofs = s.ofs ∧ t.fld R.prmTbStat 31 [] 1 1 = 1 ∧
        t.activeBase = s.activeBase) ∧
      Runs (.tbAlign m v) s (fun t => s.wrote t ∧ t.tb = s.tb ∧ t.ofs = s.ofs ∧
        t.alignPend = (s.alignPend || !s.alignRefused) ∧ t.activeBase = s.activeBase)) ∧
    (s.grants m R.prmTbCfg 31 [b] →
      Runs (.tbStateWrite m n v) s (fun t => s.wrote t ∧
        t.servo b = (if getField v 1 0 = 3 then s.servo b else getField v 1 0) ∧ t.fld R.prmTbCfg 31 [b] 2 2 = 0 ∧
        t.fld R.prmTbCfg 31 [b] 13 4 = (if 1 ≤ getField v 13 4 ∧ getField v 13 4 ≤ 1000 then getField v 13 4 else 16) ∧
        t.fld R.prmTbCfg 31 [b] 19 16 = min (getField v 19 16) 12)) ∧
    (s.servo b ≠ 1 → Runs (.servoWatchdog n) s (fun t => t = s)) ∧
    (s.servo b = 1 →
      Runs (.servoWatchdog n) s (fun t => s.keeps t ∧ t.servo b = 2 ∧
        t.lc = max s.lc ((s.base b).rateLc + s.fld R.prmTbCfg 31 [b] 13 4 * 1000000))) ∧
    (s.grants m R.prmTbSnap 31 [] → v.getLsbD 0 = true →
      Runs (.tbSnapshot m v) s (fun t => s.wrote t ∧ t.tb = s.tb ∧ t.fld R.prmTbSnap 31 [] 1 1 = 1 ∧
        t.reg R.prmTbSnapv 31 [0] = BitVec.ofInt 64 s.lc ∧ t.reg R.prmTbSnapv 31 [5] = BitVec.ofInt 64 s.artNs ∧
        ∀ j < 4, t.reg R.prmTbSnapv 31 [j + 1] = BitVec.ofInt 64 (s.tbNs j))) ∧
    (∀ die, s.dieOn die = true → s.pdOn (replicaDomain die) = true →
      Runs (.replicaValid die) s (fun t => die ∈ t.replicas ∧ t.regs = s.regs ∧ s.keeps t ∧ t.lc = s.lc)) ∧
    (∀ k out port,
      let x := 2 * (k % 2) + out % 2
      Runs (.rclkLockLoss k out port) s (fun t => x ∈ t.rclkLow ∧ (s.unobserved → s.keeps t) ∧
        ∀ y, y ≠ x → (y ∈ t.rclkLow ↔ y ∈ s.rclkLow)) ∧
      Runs (.rclkLockRegain k out) s (fun t => x ∉ t.rclkLow ∧ t.regs = s.regs ∧ s.keeps t ∧
        ∀ y, y ≠ x → (y ∈ t.rclkLow ↔ y ∈ s.rclkLow)))

/-- Where no unit is held red at a meter and no counter, trace unit or watchpoint is on: the boundary of a running
schedule with no swap due moves GATE_START by the cycle, counts one more boundary, brings the first entry of every
logical cluster into force, and takes one cycle from a draining change set. With no schedule running it has no
effect. An entry boundary brings the next entry of one cluster into force and no other; past the last entry it has no
effect. At the next multiple of 4,096 LC ticks each die's RATE takes its measured value, 0 for a die that is disabled
or off, with STOPPED where it is 0. (R251, R252, R267, R268, R288) -/
def Obligations.GateCycle : Prop :=
  ∀ s : State, s.held = [] → s.unobserved →
    (s.fld R.fxgGate 31 [] 0 0 = 0 → exec .gateCycleBoundary s = .next s) ∧
    (s.fld R.fxgGate 31 [] 0 0 = 1 → s.swapDue = false →
      let g := s.gateStart + s.gateCycle
      Runs .gateCycleBoundary s (fun t =>
        t.reg R.fxgGateStart 31 [] = BitVec.ofInt 64 g ∧ t.reg R.fxgGateCount 31 [] = s.reg R.fxgGateCount 31 [] + 1 ∧
        t.lc = s.lcOfArt g ∧ t.mem = s.mem ∧ t.seqs = s.seqs ∧
        (∀ c < s.numClusters, t.entryOf c = 0 ∧ t.operList c = s.operList c ∧
          t.typeOf c = ((s.operList c)[0]?.map GateEntry.type).getD 2) ∧
        (s.changeState = 3 → 0 < s.fld R.fxgEpoch 31 [] 47 40 →
          t.fld R.fxgEpoch 31 [] 47 40 = s.fld R.fxgEpoch 31 [] 47 40 - 1) ∧
        (s.changeState ≠ 3 → t.reg R.fxgEpoch 31 [] = s.reg R.fxgEpoch 31 []))) ∧
    (∀ c, (s.numClusters ≤ c ∨ (s.operList c).length ≤ s.entryOf c + 1 → exec (.gateEntryBoundary c) s = .next s) ∧
      (∀ e, c < s.numClusters → (s.operList c)[s.entryOf c + 1]? = some e →
        Runs (.gateEntryBoundary c) s (fun t =>
          t.entryOf c = s.entryOf c + 1 ∧ t.typeOf c = e.type ∧ t.mem = s.mem ∧ t.seqs = s.seqs ∧
          t.lc = s.lcOfArt (s.entryStart c (s.entryOf c + 1)) ∧
          ∀ j < s.numClusters, j ≠ c → t.entryOf j = s.entryOf j ∧ t.typeOf j = s.typeOf j))) ∧
    (∀ rates, Runs (.dieRateUpdate rates) s (fun t => t.lc = (s.lc / 4096 + 1) * 4096 ∧ s.keeps t ∧
      ∀ d < 16,
        let v := if s.dieOn d && s.pdOn (2 * d + 1) then min (rates.getD d 0) 65535 else 0
        t.dieRate d = v ∧ t.fld R.fxgDieRate 31 [d] 16 16 = b2n (v == 0)))

/-- A granted APPLY copies the staging area and starts validation from IDLE, and answers BUSY otherwise. The end of
validation arms a change set that passes every check, with the named administrative lists replaced, and returns one
that fails to IDLE with the code of its first failing check. A granted CANCEL withdraws an armed change set, its
administrative lists taken back from the operating lists, and leaves any other. The due swap puts the named lists,
the cycle and the epoch into force and starts draining. DRAINING ends once no step of the previous epoch is left, or,
after DRAIN_GC gate cycles, with none of them waiting any more. (R260, R261, R262, R263, R265, R267, R288) -/
def Obligations.ChangeSets : Prop :=
  ∀ (s : State) (m : Master) (v : BitVec 64),
    (s.grants m R.prmFxgCmd 31 [] →
      (s.changeState = 0 → Runs (.fxgApply m v) s (fun t => s.wrote t ∧ t.changeState = 1 ∧ t.fxgCopy = s.copyStage)) ∧
      (s.changeState ≠ 0 → Runs (.fxgApply m v) s (fun t => s.wrote t ∧ t.changeState = s.changeState ∧
        t.fxgCopy = s.fxgCopy ∧ t.fld R.fxgChange 31 [] 15 8 = 1)) ∧
      (s.changeState = 2 → Runs (.fxgCancel m v) s (fun t => s.wrote t ∧ t.changeState = 0 ∧ t.fxgCopy = [] ∧
        t.fld R.fxgChange 31 [] 15 8 = 0x10 ∧
        ∀ c ∈ s.namedClusters, ∀ j < 128, t.reg R.fxgAdminList 31 [c, j] = s.reg R.fxgOperList 31 [c, j])) ∧
      (s.changeState ≠ 2 → Runs (.fxgCancel m v) s (fun t => s.wrote t ∧ t.fxgCopy = s.fxgCopy ∧
        t.reg R.fxgChange 31 [] = s.reg R.fxgChange 31 []))) ∧
    (s.changeState ≠ 1 → exec .fxgValidationDone s = .next s) ∧
    (s.changeState = 1 → s.validate ≠ 0 → Runs .fxgValidationDone s (fun t => s.keeps t ∧ t.changeState = 0 ∧
      t.fld R.fxgChange 31 [] 15 8 = s.validate ∧ t.fxgCopy = [])) ∧
    (s.changeState = 1 → s.validate = 0 → s.lsRefuses = true → Runs .fxgValidationDone s (fun t => s.keeps t ∧
      t.changeState = 0 ∧ t.fxgCopy = [])) ∧
    (s.changeState = 1 → s.validate = 0 → s.lsRefuses = false → Runs .fxgValidationDone s (fun t => s.keeps t ∧
      t.changeState = 2 ∧ t.fxgCopy = s.fxgCopy ∧
      t.swapAt = (if s.fld R.fxgGate 31 [] 0 0 = 0 then (s.staged R.prmFxgStageHdr1 []).toInt else s.nextSwap) ∧
      ∀ c ∈ s.namedClusters, ∀ j < 128, t.reg R.fxgAdminList 31 [c, j] =
        listWord (s.stagedList c).1 (fun i => s.staged R.prmFxgStageList [c, i]) j)) ∧
    (s.swapDue = false → exec .fxgSwap s = .next s) ∧
    (s.swapDue = true → s.held = [] → s.unobserved → Runs .fxgSwap s (fun t =>
      t.mem = s.mem ∧ t.seqs = s.seqs ∧ t.changeState = 3 ∧ t.fxgCopy = [] ∧
      t.fld R.fxgGate 31 [] 0 0 = 1 ∧ t.gateCycle = s.newCycle ∧ t.reg R.fxgGateStart 31 [] = BitVec.ofInt 64 s.swapAt ∧
      t.fld R.fxgEpoch 31 [] 15 0 = getField (s.staged R.prmFxgStageHdr0 []) 15 0 ∧
      t.fld R.fxgEpoch 31 [] 31 16 = s.fld R.fxgEpoch 31 [] 15 0 ∧ t.fld R.fxgEpoch 31 [] 32 32 = 1 ∧
      t.fld R.fxgEpoch 31 [] 47 40 = t.fld R.fxgCfg 31 [] 31 24 ∧
      (∀ c ∈ s.namedClusters, ∀ j < 128, t.reg R.fxgOperList 31 [c, j] = s.reg R.fxgAdminList 31 [c, j]) ∧
      (∀ c < s.numClusters, t.entryOf c = 0))) ∧
    (¬ (s.changeState = 3 ∧ s.prevSteps = false) → exec .fxgDrainEmpty s = .next s) ∧
    (s.changeState = 3 → s.prevSteps = false → Runs .fxgDrainEmpty s (fun t => s.keeps t ∧ t.changeState = 0 ∧
      t.fld R.fxgEpoch 31 [] 32 32 = 0 ∧ t.fld R.fxgEpoch 31 [] 31 0 = s.fld R.fxgEpoch 31 [] 31 0)) ∧
    (s.changeState = 3 → s.fld R.fxgEpoch 31 [] 47 40 = 0 → Runs .fxgDrainTimeout s (fun t =>
      t.changeState = 0 ∧ t.fld R.fxgEpoch 31 [] 32 32 = 0 ∧
      ∀ r ∈ t.steps, r.epoch = s.fld R.fxgEpoch 31 [] 31 16 → r.st ≠ .waiting))

/-- An admission decision leaves no candidate that could still be placed; the only step that waits, if it is eligible
and clusters can take it, is placed on them in rank order with the earliest edge as its deadline. A RADIO step is
placed on LBASE onward where every one of those clusters is in a RADIO entry, free and able to take it. A placed step
starts on a cluster with context 0 running, its next issue in cycle 4, and each context of its mask READY at its
entry with S0 to S3 set. A step whose commit condition holds commits and releases its clusters; a step of one cluster
that misses its deadline is aborted there, releases it and waits again; a faulted step with nothing left in flight
ends and releases its clusters. (R271, R84, R274, R276, R277, R278, R281, R282, R284, R133) -/
def Obligations.StepLife : Prop :=
  ∀ s : State,
    (s.gstopped = true → exec .admissionDecision s = .next s) ∧
    Runs .admissionDecision s (fun t =>
      let el := t.candidates.filter (fun r => !(t.replayHolds r.part))
      t.gstopped = true ∨ t.firstPlaceable el el = none) ∧
    (∀ (r : StepRec) (cs : List Nat), s.steps = [r] → r.st = .waiting → r.radio = false → r.replay = false →
      s.gstopped = false → s.isEligible r = true → s.tenantSet r = some cs →
      Runs .admissionDecision s (fun t => t.mem = s.mem ∧ t.remote = s.remote ∧
        (∃ x, t.steps = [x] ∧ x.id = r.id ∧ x.st = .placed ∧ x.clusters = cs ∧
          x.deadline = some (s.lcOfArt (((cs.map (fun p => s.windowEdge (s.logCluster p))).min?).getD 0))) ∧
        ∀ k p, cs[k]? = some p → (t.seq (.cluster p)).active = true ∧ (t.seq (.cluster p)).rank = k ∧
          (t.seq (.cluster p)).step = r.id ∧ (t.seq (.cluster p)).started = false ∧ (t.seq (.cluster p)).done = false)) ∧
    (∀ r : StepRec, s.steps = [r] → r.st = .waiting → r.radio = true → r.eligible = true → s.drainedOut r = false →
      s.tamperStop = false → s.gstopped = false → s.replayHolds 0 = false →
      let ps := (List.range r.width).filterMap (fun i => s.physCluster (r.lbase + i))
      ps.length = r.width →
      (∀ p ∈ ps, s.clusterFree p = true ∧ s.quarantined.contains (s.logCluster p) = false ∧
        s.typeOf (s.logCluster p) = 0 ∧ s.sliceOk (p / 8) r (s.exactMode r.epoch 0) = true ∧
        s.streamSum (p / 8) + (ps.filter (fun x => x / 8 == p / 8)).length * r.rate ≤ 26) →
      Runs .radioStepPlacement s (fun t => t.mem = s.mem ∧ t.remote = s.remote ∧
        (∃ x, t.steps = [x] ∧ x.id = r.id ∧ x.st = .placed ∧ x.clusters = ps ∧ x.deadline = none) ∧
        ∀ k p, ps[k]? = some p → (t.seq (.cluster p)).active = true ∧ (t.seq (.cluster p)).rank = k ∧
          (t.seq (.cluster p)).radio = true)) ∧
    (∀ (c dt p : Nat) (r : StepRec), s.physCluster c = some p → s.holder p = some r → s.unobserved → s.held = [] →
      let q := s.seq (.cluster p)
      q.active = true → q.started = false → q.stopped = false → q.dbgHalted = false →
      Runs (.stepStart c dt) s (fun t =>
        let q' := t.seq (.cluster p)
        t.mem = s.mem ∧ t.steps = s.steps ∧ q'.started = true ∧ q'.run = some 0 ∧ q'.next = 4 ∧ q'.cyc = 0 ∧
        (q'.ctx 0).st = .running ∧
        (∀ k < 8, bitOf r.ctxMask k = true → (k ≠ 0 → (q'.ctx k).st = .ready) ∧ (q'.ctx k).pc = r.entries.getD k 0 ∧
          (q'.ctx k).s = [(0, BitVec.ofNat 64 q.rank), (1, BitVec.ofNat 64 r.width), (2, BitVec.ofNat 64 r.args),
            (3, BitVec.ofNat 64 k)]) ∧
        ∀ j, j ≠ p → t.seq (.cluster j) = s.seq (.cluster j))) ∧
    (∀ (id : Nat) (r : StepRec), s.stepAt id = some r → s.commitReady r = true → r.replay = false → r.prov = none →
      r.lsSeq = none →
      Runs (.stepCommitDecision id) s (fun t => t.steps = s.steps.filter (fun x => x.id != id) ∧
        ∀ p ∈ r.clusters, (t.seq (.cluster p)).active = false)) ∧
    (∀ (id : Nat) (r : StepRec), s.stepAt id = some r → s.commitReady r = false →
      exec (.stepCommitDecision id) s = .next s) ∧
    (∀ (c p d : Nat) (r : StepRec), s.physCluster c = some p → s.holder p = some r → r.deadline = some d →
      r.clusters = [p] → r.part < 64 → r.st = .placed → s.commitReady r = false → s.epochOk r.epoch = true → s.unobserved →
      (s.seq (.cluster p)).pend = [] → s.held = [] →
      Runs (.abortAtEdge c) s (fun t => t.mem = s.mem ∧ t.lc = max s.lc d ∧ (t.seq (.cluster p)).active = false ∧
        ∃ x, t.stepAt r.id = some x ∧ x.st = .waiting ∧ x.clusters = [] ∧ x.requeued = true ∧ x.deadline = none)) ∧
    (∀ (id : Nat) (r : StepRec), s.stepAt id = some r → r.st ≠ .draining →
      exec (.faultDrainComplete id) s = .next s) ∧
    (∀ (id : Nat) (r : StepRec), s.stepAt id = some r → r.st = .draining → r.replay = false → r.prov = none →
      r.lsSeq = none → (∀ p ∈ r.clusters, (s.seq (.cluster p)).pend = []) → s.stillDraining r = false →
      Runs (.faultDrainComplete id) s (fun t => t.steps = s.steps.filter (fun x => x.id != id) ∧
        ∀ p ∈ r.clusters, (t.seq (.cluster p)).active = false))

/-- A tick of an enabled slot timer moves LC to its instant, advances COUNT, and sends its token to each core of
CORES; a timer that is not enabled does not tick. A granted write of the timer stores it, an enabling one with a
period in range starting it again from count 0, and one out of range leaving it off. A granted GO on a core whose
contexts have ended loads an image that passes the checks, refuses one that does not (STATE 4), arms it for a timer
with MODE 1, and is refused while a load is in progress. The end of the copy starts context 0, the other contexts of
the mask READY, with S0 to S3 set. A granted write of IRS_EQ sets GATE and clears the queue's token count. (R297,
R298, R299, R301, R307, R332, R333) -/
def Obligations.IrisTimers : Prop :=
  ∀ (s : State) (m : Master) (d tm dt c0 : Nat) (v : BitVec 64),
    let i := d % 4
    let x := tm % 8
    let die := 16 + i
    let c := c0 % 48
    let u := SeqUnit.iris (48 * i + c)
    let ns := nextTickNs (s.reg R.irsStimerPhase die [x]).toInt (s.fld R.irsStimerCfg die [x] 23 0)
      (s.stimers.getD (8 * i + x) 0)
    let n := s.fld R.irsStimerCfg die [x] 29 24
    let off := getField v 47 8 * 256
    let ended := (s.seq u).ctxsAll (fun z => z == .idle || z == .halted || z == .faulted)
    (s.fld R.irsStimerCfg die [x] 31 31 = 0 → exec (.slotTimerTick d tm dt) s = .next s) ∧
    (s.fld R.irsStimerCfg die [x] 31 31 = 1 → s.gstopped = false → s.pdOn (33 + 2 * i) = true → s.pdOn (32 + 2 * i) = true →
      s.held = [] → (∀ j < 48, s.imgState i j ≠ 1) → (∀ j < 48, bitOf (s.fld R.irsStimerCores die [x] 47 0) j = (j == c)) →
      (s.seq u).tokens.getD n 0 = 0 → (s.seq u).pend = [] → (s.seq u).waiterOn n = none →
      Runs (.slotTimerTick d tm dt) s (fun t => t.lc = s.lcOfArt ns ∧ t.mem = s.mem ∧ t.stimers.getD (8 * i + x) 0 = ns ∧
        t.reg R.irsStimerCount die [x] = s.reg R.irsStimerCount die [x] + 1 ∧ (t.seq u).tokens.getD n 0 = 1 ∧
        (t.seq u).ctxs = (s.seq u).ctxs ∧ ∀ j < 192, j ≠ 48 * i + c → t.seq (.iris j) = s.seq (.iris j))) ∧
    (s.grants m R.irsStimerCfg die [x] →
      Runs (.stimerCfgWrite m d tm v) s (fun t => s.wrote t ∧
        t.fld R.irsStimerCfg die [x] 23 0 = getField v 23 0 ∧ t.fld R.irsStimerCfg die [x] 29 24 = getField v 29 24 ∧
        (let ok := v.getLsbD 31 = true ∧ 1000 ≤ getField v 23 0 ∧ getField v 23 0 ≤ 10000000 ∧ s.lsState ≠ 1
         (ok → t.fld R.irsStimerCfg die [x] 31 31 = 1 ∧ t.reg R.irsStimerCount die [x] = 0 ∧
           t.stimers.getD (8 * i + x) 0 = s.artNs) ∧
         (¬ ok → t.fld R.irsStimerCfg die [x] 31 31 = 0 ∧ t.stimers = s.stimers)))) ∧
    (s.grants m R.irsCoreImg die [c] → v.getLsbD 52 = true → s.imgState i c = 1 ∨ s.imgState i c = 2 →
      Runs (.irisImageLoad m d c0 v) s (fun t => s.wrote t ∧ t.imgState i c = s.imgState i c ∧
        t.reg R.irsCoreImg die [c] = s.reg R.irsCoreImg die [c])) ∧
    (s.grants m R.irsCoreImg die [c] → v.getLsbD 52 = true → s.imgState i c ≠ 1 → s.imgState i c ≠ 2 →
      s.deadUnits.contains (0x100 + 48 * i + c) = false →
      (v.getLsbD 48 = false → ended = true → s.irisImageBad i off = false →
        Runs (.irisImageLoad m d c0 v) s (fun t => t.ansStatus = stOK ∧ t.mem = s.mem ∧ t.steps = s.steps ∧
          t.imgState i c = 2 ∧ t.imgAt i c = off ∧ (t.seq u).active = false ∧ (t.seq u).run = none ∧
          (t.seq u).codeLen = fieldOf (s.bytes off 256) 0x1C 4 ∧
          (t.seq u).code = s.imageCode off (fieldOf (s.bytes off 256) 0x1C 4) ∧
          (∀ k < 4, ((t.seq u).ctx k).st = .idle) ∧ ∀ j < 192, j ≠ 48 * i + c → t.seq (.iris j) = s.seq (.iris j))) ∧
      (s.irisImageBad i off = true ∨ (v.getLsbD 48 = false ∧ ended = false) →
        Runs (.irisImageLoad m d c0 v) s (fun t => s.wrote t ∧ t.imgState i c = 4)) ∧
      (v.getLsbD 48 = true → s.irisImageBad i off = false →
        Runs (.irisImageLoad m d c0 v) s (fun t => s.wrote t ∧ t.imgState i c = 1 ∧ t.imgAt i c = off))) ∧
    (s.imgState i c ≠ 2 ∨ s.gstopped = true → exec (.irisImageStart d c0) s = .next s) ∧
    (s.imgState i c = 2 → s.gstopped = false → s.held = [] →
      let h := s.bytes (s.imgAt i c) 256
      Runs (.irisImageStart d c0) s (fun t =>
        let q := t.seq u
        t.mem = s.mem ∧ t.steps = s.steps ∧ t.imgState i c = 3 ∧ q.active = true ∧ q.started = true ∧ q.run = some 0 ∧
        q.next = 4 ∧ q.cyc = 0 ∧
        (∀ k < 4, bitOf (fieldOf h 0x12 1) k = true → (q.ctx k).st = (if k = 0 then .running else .ready) ∧
          (q.ctx k).pc = fieldOf h (0x20 + 4 * k) 4 ∧
          (q.ctx k).s = [(0, 0), (1, 1), (2, s.reg R.irsCoreArg die [c]), (3, BitVec.ofNat 64 k)]) ∧
        ∀ j < 192, j ≠ 48 * i + c → t.seq (.iris j) = s.seq (.iris j))) ∧
    (s.grants m R.irsEq die [c0 % 64] →
      Runs (.eqGateWrite m d c0 v) s (fun t => s.wrote t ∧ t.engq i (c0 % 64) =
        { s.engq i (c0 % 64) with gate := v.getLsbD 12, token := 0, sat := (s.engq i (c0 % 64)).sat && !(v.getLsbD 13) }))

/-- The next job of a queue that may start reads its descriptor and starts; one that fails the checks ends with
NO_UNIT. The engine of the queue's kind runs a job of one item: with no word in error it ends with status OK, the
item's writes and the item's time beyond the fixed 32 cycles (an LDPC decode whose HARQ buffer lies in HBM3E takes
110 more); with one in error it ends UNCORRECTABLE and writes nothing. The end of a job stores what the job wrote
and, last, the status word with DONE at its descriptor, no other byte changes, the queue is free, counts one more
job, and its token is on its way. (R306, R307, R309, R310, R311, R313, R315, R318, R319, R322) -/
def Obligations.Engines : Prop :=
  ∀ (s : State) (d q : Nat),
    let i := d % 4
    let n := q % 64
    let e := s.engq i n
    let ready (kind : Nat) : Prop := s.kindOf i n = kind ∧ e.running.isSome = true ∧ e.out = none ∧ s.gstopped = false ∧
      dscCount e.bytes = 1
    let ends (c : Instr) (x : EngItem) (more : Nat) : Prop :=
      ((∀ r ∈ x.reads, s.badIn r.1 r.2 = none) →
        Runs c s (fun t => s.keeps t ∧ t.regs = s.regs ∧ ∃ o, t.engq i n = { e with out := some o } ∧ o.status = stOK ∧
          o.writes = x.writes ∧ o.time = 32 + x.time + more ∧ o.bad = none)) ∧
      ((∃ r ∈ x.reads, s.badIn r.1 r.2 ≠ none) →
        Runs c s (fun t => s.keeps t ∧ t.regs = s.regs ∧ ∃ o, t.engq i n = { e with out := some o } ∧ o.status = stUncorr ∧
          o.writes = []))
    (s.mayStart i n = false → exec (.engineJobStart d q) s = .next s) ∧
    (∀ j rest, e.jobs = j :: rest → s.mayStart i n = true → s.held = [] → s.chipFenced = false →
      s.fenced 1 (0x200 + 64 * i + n) = false → s.badIn j.desc 64 = none →
      Runs (.engineJobStart d q) s (fun t => s.keeps t ∧ t.lc = max s.lc (max j.startLc e.freeLc) ∧
        t.engq i n = { e with
          jobs := rest, running := some j, startLc := t.lc, bytes := s.bytes j.desc 64,
          out := if s.jobOk i n (s.bytes j.desc 64) then none else some { status := stNoUnit },
          token := if e.gate then e.token - 1 else e.token })) ∧
    (ready 1 → ends (.fftJob d q) (s.fftItem e.bytes 0) 0) ∧
    (ready 2 → ends (.ldpcDecodeJob d q) (s.ldpcDecItem e.bytes 0)
      (match usesHarq 2 e.bytes, regionOf (dsc e.bytes 0x38 8) with
        | true, .hbm .. => 110
        | _, _ => 0)) ∧
    (ready 3 → ends (.ldpcEncodeJob d q) (s.ldpcEncItem e.bytes 0) 0) ∧
    (ready 4 → ends (.polarEncodeJob d q) (s.polarEncItem e.bytes 0) 0) ∧
    (ready 5 → ends (.polarDecodeJob d q) (s.polarDecItem e.bytes 0) 0) ∧
    (ready 6 → dsc e.bytes 0x2C 4 = 0xFFFFFFFF → ends (.demapJob d q) (s.demapItem i e.bytes 0) 1) ∧
    (∀ (j : EngJob) (o : EngOut), e.running = some j → e.out = some o → o.bad = none → s.gstopped = false → s.held = [] →
      s.unobserved → s.canonical = true →
      Runs (.engineJobComplete d q) s (fun t =>
        t.lc = max s.lc (e.startLc + o.time) ∧ t.seqs = s.seqs ∧ t.steps = s.steps ∧
        t.num (j.desc + 8) 8 = (o.status + 2 ^ 15 + o.res0 % 65536 * 2 ^ 16 + o.res1 % 2 ^ 32 * 2 ^ 32) % 2 ^ 64 ∧
        (∀ a, (∀ w ∈ o.writes, a < w.1 ∨ w.1 + w.2.length ≤ a) → (a < j.desc + 8 ∨ j.desc + 16 ≤ a) → t.byte a = s.byte a) ∧
        t.engq i n = { e with running := none, out := none, bytes := [], done := satAdd e.done 1 (2 ^ 32 - 1), freeLc := t.lc } ∧
        t.tokens = s.tokens ++ [{ target := j.token, fromUnit := 0x400 + j.core, part := 0, radio := true }]))

/-- An idle receiving end offers a table under a new SEQ and sends LOAD_REQ; the ACK of that SEQ arms the switch
frame, its NACK gives the offer up; 1 ms without an ACK sends LOAD_REQ again, three times. The transmitting end
answers a valid LOAD_REQ of a new SEQ with the ACK of a frame 8 later and holds the table until then, and an invalid
one with NACK. A frame that decodes clears the count of failures, one that does not adds one, and the 16th in a row
sends FALLBACK. A FALLBACK, or 2 ms without a header, returns the transmitter to table 0 from its next frame. Nothing
but the link changes. (R326, R328, R329, R330, R331) -/
def Obligations.Backhaul : Prop :=
  ∀ (s : State) (d : Nat),
    let i := d % 4
    let b := s.bhOf i
    let only (c : Instr) (b' : Bh) : Prop := Runs c s (fun t => t = s.setBh i b')
    (∀ seq at_,
      let tab := s.bytes (irisBase i + at_ % 0x1FFF800) 2048
      (b.st = .idle → 0 < seq → seq ≤ 255 → seq ≠ b.cur → b.released.contains (seq, tab) = false →
        only (.bhOffer d seq at_) { b with st := .offered, seq := seq, table := tab, resends := 0, sentLc := s.lc,
                                           sent := [1, BitVec.ofNat 8 seq] ++ tab ++ leBytes 4 (Config.crc32 tab).toNat }) ∧
      (b.st ≠ .idle ∨ seq = 0 ∨ seq = b.cur → only (.bhOffer d seq at_) b)) ∧
    (∀ seq f,
      (b.st = .offered → b.seq = seq → only (.bhAck d seq f) { b with st := .armed, switch := f % 65536 }) ∧
      (b.st = .offered → b.seq = seq → only (.bhNack d seq)
        { b with st := .idle, seq := 0, table := [], released := (b.seq, b.table) :: b.released }) ∧
      (b.st ≠ .offered ∨ b.seq ≠ seq → exec (.bhAck d seq f) s = .next s ∧ exec (.bhNack d seq) s = .next s)) ∧
    (b.st = .offered → s.lc ≤ b.sentLc + 1000000 →
      Runs (.bhOfferTimeout d) s (fun t => t.lc = b.sentLc + 1000000 ∧ s.keeps t ∧
        t.bhOf i = if b.resends < 3
          then { b with resends := b.resends + 1, sentLc := t.lc,
                        sent := [1, BitVec.ofNat 8 b.seq] ++ b.table ++ leBytes 4 (Config.crc32 b.table).toNat }
          else { b with st := .idle, seq := 0, table := [], released := (b.seq, b.table) :: b.released })) ∧
    (∀ frame msg,
      let sq := fieldOf msg 1 1
      let tab := (msg.drop 2).take 2048
      let f := (frame % 65536 + 8) % 65536
      b.pend = none → sq ≠ 0 → sq ≠ b.txSeq →
      (msg.length = 2054 → fieldOf msg 2050 4 = (Config.crc32 tab).toNat → tableInvalid tab = false →
        only (.bhLoadReq d frame msg) { b with pend := some (sq, f, tab), sent := [2, BitVec.ofNat 8 sq] ++ leBytes 2 f }) ∧
      (fieldOf msg 2050 4 ≠ (Config.crc32 tab).toNat → only (.bhLoadReq d frame msg) { b with sent := [3, BitVec.ofNat 8 sq, 1] }) ∧
      (msg.length = 2054 → fieldOf msg 2050 4 = (Config.crc32 tab).toNat → tableInvalid tab = true →
        only (.bhLoadReq d frame msg) { b with sent := [3, BitVec.ofNat 8 sq, 2] })) ∧
    (∀ h, b.holds (bitsOf h 7 0) = true → b.st = .idle →
      only (.bhFrameReceived d (some h) true) { b with headerLc := s.lc, fails := 0 }) ∧
    (∀ p, b.fails < 15 → only (.bhFrameReceived d none p) { b with fails := b.fails + 1 }) ∧
    (∀ p, b.fails = 15 → b.st = .idle → only (.bhFrameReceived d none p) { b with fails := 0, sent := [4, 0] }) ∧
    (∀ frame, only (.bhFallback d frame)
      { b with txSeq := 0, txFrom := (frame + 1) % 65536, txTable := [], pend := none }) ∧
    (∀ frame, s.lc ≤ b.headerLc + 2000000 → b.st = .idle →
      Runs (.bhHeaderTimeout d frame) s (fun t => t.lc = b.headerLc + 2000000 ∧ s.keeps t ∧
        t.bhOf i = { b with txSeq := 0, txFrom := (frame + 1) % 65536, txTable := [], pend := none }))

/-- A frame longer than FRAME_MAX is dropped and counted at its port; one PRB of a matching flow, in its window and
not yet received, is expanded and written into the record of its symbol, and no other byte changes. A granted move
puts a lane of no enabled port on its spare; an enabled port's lanes come up with training and a lane goes down with
its loss. The header of a record closes it: its 64 bytes are written and its symbol is the last. (R336, R337, R338,
R342, R343, R344, R345, R346, R366) -/
def Obligations.CrocusRx : Prop :=
  ∀ (s : State) (kk : Nat), s.unobserved → s.held = [] →
    let k := kk % 2
    (∀ x fill, s.portUp k x.lane = false → exec (.fronthaulFrameRx kk x fill) s = .next s) ∧
    (∀ x fill, s.portUp k x.lane = true → s.fld R.crkPortCfg (20 + k) [] 37 24 < x.len →
      Runs (.fronthaulFrameRx kk x fill) s (fun t => s.keeps t ∧ t.crkFlows = s.crkFlows ∧
        t.fld R.crkPortCnt (20 + k) [x.lane] 31 0 = satAdd (s.fld R.crkPortCnt (20 + k) [x.lane] 31 0) 1 (2 ^ 32 - 1))) ∧
    (∀ (x : RxFrame) (fill f : Nat) (m : EcpriMsg) (sec : USection) (ex : Nat) (parts : List Int),
      s.portUp k x.lane = true → s.gstopped = false → x.len ≤ s.fld R.crkPortCfg (20 + k) [] 37 24 → x.msgs = [m] →
      s.matchFlow k x = some f → (s.tcAt (R.crkFpol.at (20 + k) [f])).on = false → s.rxRoom k x.len fill = true →
      s.pdOn (41 + 2 * k) = true → s.chipFenced = false → s.canonical = true →
      getField (s.flowReg k f) 3 2 = 0 → m.bad = false → m.secs = [sec] → sec.prbs = [(ex, parts)] → parts.length = 24 →
      compOk (getField (s.flowReg k f) 63 61) sec.meth sec.width = true →
      let n := sectionSymbol (s.flowMu k f) sec s.artNs
      let st := symbolStart (s.flowMu k f) n
      let r := (s.flowOf k f).recOf n
      let a := s.recordAt k f n + 64 + 48 * sec.startPrb
      (s.flowOf k f).passed n = false → st + sext 32 (s.fld R.crkFlowTime (20 + k) [f] 31 0) ≤ s.artNs →
      s.artNs < st + sext 32 (s.fld R.crkFlowTime (20 + k) [f] 63 32) → sec.startPrb < s.flowPrbs k f →
      seqMissing (s.flowOf k f).seqIn m.seqId = 0 → bitOf r.map sec.startPrb = false → s.memUp a = true →
      Runs (.fronthaulFrameRx kk x fill) s (fun t => t.seqs = s.seqs ∧ t.steps = s.steps ∧
        ((t.flowOf k f).recOf n).map = r.map + 2 ^ sec.startPrb ∧
        (∀ j < 24, t.num (a + 2 * j) 2 = wrapInt 16 (expandPart ex (parts.getD j 0)).1) ∧
        (∀ b, (b < a ∨ a + 48 ≤ b) → t.byte b = s.byte b))) ∧
    (∀ (m : Master) (v : BitVec 64), s.grants m R.crkSpareCmd (20 + k) [] → v.getLsbD 8 = true →
      let l := getField v 3 0
      (s.portOf k l = none → Runs (.crkSpareMove m kk v) s (fun t => s.wrote t ∧
        t.fld R.crkLane (20 + k) [l] 4 0 = (if v.getLsbD 4 then 17 else 16) ∧
        t.fld R.crkLane (20 + k) [l] 5 5 = s.fld R.crkLane (20 + k) [l] 5 5)) ∧
      (∀ p, s.portOf k l = some p → s.portOn k p = false → Runs (.crkSpareMove m kk v) s (fun t => s.wrote t ∧
        t.fld R.crkLane (20 + k) [l] 4 0 = (if v.getLsbD 4 then 17 else 16))) ∧
      (∀ p, s.portOf k l = some p → s.portOn k p = true → Runs (.crkSpareMove m kk v) s (fun t => s.wrote t ∧
        t.fld R.crkLane (20 + k) [l] 4 0 = s.fld R.crkLane (20 + k) [l] 4 0))) ∧
    (∀ ll, let l := ll % 16
      (s.portOn k l = true → s.pdOn (40 + 2 * k) = true → Runs (.portTrained kk ll) s (fun t => s.keeps t ∧
        ∀ i < portLanes (s.quadMode k l), t.fld R.crkLane (20 + k) [l + i] 5 5 = 1)) ∧
      (s.portOn k l = false → exec (.portTrained kk ll) s = .next s) ∧
      (s.fld R.crkLane (20 + k) [l] 5 5 = 1 → Runs (.fronthaulLaneLoss kk ll) s (fun t => s.keeps t ∧
        t.fld R.crkLane (20 + k) [l] 5 5 = 0 ∧
        ∀ j < 16, j ≠ l → t.fld R.crkLane (20 + k) [j] 5 5 = s.fld R.crkLane (20 + k) [j] 5 5))) ∧
    (∀ ff n, let f := ff % 4096
      let w := s.flowReg k f
      let a := s.recordAt k f n
      w.getLsbD 0 = true → w.getLsbD 1 = false → getField w 3 2 = 0 → (s.flowOf k f).passed n = false →
      s.pdOn (41 + 2 * k) = true → s.memUp a = true → s.chipFenced = false → s.canonical = true →
      Runs (.uplinkHeaderWrite kk ff n) s (fun t => t.seqs = s.seqs ∧ t.steps = s.steps ∧ (t.flowOf k f).last = some n ∧
        t.lc = s.lcOfArt (symbolStart (s.flowMu k f) n + sext 32 (s.fld R.crkFlowTime (20 + k) [f] 63 32)) ∧
        (∀ i < 64, t.byte (a + i) = (recordHeader ((s.flowOf k f).recOf n)).getD i 0) ∧
        (∀ b, (b < a ∨ a + 64 ≤ b) → t.byte b = s.byte b)))

/-- A downlink or C-plane record that names its symbol is read and becomes a frame of queue 1 or 0 with the flow's
next seqId; one that names another counts SRC_LATE and sends nothing. The oldest waiting frame of a port joins its
queue unless it is longer than every open interval. A free port whose gates do not act sends the head of queue 0
first and is busy for the frame's time. A granted GO arms a list that passes its checks for its first boundary 2 µs
away, and shows ERR for one that does not; an armed list takes effect with its cycle and base. EN takes effect with
the write that sets it. (R347, R348, R385, R386, R387, R388, R389) -/
def Obligations.CrocusTx : Prop :=
  ∀ (s : State) (kk : Nat), s.unobserved → s.held = [] →
    let k := kk % 2
    (∀ ff n, let f := ff % 4096
      let w := s.flowReg k f
      let a := s.recordAt k f n
      let sending (mode : Nat) : Prop := w.getLsbD 0 = true ∧ w.getLsbD 1 = true ∧ getField w 3 2 = mode ∧
        (s.flowOf k f).passed n = false ∧ s.pdOn (41 + 2 * k) = true
      let late (t : State) : Prop := s.keeps t ∧ (t.flowOf k f).last = some n ∧ t.crkWait = s.crkWait ∧
        t.fld R.crkFlowCnt (20 + k) [f] 47 32 = satAdd (s.fld R.crkFlowCnt (20 + k) [f] 47 32) 1 65535
      let sent (x : TxFrame) (t : State) : Prop := s.keeps t ∧ (t.flowOf k f).last = some n ∧
        t.crkWait.getD k [] = s.crkWait.getD k [] ++ [{ x with lane := getField w 7 4, flow := some f, seq := (s.flowOf k f).seqOut }] ∧
        (t.flowOf k f).seqOut = ((s.flowOf k f).seqOut + 1) % 256
      (sending 0 → s.num a 8 ≠ n → Runs (.downlinkRecordSend kk ff n) s late) ∧
      (sending 2 → s.num a 8 ≠ n → Runs (.cplaneRecordSend kk ff n) s late) ∧
      (∀ run, sending 0 → s.num a 8 = n → s.memUp a = true → s.badIn a (recordSize w) = none → getField w 63 61 ≤ 3 →
        prbRuns (s.num (a + 8) 36) (s.flowPrbs k f) 0 none = [run] →
        let len := ecpriLen w (12 + run.2 * prbBytes (getField w 63 61) 0)
        s.txFill k + len ≤ s.txShare k →
        Runs (.downlinkRecordSend kk ff n) s
          (sent { lane := 0, queue := 1, len := len, secs := [s.txSection (getField w 63 61) a (s.num (a + 0x2C) 2) run] })) ∧
      (sending 2 → s.num a 8 = n → s.memUp a = true → 4 ≤ s.num (a + 8) 2 → s.num (a + 8) 2 ≤ 1000 → s.badIn a 1024 = none →
        let len := ecpriLen w (s.num (a + 8) 2)
        s.txFill k + len ≤ s.txShare k →
        Runs (.cplaneRecordSend kk ff n) s
          (sent { lane := 0, queue := 0, len := len, raw := s.bytes (a + 16) (s.num (a + 8) 2) }))) ∧
    (∀ ll, let l := ll % 16
      let p := s.port k l
      (∀ x, (s.crkWait.getD k []).find? (fun y => y.lane == l) = some x →
        (s.oversize k l x.queue x.len = false → Runs (.egressFrameEnqueue kk ll) s (fun t => s.keeps t ∧
          t.crkWait.getD k [] = (s.crkWait.getD k []).erase x ∧
          t.port k l = { p with queues := p.queues.put x.queue (p.queues.getD x.queue [] ++ [x]) })) ∧
        (s.oversize k l x.queue x.len = true → Runs (.egressFrameEnqueue kk ll) s (fun t => s.keeps t ∧
          t.crkWait.getD k [] = (s.crkWait.getD k []).erase x ∧ t.port k l = p ∧
          t.fld R.crkGateCnt (20 + k) [l] 31 0 = satAdd (s.fld R.crkGateCnt (20 + k) [l] 31 0) 1 (2 ^ 32 - 1)))) ∧
      (s.portUp k l = false → exec (.egressFrameStart kk ll) s = .next s) ∧
      (∀ x rest, s.portUp k l = true → s.gstopped = false → s.gatesOn k l = false → p.queues.getD 0 [] = x :: rest → x.ts = 0 →
        Runs (.egressFrameStart kk ll) s (fun t => s.keeps t ∧ t.lc = max s.lc (p.busy / 200) ∧
          t.port k l = { p with queues := p.queues.put 0 rest, sent := some x,
                                busy := max (t.lc * 200) p.busy + s.frameTime k l x.len })) ∧
      (∀ (m : Master) (v : BitVec 64), s.grants m R.crkGateCfg (20 + k) [l] →
        let armed := s.fld R.crkGateCfg (20 + k) [l] 25 25
        let cyc := getField v 23 0
        (armed = 0 → s.gateBad k l cyc = false → Runs (.gateListGo m kk ll v) s (fun t => s.wrote t ∧
          t.fld R.crkGateCfg (20 + k) [l] 23 0 = cyc ∧ t.fld R.crkGateCfg (20 + k) [l] 26 25 = 1 ∧
          (t.port k l).swapAt = some (firstBoundary (s.reg R.crkGateBase (20 + k) [l]).toInt cyc (s.artNs + 2000)))) ∧
        (armed = 0 → s.gateBad k l cyc = true → Runs (.gateListGo m kk ll v) s (fun t => s.wrote t ∧
          t.fld R.crkGateCfg (20 + k) [l] 26 25 = 2 ∧ t.crkPorts = s.crkPorts)) ∧
        Runs (.gateEnWrite m kk ll v) s (fun t => s.wrote t ∧ t.crkPorts = s.crkPorts ∧
          t.fld R.crkGateCfg (20 + k) [l] 24 24 = getField v 24 24 ∧ t.fld R.crkGateCfg (20 + k) [l] 25 25 = armed ∧
          t.fld R.crkGateCfg (20 + k) [l] 23 0 = (if armed = 1 then s.fld R.crkGateCfg (20 + k) [l] 23 0 else cyc))) ∧
      (p.swapAt = none → exec (.gateListSwitch kk ll) s = .next s) ∧
      (∀ g, p.swapAt = some g → Runs (.gateListSwitch kk ll) s (fun t => s.keeps t ∧ t.lc = s.lcOfArt g ∧
        (t.port k l).live = true ∧ (t.port k l).swapAt = none ∧
        (t.port k l).cycle = s.fld R.crkGateCfg (20 + k) [l] 23 0 ∧
        (t.port k l).base = (s.reg R.crkGateBase (20 + k) [l]).toInt ∧ t.fld R.crkGateCfg (20 + k) [l] 25 25 = 0 ∧
        ∀ j < 32, t.reg R.crkGateOper (20 + k) [l, j] = s.reg R.crkGateAdmin (20 + k) [l, j])))

/-- A granted enabling write that passes the checks enables the path afresh; one that does not stores EN 0. The only
transmit path of a flow sends a block. A symbol's mark is written to its place and is the last. A period with samples
sets G by the loop while nothing freezes the path, leaves G while it is frozen without clipping, and one that begins
a burst freezes the next. A freeze entry sets FROZEN at its start; a preamble freezes from the next period; a written
entry word is stored, its END counted STALE where it has passed. A master path's control word is put in line and
shows its corrections. An estimate moves the correction words within their limits. (R353, R354, R355, R357, R358,
R359, R361, R362, R363, R364, R366) -/
def Obligations.CrocusPaths : Prop :=
  ∀ (s : State) (kk pp : Nat), s.unobserved → s.held = [] →
    let k := kk % 2
    let p := pp % 1024
    let w := s.pathReg k p
    let x := s.path k p
    let f := getField w 11 0
    let live : Prop := p < 512 ∧ w.getLsbD 12 = true ∧ s.pdOn (41 + 2 * k) = true
    (∀ (m : Master) (v : BitVec 64) (units : Nat), s.grants m R.crkPathCfg (20 + k) [p] →
      let u := if units = 2 then 2 else if units = 4 then 4 else 1
      let w' := R.crkPathCfg.written w v (partMask 0 8) false false
      (v.getLsbD 12 = true → s.pathBad k p u w' = false → w.getLsbD 12 = false →
        Runs (.crkPathEnable m kk pp units v) s (fun t => s.wrote t ∧ t.pathReg k p = w' ∧ t.path k p = { units := u })) ∧
      (v.getLsbD 12 = true → s.pathBad k p u w' = true →
        Runs (.crkPathEnable m kk pp units v) s (fun t => s.wrote t ∧ (t.pathReg k p).getLsbD 12 = false ∧ t.crkPaths = s.crkPaths)) ∧
      (v.getLsbD 12 = false →
        Runs (.crkPathEnable m kk pp units v) s (fun t => s.wrote t ∧ t.pathReg k p = w' ∧ t.crkPaths = s.crkPaths))) ∧
    (∀ rate sat, 512 ≤ p → w.getLsbD 12 = true → s.pdOn (41 + 2 * k) = true → x.blocks = (s.flowOf k f).blocks →
      (s.flowReg k f).getLsbD 0 = true → getField (s.flowReg k f) 3 2 = 1 → s.pathsOf k f true = [p] →
      Runs (.txPathBlock kk pp rate sat) s (fun t => s.keeps t ∧ t.path k p = { x with blocks := x.blocks + 1 } ∧
        (t.flowOf k f).blocks = (s.flowOf k f).blocks + 1 ∧
        t.fld R.crkPathAgc (20 + k) [p] 47 35 = satAdd (s.fld R.crkPathAgc (20 + k) [p] 47 35) sat 8191 ∧
        ∃ fr, t.crkWait.getD k [] = s.crkWait.getD k [] ++ [fr] ∧ fr.queue = 1 ∧ fr.flow = some f ∧
          fr.lane = getField (s.flowReg k f) 7 4 ∧ fr.seq = (s.flowOf k f).seqOut)) ∧
    (∀ n, live → (∀ y, x.mark = some y → y < n) → s.chipFenced = false → s.canonical = true →
      let win := s.reg R.crkPathMwin (20 + k) [p]
      let a := irisBase (getField (s.flowReg k f) 51 50) + getField win 24 0 + n % max 1 (getField win 43 25) * 64
      s.memUp a = true →
      Runs (.symbolMarkWrite kk pp n) s (fun t => t.seqs = s.seqs ∧ t.steps = s.steps ∧ (t.path k p).mark = some n ∧
        t.fld R.crkPathAgc (20 + k) [p] 47 35 = 0 ∧ t.pathG k p = s.pathG k p ∧
        (∀ i < 64, t.byte (a + i) = (symbolMark n x).getD i 0) ∧ (∀ b, (b < a ∨ a + 64 ≤ b) → t.byte b = s.byte b))) ∧
    (∀ level clips, live →
      let per := s.artNs / 1000
      (∀ y, level = some y → s.frozen k p = 0 → x.lastP = none →
        Runs (.agcPeriodEnd kk pp level clips) s (fun t => s.keeps t ∧ t.lc = s.lcOfArt ((per + 1) * 1000) ∧
          t.fld R.crkPathAgc (20 + k) [p] 15 0 = wrapInt 16 (s.nextGain k (s.pathG k p) y clips) ∧
          t.fld R.crkPathAgc (20 + k) [p] 31 16 = wrapInt 16 y ∧ (t.path k p).lastP = some (per, y))) ∧
      (s.frozen k p ≠ 0 → clips ≤ s.agc k 43 36 →
        Runs (.agcPeriodEnd kk pp level clips) s (fun t => s.keeps t ∧
          t.fld R.crkPathAgc (20 + k) [p] 15 0 = s.fld R.crkPathAgc (20 + k) [p] 15 0)) ∧
      (∀ y b, level = some y → x.lastP = some (per - 1, b) → x.burst = none → (s.agc k 51 44 : Int) ≤ y - b → -960 ≤ y →
        Runs (.agcPeriodEnd kk pp level clips) s (fun t => s.keeps t ∧ (t.path k p).burst.isSome = true ∧
          bitOf (t.frozen k p) 1 = true))) ∧
    (∀ e,
      let from_ := ((s.reg R.crkFrz (20 + k) [p, 2 * (e % 16)]).toInt - 1000 + 999) / 1000 * 1000
      live → s.scheduled k p from_ = true →
      Runs (.freezeEntryStart kk pp e) s (fun t => s.keeps t ∧ t.lc = s.lcOfArt from_ ∧
        (t.scheduled k p t.artNs = true → bitOf (t.frozen k p) 0 = true))) ∧
    (p < 512 → w.getLsbD 12 = true → w.getLsbD 22 = true → x.pre = none →
      Runs (.preambleDetect kk pp) s (fun t => t = s.setPath k p { x with preNext := true })) ∧
    (∀ (m : Master) (j : Nat) (v : BitVec 64), s.grants m R.crkFrz (20 + k) [pp % 512, j % 32] →
      Runs (.crkFrzWrite m kk pp j v) s (fun t => s.wrote t ∧ t.reg R.crkFrz (20 + k) [pp % 512, j % 32] = v ∧
        (j % 2 = 1 → (s.reg R.crkFrz (20 + k) [pp % 512, j % 32 - 1]).toInt < v.toInt → v.toInt < s.artNs →
          t.fld R.crkPathAgc (20 + k) [pp % 512] 63 48 = satAdd (s.fld R.crkPathAgc (20 + k) [pp % 512] 63 48) 1 65535))) ∧
    (∀ n, live → w.getLsbD 21 = true → (∀ y ∈ s.pathsOf k f false, s.frozen k y = 0) →
      s.artNs + 20000 ≤ symbolStart (s.flowMu k f) n →
      Runs (.gainControlWordSend kk pp n) s (fun t => s.keeps t ∧
        (∃ g word, g ≤ 63 ∧ (g : Int) = max 0 (min ((s.pathG k p - sext 12 (s.fld R.crkPathNco (20 + k) [p] 43 32)) / 8) 63) ∧
          bitsOf word 71 64 = g ∧ bitsOf word 91 72 = wrapInt 20 x.fcorr ∧ bitsOf word 103 92 = wrapInt 12 x.tcorr ∧
          (t.path k p).word = some word ∧
          t.crkWords.getD k [] = s.crkWords.getD k [] ++
            [(getField (s.flowReg k f) 44 36, getField (s.flowReg k f) 49 45, word)]) ∧
        t.fld R.crkPathOfs (20 + k) [p] 19 0 = wrapInt 20 x.fcorr ∧ t.fld R.crkPathOfs (20 + k) [p] 31 20 = wrapInt 12 x.tcorr)) ∧
    (∀ est, live →
      let ext := s.reg R.crkPathExt (20 + k) [p]
      let fo := if s.fld R.crkPathOfs (20 + k) [p] 38 38 = 1 then sext 32 (getField ext 31 0) else est
      let tau := sext 16 (getField ext 47 32)
      let rf := getField w 49 24
      Runs (.offsetEstimate kk pp est) s (fun t => s.keeps t ∧ (t.path k p).est = fo ∧ (t.path k p).tau = tau ∧
        -524287 ≤ (t.path k p).fcorr ∧ (t.path k p).fcorr ≤ 524287 ∧
        (fo < 1280 → -1280 < fo → (t.path k p).fcorr = max (-524287) (min x.fcorr 524287)) ∧
        (rf ≠ 0 → (1280 ≤ fo ∨ fo ≤ -1280) → (t.path k p).fcorr =
          max (-524287) (min (x.fcorr + max (-3200) (min (roundAway (-fo * 250000) rf) 3200)) 524287)) ∧
        (t.path k p).tcorr = max (-2048) (min (if tau < 32 ∧ -32 < tau then x.tcorr else x.tcorr + roundAway tau 4) 2047) ∧
        (t.path k p).shift = max (-64) (min (roundAway tau 64) 64)))

/-- A TC tick moves LC to the next multiple of 250 and, where no unit is held red, grows each bucket by its rate up
to its size; a slot expiry brings the tick in which a shaped head becomes eligible. A fetch pass over rings that may
not be fetched changes nothing; over one ring whose head passes its checks and its meter is off, it appends one
command and advances the head; where the checks fail, the status is in the completion entry and no command is left. A
doorbell of a ring's function moves its pointers, one out of range none, and another function's none. Enabling a ring
starts it afresh; one that is enabled keeps CLASS and PARTITION. The two stamp registers stamp an open slot and no
other byte; 1 ms frees an unstamped slot. Enabling an event ring starts it afresh; HEAD is stored, and LOST cleared
where a record is free. The mailbox bits are set and cleared by their sides. (R369, R374, R380, R381, R383, R384,
R486, R487, R494, R497, R499, R501) -/
def Obligations.RingsAndEvents : Prop :=
  ∀ (s : State) (m : Master) (fn r : Nat) (v : BitVec 64),
    let g := s.ring r
    let n := s.cqSlots r
    let freed := (getField v 31 16 + n - g.cqHead) % n
    let badDb := (v.getLsbD 32 = true ∧ s.sqSlots r ≤ getField v 15 0) ∨
      (v.getLsbD 33 = true ∧ (n ≤ getField v 31 16 ∨ (g.slots.filter (fun c => !c.passed)).length < freed))
    let cq := s.fld R.prmRingCq 31 [r] 63 6 * 64
    Runs .tcTick s (fun t => t.lc = (s.lc / 250 + 1) * 250 ∧ s.keeps t ∧
      (s.held = [] → ∀ k x, s.tc.find k = some x → x.dirty = false → x.on = true →
        t.tc.find k = some { x with b1 := min (x.cap1 : Int) (x.b1 + x.rate1), b2 := min (x.cap2 : Int) (x.b2 + x.rate2) })) ∧
    (s.shapeOk (ringShaper r) (s.headCost r) = true → exec (.calendarSlotExpiry r) s = .next s) ∧
    (s.shapeOk (ringShaper r) (s.headCost r) = false → s.held = [] → (s.tcAt (ringShaper r)).dirty = false →
      0 < (s.tcAt (ringShaper r)).rate1 →
      Runs (.calendarSlotExpiry r) s (fun t => s.lc < t.lc ∧ t.lc = 250 * s.shapeTick (ringShaper r) (s.headCost r) ∧
        s.keeps t ∧ t.shapeOk (ringShaper r) (s.headCost r) = true)) ∧
    ((∀ e ∈ s.rings, s.mayFetch e.1 = false) → exec .ringFetch s = .next s) ∧
    (r < 32768 → s.rings = [(r, g)] → s.mayFetch r = true → s.admissionFull = false → s.held = [] →
      (s.verdict r (s.headBytes r) = stOK → bitOf (fieldOf (s.headBytes r) 1 1) 0 = false →
        (s.tcAt (s.ringMeter r)).on = false → s.inLockstep r = false →
        Runs .ringFetch s (fun t => s.keeps t ∧ t.host = s.host ∧ (t.ring r).sqHead = (g.sqHead + 1) % s.sqSlots r ∧
          t.cmds = s.cmds ++ [{
            id := s.nextCmd, ring := r, part := s.ringPart r, bytes := s.headBytes r
            sqHead := (g.sqHead + 1) % s.sqSlots r, yellow := false, lc := s.lc, cost := s.cmdCost (s.headBytes r) }])) ∧
      (s.verdict r (s.headBytes r) ≠ stOK → (∀ c ∈ s.cmds, c.id ≠ s.nextCmd) → s.canonical = true →
        Runs .ringFetch s (fun t => s.keeps t ∧ t.cmds = s.cmds ∧ (t.ring r).sqHead = (g.sqHead + 1) % s.sqSlots r ∧
          t.hostNum (cq + 64 * g.cqTail) 1 = s.verdict r (s.headBytes r)))) ∧
    (s.fnPresent fn = true → s.chipFenced = false → r < 32768 →
      (s.ringPart r = fn → ¬ badDb →
        Runs (.doorbell fn r v) s (fun t => s.wrote t ∧ (∀ j, j ≠ r → t.rings.find j = s.rings.find j) ∧
          (t.ring r).sqTail = (if v.getLsbD 32 then getField v 15 0 else g.sqTail) ∧
          (t.ring r).cqHead = (if v.getLsbD 33 then getField v 31 16 else g.cqHead) ∧
          (t.ring r).sqHead = g.sqHead ∧ (t.ring r).cqTail = g.cqTail)) ∧
      (s.ringPart r ≠ fn ∨ badDb → Runs (.doorbell fn r v) s (fun t => s.wrote t ∧ t.rings = s.rings))) ∧
    (s.grants m R.prmRingCfg 31 [r] → r < 32768 →
      (s.ringOn r = false → (∀ c ∈ s.cmds, c.ring ≠ r) →
        Runs (.ringEnable m r v) s (fun t => s.wrote t ∧ t.ringOn r = true ∧ t.ringPart r = getField v 13 8 ∧
          t.fld R.prmRingCfg 31 [r] 2 1 = getField v 2 1 ∧
          t.ring r = { g with sqTail := 0, cqHead := 0, sqHead := 0, cqTail := 0, phase := true, slots := [] })) ∧
      (s.ringOn r = true → getField v 13 8 ≠ s.ringPart r ∨ getField v 2 1 ≠ s.fld R.prmRingCfg 31 [r] 2 1 →
        Runs (.ringEnable m r v) s (fun t => s.wrote t ∧ t.rings = s.rings ∧
          t.reg R.prmRingCfg 31 [r] = s.reg R.prmRingCfg 31 [r]))) ∧
    (s.grants m R.prmCqStamp 31 [] →
      Runs (.cqStampWrite m v) s (fun t => s.wrote t ∧ t.stampSel = some v ∧ t.rings = s.rings ∧ t.regs = s.regs)) ∧
    (s.grants m R.prmCqTdone 31 [] →
      (s.stampSel = none → Runs (.cqTdoneWrite m v) s (fun t => s.wrote t ∧ t.rings = s.rings)) ∧
      (∀ (w : BitVec 64) (slot : Nat) (c : CqSlot), s.stampSel = some w → getField w 14 0 = r → getField w 30 15 = slot →
        c ∈ g.slots → c.slot = slot → c.step = true → c.stamped = false → s.lc < c.lc + 1000000 → s.canonical = true →
        Runs (.cqTdoneWrite m v) s (fun t => s.wrote t ∧ t.stampSel = none ∧
          t.hostNum (cq + 64 * slot + 0x20) 8 = getField v 62 0 + 2 ^ 63 ∧
          t.hostNum (cq + 64 * slot + 0x28) 4 = getField w 62 31 ∧
          (∀ a, (a < cq + 64 * slot + 0x20 ∨ cq + 64 * slot + 0x2C ≤ a) → t.host.getD a 0 = s.host.getD a 0) ∧
          ∀ x ∈ (t.ring r).slots, x.slot = slot → x.stamped = true))) ∧
    (∀ (slot : Nat) (c : CqSlot), g.slots.find? (fun c => c.slot == slot && c.step && !c.stamped) = some c →
      Runs (.cqStampTimeout r slot) s (fun t => s.keeps t ∧ t.lc = max s.lc (c.lc + 1000000) ∧
        ∀ x ∈ (t.ring r).slots, x.released t.lc = false)) ∧
    (s.fnPresent fn = true →
      (s.fld R.prmEvtCfg fn [] 15 15 = 0 →
        Runs (.evtRingEnable fn v) s (fun t => s.wrote t ∧ t.fld R.prmEvtCfg fn [] 15 15 = 1 ∧
          t.fld R.prmEvtCfg fn [] 14 4 = getField v 14 4 ∧
          t.fld R.prmEvtCfg fn [] 3 0 = max 6 (getField v 3 0) ∧ t.reg R.prmEvtStat fn [] = 0 ∧
          t.reg R.prmEvtHead fn [] = 0 ∧ t.evt.find fn = some {})) ∧
      Runs (.evtHeadWrite fn v) s (fun t => s.wrote t ∧ t.fld R.prmEvtHead fn [] 15 0 = getField v 15 0 ∧
        (let size := 2 ^ s.fld R.prmEvtCfg fn [] 3 0
         let free := (getField v 15 0 + size - s.fld R.prmEvtStat fn [] 15 0 - 1) % size
         (s.fld R.prmEvtCfg fn [] 15 15 = 1 → free ≠ 0 → t.fld R.prmEvtStat fn [] 47 16 = 0) ∧
         (free = 0 → t.host = s.host ∧ t.reg R.prmEvtStat fn [] = s.reg R.prmEvtStat fn []))) ∧
      Runs (.mbH2fSend fn) s (fun t => s.wrote t ∧ t.fld R.prmMbCtrl fn [] 0 0 = 1 ∧
        t.fld R.prmMbCtrl fn [] 12 1 = s.fld R.prmMbCtrl fn [] 12 1) ∧
      Runs (.mbF2hClear fn) s (fun t => s.wrote t ∧ t.fld R.prmMbCtrl fn [] 1 1 = 0 ∧
        t.fld R.prmMbCtrl fn [] 0 0 = s.fld R.prmMbCtrl fn [] 0 0 ∧
        t.fld R.prmMbCtrl fn [] 12 2 = s.fld R.prmMbCtrl fn [] 12 2)) ∧
    (∀ words : List (BitVec 64), fn < 64 →
      Runs (.mbF2hReply fn words) s (fun t => s.keeps t ∧ t.fld R.prmMbCtrl fn [] 1 0 = 2 ∧
        (∀ i w, i < 32 → words[i]? = some w → t.reg R.prmMbF2h fn [i] = w) ∧
        (s.fld R.msixTable fn [2 * s.fld R.prmMbCtrl fn [] 12 2 + 1] 32 32 = 0 →
          t.msix = s.msix ++ [(fn, s.fld R.prmMbCtrl fn [] 12 2)])))

/-- The oldest STEP of a ring not yet passed on becomes a waiting step with what its command and image header give.
The oldest other command of a ring starts when it is a COPY in the named direction, or a WSET. A COPY completes: one
whose ranges are good moves its bytes, none other in the destination memory, and reports OK; one whose device range
fails moves nothing and reports that status. A FABRIC command of each OP issues one remote operation on its address
with its ring as issuer, and while the fabric is not up completes with NO_UNIT; a PUT that reads an uncorrectable
word completes UNCORRECTABLE with no operation. The end of a WSET's hashing gives the entry to the partition with its
digest, or reports UNCORRECTABLE. A FRAME puts its bytes among its port's frames and reports OK. Each completion
drops the command and writes its status and CMD_ID to the completion entry. (R393, R394, R399, R466, R485, R490,
R491, R492, R493) -/
def Obligations.HostCommands : Prop :=
  ∀ (s : State) (r : Nat) (c : Cmd), s.canonical = true →
    let entry := s.fld R.prmRingCq 31 [r] 63 6 * 64 + 64 * (s.ring r).cqTail
    let ends (t : State) (code : Nat) : Prop := t.cmds = s.cmds.filter (fun x => x.id != c.id) ∧
      t.hostNum entry 1 = code ∧ t.hostNum (entry + 8) 4 = c.field 8 4
    let clear (a n : Nat) : Prop := c.field 0x10 8 = 0 ∧ (a + n ≤ entry ∨ entry + 64 ≤ a)
    let begun := s.cmds.map (fun (x : Cmd) => if x.id = c.id then { x with started := true } else x)
    let host := c.field 0x18 8
    let dev := c.field 0x20 8
    let n := c.field 0x28 4
    (s.ringCmd r (fun x => !x.started && x.field 0 1 == 1) = some c →
      let h := s.bytes (c.field 0x18 8) 256
      Runs (.cmdStep r) s (fun t => t.cmds = begun ∧ t.mem = s.mem ∧ t.host = s.host ∧ t.nextStep = s.nextStep + 1 ∧
        ∃ x, t.steps = s.steps ++ [x] ∧ x.id = s.nextStep ∧ x.st = .waiting ∧ x.cmd = some c.id ∧ x.part = c.part ∧
          x.cmdId = c.field 8 4 ∧ x.cls = c.field 2 1 ∧ x.epoch = c.field 4 2 ∧ x.lbase = c.field 6 2 ∧
          x.image = c.field 0x18 8 ∧ x.args = c.field 0x20 8 ∧ x.publish = c.field 0x28 4 ∧
          x.radio = bitOf (c.field 1 1) 0 ∧ x.eligible = !(bitOf (c.field 1 1) 1) ∧
          x.prov = (if bitOf (c.field 1 1) 1 then some (c.field 0x30 8) else none) ∧ x.clusters = [] ∧
          x.width = fieldOf h 0x10 2 ∧ x.rate = fieldOf h 0x13 1 ∧ x.declared = fieldOf h 8 8 ∧
          x.ctxMask = fieldOf h 0x12 1 ∧ x.codeLen = fieldOf h 0x1C 4)) ∧
    (s.nextOther r = some c → c.field 0 1 = 2 → c.field 0x2C 1 = 0 →
      Runs (.cmdCopyH2d r) s (fun t => t = { s with cmds := begun })) ∧
    (s.nextOther r = some c → c.field 0 1 = 2 → c.field 0x2C 1 = 1 →
      Runs (.cmdCopyD2h r) s (fun t => t = { s with cmds := begun })) ∧
    (s.openCopy r = some c → s.exactHeld 0 dev n = false → s.gstopped = false → s.unobserved →
      (c.field 0x2C 1 = 0 → s.memWriteStatus c.part dev n = stOK →
        Runs (.copyComplete r) s (fun t => ends t stOK ∧ t.steps = s.steps ∧
          (∀ i < n, t.byte (dev + i) = s.host.getD (host + i) 0) ∧
          ∀ a, (a < dev ∨ dev + n ≤ a) → t.byte a = s.byte a)) ∧
      (c.field 0x2C 1 = 0 → s.memWriteStatus c.part dev n ≠ stOK →
        Runs (.copyComplete r) s (fun t => ends t (s.memWriteStatus c.part dev n) ∧ s.keeps t)) ∧
      (c.field 0x2C 1 = 1 → s.memStatus c.part dev n = stOK →
        Runs (.copyComplete r) s (fun t => ends t stOK ∧ s.keeps t ∧
          (clear host n → ∀ i < n, t.host.getD (host + i) 0 = s.byte (dev + i)))) ∧
      (c.field 0x2C 1 = 1 → s.memStatus c.part dev n ≠ stOK →
        Runs (.copyComplete r) s (fun t => ends t (s.memStatus c.part dev n) ∧ s.keeps t))) ∧
    (∀ e ∈ [(Instr.cmdFabricRld r, 8, RemoteKind.rld), (.cmdFabricRst r, 9, .rst), (.cmdFabricRat r, 10, .rat),
        (.cmdFabricPut r, 11, .put), (.cmdFabricGet r, 12, .get)],
      let to_ := c.field 0x18 8 / 2 ^ 48
      let addr := c.field 0x18 8 % 2 ^ 48
      let dst := if to_ = 0xFFFF then s.nodeId else to_
      let route := s.routeOf dst
      let die := if dst = s.nodeId then homeDie addr else 22 + bitsOf route 1 0
      s.nextOther r = some c → c.field 0 1 = 3 → c.field 0x3C 1 = e.2.1 → (∀ o ∈ s.remote, o.id ≠ s.nextOp) →
      ((e.2.1 = 11 → s.badIn (c.field 0x20 8) (c.field 0x38 4) = none) → s.fabricUp = true → s.pdOn (44 + (die - 22)) = true →
        s.chipFenced = false → s.fenced 0 (1056 + r % 32) = false →
        (dst ≠ s.nodeId → bitOf route 15 = true ∧ s.peerDown dst = false) →
        Runs e.1 s (fun t => t.cmds = begun ∧ t.steps = s.steps ∧ (s.unobserved → t.mem = s.mem) ∧
          ∃ o, t.remote = s.remote ++ [o] ∧ o.id = s.nextOp ∧ o.issuer = .ring r c.id ∧ o.kind = e.2.2 ∧ o.dst = dst ∧
            o.addr = addr ∧ o.part = c.part ∧ o.t0 = s.lc ∧ o.status = none ∧ o.local_ = (dst == s.nodeId) ∧
            o.operand = c.field 0x28 8 ∧ o.cmp = c.field 0x30 8 ∧ o.loc = c.field 0x20 8 ∧
            o.size = (if e.2.1 = 10 then atomicBytes (c.field 0x3D 1) else c.field 0x38 4) ∧
            o.pkts.length = (if 11 ≤ e.2.1 then cdiv (c.field 0x38 4) 4096 else 1))) ∧
      ((e.2.1 = 11 → s.badIn (c.field 0x20 8) (c.field 0x38 4) = none) → s.fabricUp = false →
        Runs e.1 s (fun t => ends t stNoUnit ∧ t.remote = s.remote)) ∧
      (e.2.1 = 11 → s.badIn (c.field 0x20 8) (c.field 0x38 4) ≠ none →
        Runs e.1 s (fun t => ends t stUncorr ∧ s.keeps t))) ∧
    (s.nextOther r = some c → c.field 0 1 = 4 → Runs (.cmdWset r) s (fun t => t = { s with cmds := begun })) ∧
    (s.ringCmd r (fun x => x.started && x.field 0 1 == 4) = some c →
      let d := s.rangeDigest "VXWGHT01" (s.wsetRanges c)
      (s.badRange (s.wsetRanges c) = none →
        Runs (.wsetDigestDone r) s (fun t => ends t stOK ∧ s.keeps t ∧
          t.wsets.find (c.field 0x18 2) = some { owner := c.part, digest := d } ∧
          (clear (c.field 0x28 8) d.length → ∀ i < d.length, t.host.getD (c.field 0x28 8 + i) 0 = d.getD i 0))) ∧
      (s.badRange (s.wsetRanges c) ≠ none →
        Runs (.wsetDigestDone r) s (fun t => ends t stUncorr ∧ s.keeps t ∧ t.wsets = s.wsets))) ∧
    (s.nextOther r = some c → c.field 0 1 = 5 → bitOf (c.field 0x19 1) 1 = false →
      let k := c.field 0x18 1 / 16 % 2
      let b := s.hostBytes (c.field 0x20 8) (c.field 0x1A 2)
      (s.pdOn (40 + 2 * k) = true →
        Runs (.cmdFrame r) s (fun t => ends t stOK ∧ s.keeps t ∧
          t.crkWait.getD k [] = s.crkWait.getD k [] ++ [{
            lane := c.field 0x18 1 % 16, queue := 2, len := c.field 0x1A 2 + 4, raw := b, ts := c.field 0x19 1 }])) ∧
      (s.pdOn (40 + 2 * k) = false → Runs (.cmdFrame r) s (fun t => ends t stNoUnit ∧ t.crkWait = s.crkWait ∧ s.keeps t)))

/-- A granted LOCK through Lupin die 22 commits NODE_ID and INCARN and reads UP; with NODE_ID 0xFFFF, or through
another window, it changes nothing. A word of an invalid descriptor is stored; one that sets VALID takes the state of
its role, or stays invalid where it overlaps or is out of range; of a valid one only VALID clears. A peer word is
stored, and an operation outstanding to a node that it sets DOWN completes PEER_RESET. RESYNC, PROMOTE and RELEASE
move a region from the state that allows them and are else refused; the end of a resync makes it MIRRORED, 2 ms
without an answer SINGLE, 2 ms without a copy LOST, and a release notice STALE. Enabling a DOWN link on free lanes
starts its training, a bad configuration stays disabled, and disabling a link takes it DOWN with its queue and buffer
gone. (R393, R395, R396, R405, R413, R414, R416, R417, R419, R420, R423, R428) -/
def Obligations.FabricTables : Prop :=
  ∀ (s : State) (m : Master) (die ix : Nat) (v : BitVec 64),
    let d := lupin die
    let n := ix / 2
    let i := getField v 11 0
    let valid (i : Nat) : Prop := (s.region i).2.getLsbD 25 = true
    (s.grants m R.lpnNode d [] →
      (die % 4 = 0 → s.fld R.lpnNode 22 [] 24 24 = 0 → getField v 15 0 ≠ 0xFFFF →
        Runs (.nodeLock m die v) s (fun t => s.wrote t ∧ t.fld R.lpnNode 22 [] 15 0 = getField v 15 0 ∧
          t.fld R.lpnNode 22 [] 23 16 = getField v 23 16 ∧ t.fld R.lpnNode 22 [] 25 24 = 3 ∧ t.nodeId = getField v 15 0 ∧
          t.fabricUp = true)) ∧
      ((die % 4 = 0 ∧ s.fld R.lpnNode 22 [] 24 24 = 0 ∧ getField v 15 0 = 0xFFFF) ∨ die % 4 ≠ 0 →
        Runs (.nodeLock m die v) s (fun t => s.wrote t ∧ t.reg R.lpnNode 22 [] = s.reg R.lpnNode 22 []))) ∧
    (s.grants m R.lpnRegion d [ix] → ix < 8192 →
      (die % 4 = 0 → ¬ valid n → ix % 2 = 0 →
        Runs (.regionWrite m die ix v) s (fun t => s.wrote t ∧ (t.region n).2 = (s.region n).2 ∧
          getField (t.region n).1 47 0 = getField v 47 21 * 2 ^ 21 ∧ getField (t.region n).1 63 48 = getField v 63 48)) ∧
      (die % 4 = 0 → ¬ valid n → ix % 2 = 1 → getField v 27 26 ≠ 3 →
        Runs (.regionWrite m die ix v) s (fun t => s.wrote t ∧ (t.region n).1 = (s.region n).1 ∧
          getField (t.region n).2 24 0 = getField v 24 0 ∧ t.regionRole n = getField v 27 26 ∧
          t.regionPartner n = getField v 47 32 ∧
          ((t.region n).2.getLsbD 25 = true ↔ v.getLsbD 25 = true ∧ s.regionBad n (s.region n).1 v = false) ∧
          ((t.region n).2.getLsbD 25 = true →
            t.regionState n = (if t.regionRole n = 1 then 2 else if t.regionRole n = 2 then 6 else 0)))) ∧
      (die % 4 = 0 → valid n → ix % 2 = 1 → v.getLsbD 25 = false →
        Runs (.regionWrite m die ix v) s (fun t => s.wrote t ∧
          t.region n = ((s.region n).1, setField (s.region n).2 25 25 0))) ∧
      ((valid n ∧ (ix % 2 = 0 ∨ v.getLsbD 25 = true)) ∨ die % 4 ≠ 0 →
        Runs (.regionWrite m die ix v) s (fun t => s.wrote t ∧ t.region n = s.region n))) ∧
    (s.grants m R.lpnPeer 22 [ix] → die % 4 = 0 → ix < 16384 →
      let entry (t : State) : Prop := ∀ j < 4,
        t.fld R.lpnPeer 22 [ix] (16 * j + 8) (16 * j) = getField v (16 * j + 8) (16 * j)
      (∀ i < 4096, ¬ valid i ∨ s.regionPartner i / 4 ≠ ix) →
      ((∀ o ∈ s.remote, o.dst / 4 ≠ ix ∨ o.local_ = true) →
        Runs (.peerTableWrite m die ix v) s (fun t => s.wrote t ∧ entry t)) ∧
      (∀ (o : RemoteOp) (u : SeqUnit) (k : Nat) (p : FabPkt), s.remote = [o] → o.local_ = false → o.dst / 4 = ix →
        o.issuer = .ctx u k → o.status = none → o.pkts = [p] → p.result = none → s.peerDown o.dst = false →
        v.getLsbD (16 * (o.dst % 4) + 8) = true →
        Runs (.peerTableWrite m die ix v) s (fun t => entry t ∧ t.seqs = s.seqs ∧
          ∃ x, t.remote = [x] ∧ x.id = o.id ∧ x.status = some stPeerReset))) ∧
    (s.grants m R.lpnMirrorCmd d [] → valid i →
      (s.regionRole i = 1 → s.regionState i = 2 → s.resyncs < 4 →
        Runs (.mirrorResync m die v) s (fun t => s.wrote t ∧ t.regionState i = 3 ∧ (t.mirror i).startLc = s.lc ∧
          (t.mirror i).seqOut = 0)) ∧
      (s.regionRole i ≠ 1 ∨ s.regionState i ≠ 2 ∨ 4 ≤ s.resyncs →
        Runs (.mirrorResync m die v) s (fun t => s.wrote t ∧ t.region i = s.region i)) ∧
      (s.regionRole i = 2 → s.regionState i = 1 →
        Runs (.mirrorPromote m die v) s (fun t => s.wrote t ∧ t.regionRole i = 1 ∧ t.regionState i = 2)) ∧
      (s.regionRole i ≠ 2 ∨ s.regionState i ≠ 1 →
        Runs (.mirrorPromote m die v) s (fun t => s.wrote t ∧ t.region i = s.region i)) ∧
      (s.regionRole i = 1 → s.regionState i = 1 ∨ s.regionState i = 3 →
        Runs (.mirrorRelease m die v) s (fun t => t.mem = s.mem ∧ t.seqs = s.seqs ∧ t.regionState i = 2 ∧
          (t.mirror i).waits = [] ∧ ∃ o, t.remote = s.remote.filter (fun (o : RemoteOp) => o.issuer != .mirror i) ++ [o] ∧
            o.kind = .release ∧ o.dst = s.regionPartner i)) ∧
      (s.regionRole i ≠ 1 ∨ (s.regionState i ≠ 1 ∧ s.regionState i ≠ 3) →
        Runs (.mirrorRelease m die v) s (fun t => s.wrote t ∧ t.region i = s.region i))) ∧
    (valid (ix % 4096) → s.held = [] →
      let i := ix % 4096
      (s.regionRole i = 1 → s.regionState i = 3 →
        Runs (.resyncComplete ix) s (fun t => s.keeps t ∧ t.regionState i = 1 ∧
          t.lc = max s.lc ((s.mirror i).startLc + getField (s.region i).2 17 0 * 0x200000 / 64))) ∧
      (s.regionRole i = 2 → s.regionState i = 4 →
        Runs (.resyncComplete ix) s (fun t => s.keeps t ∧ t.regionState i = 1 ∧ t.lc = s.lc) ∧
        Runs (.secondaryCopyTimeout ix) s (fun t => s.keeps t ∧ t.regionState i = 5 ∧
          t.lc = max s.lc ((s.mirror i).copyLc + 2000000))) ∧
      (∀ w rest, (s.mirror i).waits = w :: rest → (∀ x ∈ rest, w.lc ≤ x.lc) → s.regionRole i = 1 →
        s.regionState i = 1 ∨ s.regionState i = 3 →
        Runs (.mirrorCopyTimeout ix) s (fun t => t.mem = s.mem ∧ t.seqs = s.seqs ∧ t.regionState i = 2 ∧
          (t.mirror i).waits = [] ∧ t.lc = max s.lc (w.lc + 2000000))) ∧
      (s.regionRole i = 2 → s.regionState i = 1 →
        Runs (.releaseNotice ix) s (fun t => s.keeps t ∧ t.regionState i = 6 ∧ t.mirror i = {}))) ∧
    (s.grants m R.lpnLink d [ix] → ix < 8 → s.unobserved →
      (s.linkSt d ix = 0 → v.getLsbD 7 = true →
        (s.linkBad d ix v = false → Runs (.linkConfigWrite m die ix v) s (fun t => s.wrote t ∧ t.linkSt d ix = 1 ∧
          t.fld R.lpnLink d [ix] 7 0 = getField v 7 0 ∧ t.link d ix = {})) ∧
        (s.linkBad d ix v = true → Runs (.linkConfigWrite m die ix v) s (fun t => s.wrote t ∧ t.linkSt d ix = 0 ∧
          t.fld R.lpnLink d [ix] 7 7 = 0))) ∧
      (s.linkSt d ix ≠ 0 → s.fld R.lpnLink d [ix] 7 7 = 1 → v.getLsbD 7 = false →
        Runs (.linkConfigWrite m die ix v) s (fun t => s.wrote t ∧ t.linkSt d ix = 0 ∧
          t.fld R.lpnLink d [ix] 7 0 = getField v 7 0 ∧ t.link d ix = {})))

/-- While the fabric is not up a request is dropped; one older than 1 ms is dropped and counted; one of another
incarnation is answered PEER_RESET, one that fails a check its status, and an atomic with an APPLIED receipt its
stored reply, with memory unchanged. One that passes and whose line is free is applied: it writes what it stores,
nothing else, is answered OK with the old value, and an atomic leaves an APPLIED receipt; on a busy line it waits,
and with 64 waiting is answered BUSY_HOT. A line serves its next request 8 ns after the last. 100 us free the
starvation token, 2 ms a receipt. An answer without its operation counts LATE; one to an operation of one packet
completes it, or arms a hot retry. Loss and hot retries send again at their time, the attempt window completes
BUSY_HOT, and 2 ms complete OUTCOME_UNKNOWN. (R393, R397, R398, R399, R401, R402, R403, R404, R405, R409, R410, R411) -/
def Obligations.FabricTraffic : Prop :=
  ∀ (s : State), s.held = [] → s.canonical = true →
    let sends (t : State) (p : FabReply) : Prop :=
      let w := s.routeOf (reqNode p.tag)
      (reqNode p.tag = s.nodeId → t.localReps = s.localReps ++ [p]) ∧
      (reqNode p.tag ≠ s.nodeId → bitOf w 15 = true → s.linkSt (22 + bitsOf w 1 0) (bitsOf w 4 2) ≠ 0 →
        ∃ u, (t.link (22 + bitsOf w 1 0) (bitsOf w 4 2)).queue = (s.link (22 + bitsOf w 1 0) (bitsOf w 4 2)).queue ++ [u] ∧
          u.msg = .rep p ∧ u.level = 2)
    let old (r : FabReq) : Nat := if r.kind = .rld ∨ r.kind = .rat then s.num r.off r.size else 0
    let data (r : FabReq) : List Byte := if r.kind = .rat then leBytes r.size (atomicNew r.akind (old r) r.operand r.cmp r.size)
      else if r.kind = .rst ∨ r.kind = .put then r.data else []
    let reply (r : FabReq) : FabReply := answerOf r stOK (old r) 0 false (if r.kind = .get then s.bytes r.off r.size else [])
    let applied (t : State) (r : FabReq) : Prop := sends t (reply r) ∧ t.steps = s.steps ∧ t.remote = s.remote ∧
      (∀ i b, (data r)[i]? = some b → t.byte (r.off + i) = b) ∧
      ∀ a, (a < r.off ∨ r.off + (data r).length ≤ a) → t.byte a = s.byte a
    (∀ (r : FabReq) (i : Nat),
      let k := homeDie r.off - 22
      let c := Instr.fabricRequestArrival (some r) i
      let fresh := s.fabricUp = true ∧ s.tbNs 2 - r.sent ≤ 1000000 ∧ r.incarn = s.fld R.lpnNode 22 [] 23 16
      let x := (s.lineOf k (r.off / 64)).getD { line := r.off / 64, freeLc := 0 }
      let small := r.kind = .rld ∨ r.kind = .rst ∨ r.kind = .rat
      let passes := fresh ∧ s.fabCheck r = stOK ∧ r.kind ≠ .copy ∧ r.kind ≠ .release ∧
        (r.kind = .rat → s.receiptFor k r = none ∧ (s.receiptsOf k).length < 65536)
      let isHolder := ∃ lc, (s.home k).token = some (r.tag, r.stamp, lc)
      (s.fabricUp = false → exec c s = .next s) ∧
      (s.fabricUp = true → 1000000 < s.tbNs 2 - r.sent →
        Runs c s (fun t => s.keeps t ∧ t.homes = s.homes ∧ t.localReps = s.localReps ∧ t.links = s.links ∧
          t.fld R.lpnRcpt2 (homeDie r.off) [] 63 32 = satAdd (s.fld R.lpnRcpt2 (homeDie r.off) [] 63 32) 1 (2 ^ 32 - 1))) ∧
      (s.fabricUp = true → s.tbNs 2 - r.sent ≤ 1000000 → r.incarn ≠ s.fld R.lpnNode 22 [] 23 16 →
        Runs c s (fun t => s.keeps t ∧ t.homes = s.homes ∧ sends t (answerOf r stPeerReset 0 0 false []))) ∧
      (fresh → s.fabCheck r ≠ stOK → r.kind ≠ .release → (r.kind = .rat → s.receiptFor k r = none) →
        Runs c s (fun t => s.keeps t ∧ t.homes = s.homes ∧ sends t (answerOf r (s.fabCheck r) 0 0 false []))) ∧
      (∀ y p, fresh → r.kind = .rat → s.receiptFor k r = some y → y.reply = some p →
        Runs c s (fun t => s.keeps t ∧ t.homes = s.homes ∧ sends t p)) ∧
      (passes → s.unobserved → s.fabBad r = none → s.mirrored r = none → s.reqHeld r = false → ¬ isHolder →
        (small → x.queue = [] ∧ x.freeLc ≤ s.lc) →
        Runs c s (fun t => applied t r ∧
          (small → t.lineOf k (r.off / 64) = some { x with freeLc := s.lc + 8 }) ∧
          (r.kind = .rat → ∃ y ∈ (t.home k).receipts, y.tag = r.tag ∧ y.stamp = r.stamp ∧ y.lc = s.lc ∧
            y.reply = some (reply r)))) ∧
      (passes → small → ¬ isHolder → x.queue ≠ [] ∨ s.lc < x.freeLc →
        (x.queue.length < 64 → (x.queue = [] → s.tracked k < 256) →
          Runs c s (fun t => s.keeps t ∧ t.localReps = s.localReps ∧ t.links = s.links ∧
            t.lineOf k (r.off / 64) = some { x with queue := x.queue ++ [r] })) ∧
        (64 ≤ x.queue.length →
          Runs c s (fun t => s.keeps t ∧ (t.home k).lines = (s.home k).lines ∧
            sends t (answerOf r stBusyHot 0 (max 1 (cdiv (x.queue.length * 8) 100)) false []))))) ∧
    (∀ (i : Nat) (r : FabReq), s.localReqs[i]? = some r →
      exec (.fabricRequestArrival none i) s = exec (.fabricRequestArrival (some r) i) { s with localReqs := s.localReqs.eraseIdx i }) ∧
    (∀ (die line : Nat) (x : FabLine) (r : FabReq) (rest : List FabReq), s.lineOf (die % 4) line = some x → x.queue = r :: rest →
      r.kind ≠ .copy → s.reqHeld r = false → s.unobserved → s.fabBad r = none → s.mirrored r = none →
      Runs (.hotLineServe die line) s (fun t => applied t r ∧ t.lc = max s.lc x.freeLc ∧
        t.lineOf (die % 4) line = some { x with queue := rest, freeLc := t.lc + 8 })) ∧
    (∀ (die tag : Nat) (stamp : Int) (lc : Nat), (s.home (die % 4)).token = some (tag, stamp, lc) →
      Runs (.hotTokenTimeout die) s (fun t => s.keeps t ∧ t.lc = max s.lc (lc + 100000) ∧
        t.home (die % 4) = { s.home (die % 4) with token := none })) ∧
    (∀ (die lc : Nat), (((s.home (die % 4)).receipts.filter (fun r => r.reply.isSome)).map (fun r => r.lc)).min? = some lc →
      Runs (.receiptExpiry die) s (fun t => s.keeps t ∧ t.lc = max s.lc (lc + 2000000) ∧
        (t.home (die % 4)).receipts = (s.home (die % 4)).receipts.filter (fun r => !(r.expired t.lc)))) ∧
    (∀ (die i : Nat) (p : FabReply), s.opOfReply p = none →
      Runs (.fabricReplyArrival die (some p) i) s (fun t => s.keeps t ∧ t.host = s.host ∧
        t.fld R.lpnReqstat (lupin die) [] 63 48 = satAdd (s.fld R.lpnReqstat (lupin die) [] 63 48) 1 (2 ^ 16 - 1))) ∧
    (∀ (die i : Nat) (p : FabReply), s.localReps[i]? = some p →
      exec (.fabricReplyArrival die none i) s =
        exec (.fabricReplyArrival die (some p) i) { s with localReps := s.localReps.eraseIdx i }) ∧
    (∀ (o : RemoteOp) (u : SeqUnit) (c : Nat) (x : FabPkt), s.remote = [o] → o.issuer = .ctx u c → o.status = none →
      o.pkts = [x] → x.result = none → s.unobserved →
      let pkt (t : State) (y : FabPkt) : Prop := t.remote = [{ o with pkts := [y] }] ∧ t.mem = s.mem ∧ t.seqs = s.seqs
      let done (t : State) (st : Nat) : Prop := t.seqs = s.seqs ∧ ∃ z, t.remote = [z] ∧ z.id = o.id ∧ z.status = some st
      (∀ (die i : Nat) (p : FabReply), p.tag = o.tag → p.stamp = o.stamp → p.pkt = 0 →
        (p.full = false → p.status ≤ 10 → p.status ≠ stBusyHot →
          Runs (.fabricReplyArrival die (some p) i) s (fun t => done t p.status ∧
            (p.status = stOK → ∃ z, t.remote = [z] ∧ z.value = p.value) ∧
            (o.kind = .get ∧ p.status = stOK ∧ o.orphan = false →
              (∀ j b, (p.data.take (o.pktSize 0))[j]? = some b → t.byte (o.loc + j) = b) ∧
              ∀ a, (a < o.loc ∨ o.loc + (p.data.take (o.pktSize 0)).length ≤ a) → t.byte a = s.byte a) ∧
            (o.kind ≠ .get → t.mem = s.mem))) ∧
        (p.full = false → p.status = stBusyHot → s.lc < o.t0 + 500000 →
          Runs (.fabricReplyArrival die (some p) i) s (fun t => pkt t
            { x with hots := x.hots + 1, hint := p.hint, answered := true, hotDue := some (s.lc + 100 * p.hint) }))) ∧
      (x.answered = false → x.losses < 8 → x.lastLc + 20000 ≤ o.t0 + 500000 →
        Runs (.lossRetry o.id) s (fun t => t.lc = max s.lc (x.lastLc + 20000) ∧ pkt t
          { x with sent := x.sent + 1, lastLc := t.lc, losses := x.losses + 1, answered := false, hotDue := none } ∧
          (o.local_ = true → ∃ q, t.localReqs = s.localReqs ++ [q] ∧ q.tag = o.tag ∧ q.stamp = o.stamp ∧ q.off = o.addr))) ∧
      (∀ due, x.hotDue = some due → due ≤ o.t0 + 500000 →
        Runs (.hotRetry o.id) s (fun t => t.lc = max s.lc due ∧ pkt t
          { x with sent := x.sent + 1, lastLc := t.lc, answered := false, hotDue := none } ∧
          (o.local_ = true → ∃ q, t.localReqs = s.localReqs ++ [q] ∧ q.tag = o.tag ∧ q.stamp = o.stamp ∧ q.off = o.addr))) ∧
      Runs (.attemptWindowClose o.id) s (fun t => t.lc = max s.lc (o.t0 + 500000) ∧ t.mem = s.mem ∧
        (x.hots = x.sent → done t stBusyHot) ∧ (x.hots ≠ x.sent → t.remote = s.remote)) ∧
      Runs (.outcomeUnknownTimeout o.id) s (fun t => t.lc = max s.lc (o.t0 + 2000000) ∧ t.mem = s.mem ∧ done t stUnknown))

/-- A link that trains becomes UP with its lanes up and its wavelengths locked. An UP link under replay sends the
next unacknowledged flit again and counts it; with none it sends a flit of the oldest unit of the highest precedence,
whose number enters the replay buffer; it sends nothing while it is not UP. An acknowledgment frees every flit up to
its number and no other. A CRC failure starts the replay from the first unacknowledged flit, as do 2 us without an
acknowledgment. 1 ms without progress takes the link DOWN with its buffer and queue gone. A lane fault with a free
spare starts sparing, without one takes the link DOWN, and up to 16 uncorrectable code words are only counted; the
resume after sparing moves the lanes to their spares. The far end's mapping is taken over. The head of the yellow
queue enters its link's queue unless a green request waits. (R379, R423, R424, R425, R426, R428, R429) -/
def Obligations.Links : Prop :=
  ∀ (s : State) (die j lane : Nat), s.unobserved → s.held = [] → j < 8 → lane < 24 →
    let d := lupin die
    let k := s.link d j
    let l := lane
    let rest (t : State) : Prop := s.keeps t ∧ ∀ i < 8, i ≠ j → t.link d i = s.link d i
    let down (t : State) : Prop := rest t ∧ t.linkSt d j = 0 ∧ t.link d j = {} ∧
      t.fld R.lpnLinkCnt d [j] 63 48 = satAdd (s.fld R.lpnLinkCnt d [j] 63 48) 1 (2 ^ 16 - 1)
    (s.linkSt d j = 1 → s.pdOn (d + 22) = true → s.pdOn (d + 26) = true →
      Runs (.linkTrained die j) s (fun t => rest t ∧ t.link d j = k ∧ t.linkSt d j = 2 ∧
        ∀ x ∈ s.lanesOf d j, t.fld R.lpnLane d [x] 8 8 = 1 ∧
          (s.fld R.lpnLane d [x] 7 5 < 5 → bitOf (t.fld R.phxFp (d + 4) [x / 4] 4 0) (s.fld R.lpnLane d [x] 7 5) = true))) ∧
    (s.linkSt d j ≠ 2 → exec (.linkFlitSend die j) s = .next s) ∧
    (s.linkSt d j = 2 →
      (∀ i, k.replay = some i →
        Runs (.linkFlitSend die j) s (fun t => rest t ∧
          t.link d j = { k with replay := if i + 1 < k.buf.length then some (i + 1) else none } ∧
          t.fld R.lpnLinkCnt d [j] 31 0 = satAdd (s.fld R.lpnLinkCnt d [j] 31 0) 1 (2 ^ 32 - 1))) ∧
      (∀ u before after, k.replay = none → k.queue = before ++ u :: after → (∀ x ∈ before, u.level < x.level) →
        (∀ x ∈ after, u.level ≤ x.level) → k.buf.length < 4095 →
        Runs (.linkFlitSend die j) s (fun t => rest t ∧
          (t.link d j).queue = before ++ (if u.left ≤ 256 then [] else [{ u with left := u.left - 256 }]) ++ after ∧
          (t.link d j).buf = k.buf ++ [k.next] ∧ (t.link d j).next = (k.next + 1) % 4096)) ∧
      (k.buf ≠ [] →
        Runs (.flitCrcFail die j) s (fun t => rest t ∧ t.link d j = { k with replay := some 0, ackLc := s.lc }) ∧
        Runs (.linkAckTimeout die j) s (fun t => rest t ∧ t.lc = max s.lc (k.ackLc + 2000) ∧
          t.link d j = { k with replay := some 0, ackLc := t.lc }))) ∧
    (∀ seq before after, k.buf = before ++ seq :: after → seq ∉ before →
      Runs (.linkAckReceived die j seq) s (fun t => rest t ∧ t.regs = s.regs ∧
        t.link d j = { k with buf := after, ackLc := s.lc, progressLc := s.lc,
                              replay := if after = [] then none else k.replay.map (fun i => i - (before.length + 1)) })) ∧
    (∀ seq, seq ∉ k.buf → exec (.linkAckReceived die j seq) s = .next s) ∧
    (s.linkSt d j ≠ 0 → k.buf ≠ [] ∨ k.queue ≠ [] →
      Runs (.linkStallDown die j) s (fun t => down t ∧ t.lc = max s.lc (k.progressLc + 1000000))) ∧
    (∀ optical n, 0 < n → n ≤ 16 →
      Runs (.laneFault die l optical n) s (fun t => s.keeps t ∧ t.links = s.links ∧ t.linkSt d j = s.linkSt d j ∧
        t.fld R.lpnLane d [l] 63 32 = satAdd (s.fld R.lpnLane d [l] 63 32) n (2 ^ 32 - 1))) ∧
    (∀ optical n, n = 0 ∨ 16 < n → s.linkOfLane d l = some j → 2 ≤ s.linkSt d j →
      (s.freeSpare d l optical = none →
        Runs (.laneFault die l optical n) s (fun t => down t ∧ t.fld R.lpnLane d [l] 8 8 = 0)) ∧
      (∀ x, s.freeSpare d l optical = some x →
        Runs (.laneFault die l optical n) s (fun t => rest t ∧ t.linkSt d j = 3 ∧ t.fld R.lpnLane d [l] 8 8 = 0 ∧
          t.link d j = { k with sparing := k.sparing ++ [(l, x)] }))) ∧
    (∀ x, s.linkSt d j = 3 → k.sparing = [(l, x)] → x = 4 ∨ x = 24 ∨ x = 25 →
      Runs (.laneSpareResume die j) s (fun t => rest t ∧ t.linkSt d j = 2 ∧ t.fld R.lpnLane d [l] 8 8 = 1 ∧
        t.link d j = { k with sparing := [], replay := if k.buf = [] then none else some 0, ackLc := s.lc, progressLc := s.lc } ∧
        t.fld R.lpnLinkCnt d [j] 47 32 = satAdd (s.fld R.lpnLinkCnt d [j] 47 32) 1 (2 ^ 16 - 1) ∧
        (if x = 4 then t.fld R.lpnLane d [l] 7 5 = 4 else t.fld R.lpnLane d [l] 4 0 = x))) ∧
    (∀ wave, Runs (.laneMappingNotice die l wave) s (fun t => s.keeps t ∧ t.links = s.links ∧
      t.fld R.lpnLane d [l] 7 5 = wave % 5 ∧ bitOf (t.fld R.phxFp (d + 4) [l / 4] 9 5) (wave % 5) = true ∧
      t.fld R.lpnLane d [l] 4 0 = s.fld R.lpnLane d [l] 4 0)) ∧
    (∀ u more, s.egress = [] → s.yellowQ.getD (d - 22) [] = u :: more → u.link = j →
      ((∀ i < 8, ∀ x ∈ (s.link d i).queue, x.level ≠ 4) → s.linkSt d j ≠ 0 →
        Runs (.yellowRequestSend die) s (fun t => rest t ∧ t.yellowQ.getD (d - 22) [] = more ∧
          (t.link d j).queue = k.queue ++ [u])) ∧
      ((∃ i < 8, ∃ x ∈ (s.link d i).queue, x.level = 4) → exec (.yellowRequestSend die) s = .next s))

/-- A granted enabling write that passes the checks runs the unit from sequence 0; one that does not leaves EN 0 and
the state. A granted disabling write turns a running unit off and drops its puts. The record of a completed, hashed
step is kept and put into the peer's inbox. A record in the own inbox that agrees advances AGREED; one that differs,
a stop record, or none within TIMEOUT_MS stops the unit with its cause, its sequence number, and a global stop. The
end of the input hashing makes a step eligible, or ends it UNCORRECTABLE; the end of the result hashing gives the
digests of R469 where the step ended OK and its outputs could be read, zeros otherwise, and raises the pair of digest
events for a step with a provenance block. (R467, R468, R469, R470, R471, R473, R474, R475, R478, R558) -/
def Obligations.LockStepAndDigests : Prop :=
  ∀ (s : State) (m : Master) (v : BitVec 64) (step seq : Nat) (r : StepRec), s.unobserved → s.held = [] →
    let stops (t : State) (cause : Nat) : Prop := t.lsState = 2 ∧ t.fld R.prmLsStat 31 [] 3 2 = cause ∧
      t.fld R.prmLsStat 31 [] 63 32 = seq ∧ t.gstopped = true ∧ t.mem = s.mem ∧ t.steps = s.steps ∧
      t.remote = s.remote.filter (fun (o : RemoteOp) => o.issuer != .lockstep)
    let timeout := if 1 ≤ getField v 25 16 ∧ getField v 25 16 ≤ 1000 then getField v 25 16 else 10
    (s.grants m R.prmLsCfg 31 [] →
      (s.lsState ≠ 1 → s.lsBad v = false →
        Runs (.lsEnable m v) s (fun t => s.wrote t ∧ t.lsState = 1 ∧ t.reg R.prmLsSeq 31 [] = 0 ∧ t.lsOwn = [] ∧
          t.fld R.prmLsCfg 31 [] 0 0 = 1 ∧ t.fld R.prmLsCfg 31 [] 6 1 = getField v 6 1 ∧
          t.fld R.prmLsCfg 31 [] 25 16 = timeout)) ∧
      (s.lsState ≠ 1 → s.lsBad v = true →
        Runs (.lsEnable m v) s (fun t => s.wrote t ∧ t.lsState = s.lsState ∧ t.fld R.prmLsCfg 31 [] 0 0 = 0)) ∧
      (s.lsState = 1 →
        Runs (.lsEnable m v) s (fun t => s.wrote t ∧ t.lsState = 1 ∧ t.fld R.prmLsCfg 31 [] 0 0 = 1 ∧ t.lsOwn = s.lsOwn) ∧
        Runs (.lsDisable m v) s (fun t => t.ansStatus = stOK ∧ t.lsState = 0 ∧ t.fld R.prmLsCfg 31 [] 0 0 = 0 ∧
          t.mem = s.mem ∧ t.steps = s.steps ∧
          t.remote = s.remote.filter (fun (o : RemoteOp) => o.issuer != .lockstep)))) ∧
    (∀ n, s.stepAt step = some r → r.st = .ended → r.hashed = true → r.lsSeq = some n → s.lsState = 1 → s.lsInbox n = none →
      let d := stepDigest n r.status r.provDigest r.resDigest
      Runs (.lsRecordPut step) s (fun t => t.mem = s.mem ∧ t.steps = s.steps.filter (fun x => x.id != r.id) ∧
        t.lsOwn.find n = some (s.lc, d) ∧ t.lsState = 1 ∧
        ∃ o, t.remote = s.remote ++ [o] ∧ o.issuer = .lockstep ∧ o.kind = .put ∧ o.dst = s.fld R.prmLsPeer 31 [] 15 0 ∧
          o.addr = s.fld R.prmLsPeer 31 [] 63 16 + n % 4096 * 64 ∧ o.size = 64 ∧ o.data = lsRecord n 1 r.status d)) ∧
    (s.lsState ≠ 1 ∨ s.lsInbox seq = none → exec (.lsRecordArrival seq) s = .next s) ∧
    (s.lsState = 1 → seq < 2 ^ 32 →
      (∀ st d, s.lsInbox seq = some (2, st, d) → Runs (.lsRecordArrival seq) s (fun t => stops t 3)) ∧
      (∀ st d own, s.lsInbox seq = some (1, st, d) → s.lsOwn.find seq = some own → own.2 ≠ d →
        Runs (.lsRecordArrival seq) s (fun t => stops t 1)) ∧
      (∀ st d lc, s.lsInbox seq = some (1, st, d) → s.lsOwn = [(seq, (lc, d))] → s.fld R.prmLsSeq 31 [] 63 32 = seq →
        seq + 1 < 2 ^ 32 →
        Runs (.lsRecordArrival seq) s (fun t => s.keeps t ∧ t.lsState = 1 ∧ t.lsOwn = [] ∧
          t.fld R.prmLsSeq 31 [] 63 32 = seq + 1 ∧ t.fld R.prmLsSeq 31 [] 31 0 = s.fld R.prmLsSeq 31 [] 31 0)) ∧
      (∀ own, s.lsOwn.find seq = some own → own.2 ≠ [] → s.lsInbox seq = none →
        Runs (.lsTimeout seq) s (fun t => stops t 2 ∧
          t.lc = max s.lc (own.1 + s.fld R.prmLsCfg 31 [] 25 16 * 1000000)))) ∧
    (s.stepAt step = some r → r.st = .waiting → r.prov.isSome = true → r.eligible = false →
      let l := (s.provOf r).2.1
      (s.badRange l = none →
        Runs (.inputDigestDone step) s (fun t => t = { s with steps := s.steps.map (fun x => if x.id = r.id then
          { r with inDigest := sha3 (tagBytes "VXINPT01" ++ leBytes 8 0 ++ s.rangeBytes l), eligible := true } else x) })) ∧
      (s.badRange l ≠ none →
        Runs (.inputDigestDone step) s (fun t => t.mem = s.mem ∧ t.seqs = s.seqs ∧
          ∃ x, t.stepAt step = some x ∧ x.st = .ended ∧ x.status = stUncorr ∧ x.eligible = false))) ∧
    (s.stepAt step = some r → r.st = .ended → r.hashed = false →
      let p := s.provOf r
      let ok := r.status = stOK ∧ s.badRange p.2.2 = none
      let res := sha3 (tagBytes "VXRSLT01" ++ leBytes 8 0 ++ s.rangeBytes p.2.2)
      let prov := sha3 (tagBytes "VXPROV01" ++ leBytes 8 0 ++ leBytes 32 r.digest ++ s.weightDigest p.1 ++ r.inDigest ++
        leBytes 16 (s.effSignature r.exact))
      (r.lsSeq = none →
        Runs (.resultDigestDone step) s (fun t => t.mem = s.mem ∧ t.seqs = s.seqs ∧
          t.steps = s.steps.filter (fun x => x.id != r.id))) ∧
      (r.lsSeq ≠ none → r.prov ≠ none →
        Runs (.resultDigestDone step) s (fun t => t.mem = s.mem ∧ t.seqs = s.seqs ∧
          ∃ x, t.stepAt step = some x ∧ x.st = .ended ∧ x.hashed = true ∧
            x.resDigest = (if ok then res else zeroDigest) ∧ x.provDigest = (if ok then prov else zeroDigest))) ∧
      (r.prov ≠ none → ok → r.part < 64 → s.fld R.prmEvtCfg r.part [] 15 15 = 1 →
        Runs (.resultDigestDone step) s (fun t => (t.evtRing r.part).seq = (s.evtRing r.part).seq + 2)))

/-- A register write that its register's state refuses answers that status and changes nothing; one by a master that
may not write it leaves it; a write of an unlocked Phlox or Foxglove register sets each bit by its access code. A
mesh transfer to memory that its partition may reach writes its bytes and no others, or reads them; a read of a
register answers its word. A function's write of its doorbells, HEAD or WIN through BAR0 is the command of that name;
a read of another function's ring gives zeros. BAR2 reaches memory at WIN plus the offset; what its partition may not
reach reads zeros, and a write to it is discarded. A write of WIN keeps a multiple of the window. TW_CFG clears the
rest of its watch point. Disabling a trace unit writes out what it holds. GO retires a row of a fenced cluster onto
the spare, or withdraws the cluster, and is refused on another. (R13, R14, R18, R28, R29, R43, R218, R481, R482,
R483, R564, R569) -/
def Obligations.Accesses : Prop :=
  ∀ (s : State) (m : Master) (fn : Nat) (v : BitVec 64), s.canonical = true →
    let same (t : State) (a n : Nat) (data : List Byte) : Prop := t.steps = s.steps ∧
      (∀ i b, data[i]? = some b → i < n → t.byte (a + i) = b) ∧ ∀ b, (b < a ∨ a + n ≤ b) → t.byte b = s.byte b
    (∀ (off x o : Nat) (r : RegD) (ix : List Nat), regionOf off = .regs x o → o % 8 = 0 → s.dieOn x = true →
      regAt x o = some (r, ix) → isDbgCmd r = false →
      (s.regStatus r x ix ≠ stOK → Runs (.registerWrite m off 8 v) s (fun t =>
        t = { s with ansStatus := s.regStatus r x ix, ansData := [] })) ∧
      (s.regStatus r x ix = stOK → mayWrite r.writer m = false → s.masterPart m < 64 → s.unobserved →
        Runs (.registerWrite m off 8 v) s (fun t => s.wrote t ∧ t.reg r x ix = s.reg r x ix)) ∧
      (s.grants m r x ix → r.kind = .phx ∨ r.kind = .fxg → r.maskOf .fg = 0 → r.locked (s.reg r x ix) = false →
        Runs (.registerWrite m off 8 v) s (fun t => s.wrote t ∧ ∀ b < 64, (t.reg r x ix).getLsbD b =
          (((if (r.maskOf .rw).getLsbD b || (r.maskOf .rwl).getLsbD b then v.getLsbD b else (s.reg r x ix).getLsbD b) &&
            !(v.getLsbD b && (r.maskOf .w1c).getLsbD b)) || (v.getLsbD b && (r.maskOf .w1s).getLsbD b)))) ∧
      (s.regStatus r x ix = stOK →
        Runs (.meshTransfer { m := m, radio := false, src := 0, off := off, write := false, data := [], len := 8, retries := 0 }) s
          (fun t => t = { s with ansStatus := stOK, ansData := leBytes 8 (s.view r x ix).toNat })) ∧
      exec (.meshTransfer { m := m, radio := false, src := 0, off := off, write := true, data := leBytes 8 v.toNat,
                            len := 0, retries := 0 }) s = exec (.registerWrite m off 8 v) s) ∧
    (∀ x : MeshXfer, x.retries = 0 → (∀ d o, regionOf x.off ≠ .regs d o) → s.unobserved →
      (x.write = true → s.heldOff x.m x.off x.data.length = false →
        s.memWriteStatus (s.masterPart x.m) x.off x.data.length = stOK →
        Runs (.meshTransfer x) s (fun t => t.ansStatus = stOK ∧ same t x.off x.data.length x.data)) ∧
      (x.write = true → s.heldOff x.m x.off x.data.length = false →
        s.memWriteStatus (s.masterPart x.m) x.off x.data.length ≠ stOK →
        Runs (.meshTransfer x) s (fun t => t.ansStatus = s.memWriteStatus (s.masterPart x.m) x.off x.data.length ∧ s.keeps t)) ∧
      (x.write = false → s.heldOff x.m x.off x.len = false → s.memStatus (s.masterPart x.m) x.off x.len = stOK →
        Runs (.meshTransfer x) s (fun t => t.ansStatus = stOK ∧ t.ansData = s.bytes x.off x.len ∧ s.keeps t))) ∧
    (s.fnPresent fn = true →
      (∀ r < 32768, s.barShut = false →
        (s.chipFenced = false → exec (.bar0Access fn true (0x100000 + 8 * r) 8 v) s = exec (.doorbell fn r v) s) ∧
        (s.ringPart r ≠ fn → Runs (.bar0Access fn false (0x200000 + 0x20 * r) 8 v) s (fun t =>
          t = { s with ansStatus := stOK, ansData := List.replicate 8 0 }))) ∧
      (fn = 0 ∨ s.fenced 2 fn = false →
        exec (.bar0Access fn true 0x50 8 v) s = exec (.evtHeadWrite fn v) s ∧
        exec (.bar0Access fn true 0x10 8 v) s = exec (.bar2WinWrite fn v) s) ∧
      Runs (.bar2WinWrite fn v) s (fun t => s.wrote t ∧
        t.fld R.prmBar2Win fn [] 47 0 = getField v 47 0 / bar2Size fn * bar2Size fn)) ∧
    (∀ (off n : Nat) (data : List Byte), s.fnPresent fn = true → off + n ≤ bar2Size fn → data.length = n → s.unobserved →
      let a := s.fld R.prmBar2Win fn [] 47 0 + off
      s.heldOff (.fn fn) a n = false →
      (s.memWriteStatus fn a n = stOK →
        Runs (.bar2Access fn true off n data) s (fun t => t.ansStatus = stOK ∧ same t a n data)) ∧
      (s.memWriteStatus fn a n ≠ stOK → s.memWriteStatus fn a n ≠ stUncorr →
        Runs (.bar2Access fn true off n data) s (fun t => s.wrote t)) ∧
      (s.memStatus fn a n = stOK →
        Runs (.bar2Access fn false off n data) s (fun t => s.wrote t ∧ t.ansData = s.bytes a n)) ∧
      (s.memStatus fn a n ≠ stOK → s.memStatus fn a n ≠ stUncorr →
        Runs (.bar2Access fn false off n data) s (fun t => s.wrote t ∧ t.ansData = List.replicate n 0))) ∧
    (∀ w < 64, s.fnPresent fn = true → Tab.wf s.regs = true →
      Runs (.twCfgWrite fn w v) s (fun t => s.wrote t ∧ t.fld R.twCfg fn [w] 23 0 = getField v 23 0 ∧
        (∀ k, R.twCfg.at fn [w] < k → k < R.twCfg.at fn [w] + 0x100 → t.regs.find k = none) ∧
        ∀ k, (k < R.twCfg.at fn [w] ∨ R.twCfg.at fn [w] + 0x100 ≤ k) → t.regs.find k = s.regs.find k)) ∧
    (∀ die, let d := die % 32
      s.grants m R.trcCfg d [] →
      Runs (.trcDisable m die v) s (fun t => t.ansStatus = stOK ∧ t.seqs = s.seqs ∧ t.steps = s.steps ∧
        t.fld R.trcCfg d [] 0 0 = 0 ∧ t.fld R.trcCfg d [] 1 1 = getField v 1 1 ∧ t.fld R.trcCfg d [] 15 8 = getField v 15 8 ∧
        (s.fld R.trcCfg d [] 0 0 = 1 → (t.trcOf d).held = [] ∧ (t.trcOf d).lost = 0 ∧ t.fld R.trcStat d [] 18 0 =
          (s.fld R.trcStat d [] 18 0 + (s.trcOf d).held.length + (if (s.trcOf d).lost = 0 then 0 else 1)) % 2 ^ 19) ∧
        (s.fld R.trcCfg d [] 0 0 = 0 → s.keeps t))) ∧
    (∀ die lc, let d := die % 16
      let l := lc % 8
      let p := 8 * d + l
      let k := getField v 2 0
      let u := SeqUnit.cluster p
      s.grants m R.dhlClSpareCmd d [l] →
      (s.fenced 1 (s.logCluster p) = true → (s.seq u).spareBusy = false →
        (s.hasSpare p = true → Runs (.spareRetire m die lc v) s (fun t => t.ansStatus = stOK ∧ t.mem = s.mem ∧
          t.physRow p k = 8 ∧ t.hasSpare p = false ∧ t.fld R.dhlClStatus d [l] 11 8 = s.physRow p k % 16 ∧
          (∀ j < 8, j ≠ k → t.physRow p j = s.physRow p j))) ∧
        (s.hasSpare p = false → Runs (.spareRetire m die lc v) s (fun t => s.wrote t ∧ t.withdrawn p = true))) ∧
      (s.fenced 1 (s.logCluster p) = false ∨ (s.seq u).spareBusy = true →
        Runs (.spareRetire m die lc v) s (fun t => s.wrote t)))

/-- Power good senses the fuses and, with PERST# deasserted, brings the ROM to AWAIT_IMAGE, as the deassertion of
PERST# does after it. POR_N low turns every domain off and loses memory, sequencers and steps, host memory and
identity apart; its end turns on domains 54 to 59. An assertion of PERST# triggers L3 with its cause. GO in
AWAIT_IMAGE starts verification with its length and changes nothing in another state. Verification ends RUNNING with
the signature of R463 where every check of R504 passes, and else in AWAIT_IMAGE with the first failing check in ERR.
A permitted, authorised transition sets the life-cycle state, wipes sealed regions and triggers L3; another is
refused. A tamper event latches with its cause, stops fetching, ends the SPDM session and wipes. FLR of a VF triggers
its L2; FLR of the PF turns off its rings and its event ring and keeps what it shows of boot and tamper. (R463, R484,
R502, R504, R505, R506, R507, R516, R519, R544, R576, R584) -/
def Obligations.BootAndLands : Prop :=
  ∀ (s : State) (m : Master) (v : BitVec 64) (fn : Nat), Tab.wf s.regs = true →
    let triggers (t : State) (level target cause : Nat) : Prop := s.keeps t ∧ t.nextReset = s.nextReset + 1 ∧
      t.resets = [{ id := s.nextReset, level := level, target := target, cause := cause, trigLc := s.lc }] ∧
      t.fld R.fxgRstStat 31 [] 2 0 = 1 ∧ t.fld R.fxgRstStat 31 [] 5 3 = level ∧ t.fld R.fxgRstStat 31 [] 19 6 = target ∧
      t.fld R.fxgRstStat 31 [] 23 20 = cause
    let wiped (t : State) (cause : Nat) : Prop := t.wipes = s.wipes ++
      (s.enabledDies.filter (fun d => s.pdOn (2 * d + 1))).map (fun d => { die := d, cause := cause, slices := 255 })
    let ready := s.pdOn 57 = true ∧ s.bootState = 0 ∧ s.resets = []
    (s.porLow = true → exec .powerGood s = .next s) ∧
    (s.porLow = false → Runs .powerGood s (fun t => t.sensed = true ∧ s.keeps t ∧ t.perstLow = s.perstLow ∧
      (ready → s.perstLow = false → t.bootState = 1) ∧ (s.perstLow = true → t.regs = s.regs))) ∧
    Runs .perstDeassert s (fun t => t.perstLow = false ∧ t.sensed = s.sensed ∧ s.keeps t ∧
      (ready → s.sensed = true → t.bootState = 1) ∧ (s.sensed = false → t.regs = s.regs)) ∧
    (s.perstLow = true → exec .perstAssert s = .next s) ∧
    (s.perstLow = false → s.resets = [] → Runs .perstAssert s (fun t => t.perstLow = true ∧ triggers t 3 0 8 ∧
      t.fld R.fxgRstLast 31 [] 3 0 = 8 ∧ t.fld R.fxgRstLast 31 [] 4 4 = 0)) ∧
    Runs .porAssert s (fun t => t.porLow = true ∧ t.mem = [] ∧ t.seqs = [] ∧ t.steps = [] ∧ t.remote = [] ∧ t.rings = [] ∧
      t.host = s.host ∧ t.ident = s.ident ∧ t.pending = s.pending ∧ ∀ n < 60, t.pdState n = 0) ∧
    (s.porLow = false → exec .porDeassert s = .next s) ∧
    (s.porLow = true → Runs .porDeassert s (fun t => t.porLow = false ∧ s.keeps t ∧
      (∀ n < 60, 54 ≤ n → t.pdState n = 1) ∧ ∀ n < 54, t.pdState n = s.pdState n)) ∧
    (s.fnPresent 0 = true →
      (s.bootState = 1 → Runs (.bootGo v) s (fun t => s.wrote t ∧ t.bootState = 2 ∧ t.bootLen = getField v 24 0 ∧
        t.bootWin = s.bootWin)) ∧
      (s.bootState ≠ 1 → Runs (.bootGo v) s (fun t => t = { s with ansStatus := stOK, ansData := [] }))) ∧
    (s.bootState ≠ 2 → exec .bootVerifyDone s = .next s) ∧
    (s.bootState = 2 →
      let tabs := sha3 (s.bootBytes (5632 + s.bootNum 0x010 4) (s.bootNum 0x014 4))
      let code := firstCode s.bootChecks
      (code = 0 → Runs .bootVerifyDone s (fun t => s.keeps t ∧ t.bootState = 3 ∧ t.bootWin = [] ∧
        t.signature = s.deviceSignature (leNat (tabs.take 4)) (s.bootNum 0x006 2) ∧
        t.fld R.fxgLim1 31 [] 39 32 = s.ident.openShareMax % 256 ∧ t.fld R.fxgLim1 31 [] 47 40 = s.ident.radioShareMin % 256)) ∧
      (code ≠ 0 → Runs .bootVerifyDone s (fun t => s.keeps t ∧ t.bootState = 1 ∧ t.fld R.prmBootStat 0 [] 11 8 = code ∧
        t.bootWin = s.bootWin))) ∧
    (s.grants m R.prmLcCmd 31 [] →
      let to_ := getField v 2 0
      let a := getField v 50 3
      let auth := Config.lcAuthorised s.ident.admitted s.ident.uid to_ (fun i => s.byte (a + i))
      let allowed := s.ident.lcState < to_ ∧ to_ ≤ 4 ∧ (to_ = 3 → s.ident.b0 = true)
      (allowed → auth = true → s.steps = [] → s.resets = [] →
        Runs (.lcTransition m v) s (fun t => t.ansStatus = stOK ∧ triggers t 3 0 7 ∧ wiped t 2 ∧ t.ident.lcState = to_ ∧
          (to_ = 4 → t.ident.idKeys = none) ∧ (to_ = 2 ∨ to_ = 3 → t.ident.idKeys.isSome = true) ∧
          t.fld R.prmDbgStat 31 [] 17 16 = 0)) ∧
      (¬ allowed ∨ auth = false →
        Runs (.lcTransition m v) s (fun t => s.wrote t ∧ t.ident = s.ident ∧ t.resets = s.resets ∧ t.wipes = s.wipes))) ∧
    (∀ c, s.steps = [] → Runs (.tamperEvent c) s (fun t => s.keeps t ∧ wiped t 1 ∧ t.tamperStop = true ∧ t.spdm.session = 0 ∧
      t.fld R.prmSecStat 0 [] 0 0 = 1 ∧
      bitOf (t.fld R.prmSecStat 0 [] 3 1) (match c with
        | .glitch => 0
        | .temperature => 1
        | .debug => 2) = true)) ∧
    (1 ≤ fn → s.fnPresent fn = true → s.resets = [] → Runs (.flrVf fn) s (fun t => triggers t 2 fn 1)) ∧
    (fn = 0 ∨ s.fnPresent fn = false → exec (.flrVf fn) s = .next s) ∧
    (s.fnPresent 0 = true → (∀ c ∈ s.cmds, c.ring < 32768) →
      Runs .flrPf s (fun t => t.mem = s.mem ∧ t.seqs = s.seqs ∧ t.cmds = s.cmds.filter (fun c => s.ringPart c.ring != 0) ∧
        (∀ r < 32768, s.ringPart r = 0 → t.ringOn r = false) ∧ t.fld R.prmEvtCfg 0 [] 15 15 = 0 ∧
        t.reg R.prmBootStat 0 [] = s.reg R.prmBootStat 0 [] ∧ t.reg R.prmSecStat 0 [] = s.reg R.prmSecStat 0 []))

/-- While firmware runs and the PF is present the responder answers, and each request changes nothing but the
responder's record. GET_VERSION starts a connection; GET_CAPABILITIES and NEGOTIATE_ALGORITHMS follow in that order.
After them, GET_DIGESTS answers the digests of the chains of the version's slots, GET_CERTIFICATE the chain of such a
slot, CHALLENGE the nonce and all measurements signed by the slot's key, GET_MEASUREMENTS the named blocks, signed
where a slot is named; KEY_EXCHANGE begins a session where none runs, FINISH establishes it and END_SESSION ends it.
A request out of order, for a slot the version lacks or a signature without an identity key is answered with an
error, and the responder that does not run answers nothing. (R506, R508, R509) -/
def Obligations.Attestation : Prop :=
  ∀ (s : State) (v14 : Bool) (slot i : Nat) (nonce : List (BitVec 8)),
    let up := s.bootState = 3 ∧ s.fnPresent 0 = true
    let only (c : Instr) (p : Spdm) : Prop := Runs c s (fun t => t = { s with spdm := p })
    let reply (c : Instr) (r : SpdmReply) : Prop := only c { s.spdm with reply := r }
    let slots := if s.spdm.v14 then [0, 1] else [0]
    let open_ := up ∧ 3 ≤ s.spdm.phase
    let blocks := ([1, 2, 3, 4, 5, 6].filter (fun j => i == 0xFF || i == j)).map (fun j => (j, s.measurement j))
    let text (l : List (Nat × List Byte)) : List Byte := (l.map (fun b => b.2)).flatten
    let all := [1, 2, 3, 4, 5, 6].map (fun j => (j, s.measurement j))
    let later : List Instr := [.spdmGetDigests, .spdmGetCertificate slot, .spdmChallenge slot nonce,
      .spdmGetMeasurements i (some slot), .spdmGetMeasurements i none, .spdmKeyExchange slot, .spdmFinish, .spdmEndSession]
    (¬ up → ∀ c ∈ [.spdmGetVersion, .spdmGetCapabilities v14, .spdmNegotiateAlgorithms v14] ++ later, exec c s = .next s) ∧
    (up → only .spdmGetVersion { phase := 1, reply := .version }) ∧
    (up → 1 ≤ s.spdm.phase →
      only (.spdmGetCapabilities v14) { s.spdm with phase := 2, v14 := v14, reply := .capabilities }) ∧
    (up → s.spdm.phase < 1 → reply (.spdmGetCapabilities v14) .error) ∧
    (up → 2 ≤ s.spdm.phase → only (.spdmNegotiateAlgorithms true) { s.spdm with phase := 3, reply := .algorithms }) ∧
    (up → reply (.spdmNegotiateAlgorithms false) .error) ∧
    (up → s.spdm.phase < 2 → reply (.spdmNegotiateAlgorithms true) .error) ∧
    (up → s.spdm.phase < 3 → ∀ c ∈ later, reply c .error) ∧
    (open_ →
      reply .spdmGetDigests (.digests slots ((slots.map (fun x => sha3 (Config.certChain s.boots x))).flatten)) ∧
      (slot ∈ slots →
        reply (.spdmGetCertificate slot) (.certificate slot (Config.certChain s.boots slot)) ∧
        (∀ k, s.ident.idKeys = some k →
          reply (.spdmChallenge slot nonce) (.challengeAuth slot nonce (Config.deviceSign k slot (nonce ++ text all))) ∧
          (i = 0xFF ∨ (1 ≤ i ∧ i ≤ 6) → reply (.spdmGetMeasurements i (some slot))
            (.measurements blocks (Config.deviceSign k slot (text blocks)))) ∧
          (s.spdm.session = 0 → Runs (.spdmKeyExchange slot) s (fun t => ∃ data,
            t = { s with free := s.free + 1, spdm := { s.spdm with session := 1, reply := .keyExchange slot data } }))) ∧
        (s.ident.idKeys = none →
          reply (.spdmChallenge slot nonce) .error ∧ reply (.spdmGetMeasurements i (some slot)) .error ∧
          reply (.spdmKeyExchange slot) .error)) ∧
      (slot ∉ slots → ∀ c ∈ [.spdmGetCertificate slot, .spdmChallenge slot nonce, .spdmGetMeasurements i (some slot),
        .spdmKeyExchange slot], reply c .error) ∧
      (i = 0xFF ∨ (1 ≤ i ∧ i ≤ 6) → reply (.spdmGetMeasurements i none) (.measurements blocks [])) ∧
      (i ≠ 0xFF → i = 0 ∨ 6 < i → reply (.spdmGetMeasurements i none) .error) ∧
      (s.spdm.session ≠ 0 → reply (.spdmKeyExchange slot) .error) ∧
      (s.spdm.session = 1 → only .spdmFinish { s.spdm with session := 2, reply := .finish }) ∧
      (s.spdm.session ≠ 1 → reply .spdmFinish .error) ∧
      (s.spdm.session = 2 → only .spdmEndSession { s.spdm with session := 0, reply := .endSession }) ∧
      (s.spdm.session ≠ 2 → reply .spdmEndSession .error))

/-- A granted RESET of a valid domain triggers its reset with cause 0, and is refused for another; RELEASE moves a
HELD domain to RESETTING; QUARANTINE takes a free cluster at once and a held one when it is free, UNQUARANTINE gives
it back. A fence moves the reset to DRAINING and ends waiting steps; a drain with no work left moves it to HELD or
RESETTING; its end resets the domain by its level. A reset that misses its time escalates: L0 to L1, L1 to a
withdrawn cluster, L2 to L3, L3 to L4. Each watchdog triggers its reset at its time with its cause; a heartbeat
restarts the count; a disagreement triggers L4. A replay starts on a valid suspect, is refused without one, and ends
COMPLETED, or HUNG with L1 of its cluster. A dump starts, marks a unit that does not answer, and ends when every unit
is scanned. (R514, R516, R517, R519, R521, R523, R524, R527, R528, R529, R530, R531) -/
def Obligations.ResetsAndRecovery : Prop :=
  ∀ (s : State) (m : Master) (v : BitVec 64) (r : ResetRec), Tab.wf s.regs = true → s.held = [] →
    let shows (t : State) (st level target cause : Nat) : Prop :=
      t.fld R.fxgRstStat 31 [] 2 0 = st ∧ t.fld R.fxgRstStat 31 [] 5 3 = level ∧ t.fld R.fxgRstStat 31 [] 19 6 = target ∧
      t.fld R.fxgRstStat 31 [] 23 20 = cause
    let triggers (t : State) (level target cause : Nat) (hold : Bool) : Prop := s.keeps t ∧ shows t 1 level target cause ∧
      t.resets = [{ id := s.nextReset, level := level, target := target, hold := hold, cause := cause, trigLc := t.lc }]
    let c := getField v 21 8
    let low := getField v 2 0 < 5
    let mine := s.resets = [r] ∧ r.under = none ∧ r.late = false ∧ r.level < 5 ∧ r.target < 2 ^ 14 ∧ r.cause < 16
    let replay := s.fld R.prmReplayStat 31 [] 1 0
    (s.grants m R.prmRstCmd 31 [] →
      (s.resetTarget (getField v 2 0) c = true → s.resets = [] → Runs (.rstReset m v) s (fun t =>
        t.ansStatus = stOK ∧ t.lc = s.lc ∧ triggers t (getField v 2 0) c 0 (v.getLsbD 5))) ∧
      (s.resetTarget (getField v 2 0) c = false →
        Runs (.rstReset m v) s (fun t => s.wrote t ∧ t.resets = s.resets)) ∧
      (mine → r.st = .held → r.level = getField v 2 0 → r.target = c → Runs (.rstRelease m v) s (fun t => s.wrote t ∧
        shows t 3 r.level r.target r.cause ∧
        t.resets = [{ r with st := .resetting, heldTicks := r.heldTicks + (s.lc - r.heldFrom) }])) ∧
      ((∀ x ∈ s.resets, x.st ≠ .held) → Runs (.rstRelease m v) s (fun t => s.wrote t ∧ t.resets = s.resets)) ∧
      (∀ p, low → s.physCluster c = some p →
        (s.hasRadio c = false → s.withdrawn p = false → c ∉ s.quarantined → c ∉ s.quarNext →
          (s.holder p = none → Runs (.rstQuarantine m v) s (fun t => s.wrote t ∧ t.quarantined = s.quarantined ++ [c] ∧
            t.quarNext = s.quarNext)) ∧
          (s.holder p ≠ none → Runs (.rstQuarantine m v) s (fun t => s.wrote t ∧ t.quarantined = s.quarantined ∧
            t.quarNext = s.quarNext ++ [c]))) ∧
        (s.hasRadio c = true ∨ s.withdrawn p = true ∨ c ∈ s.quarantined ∨ c ∈ s.quarNext →
          Runs (.rstQuarantine m v) s (fun t => s.wrote t ∧ t.quarantined = s.quarantined ∧ t.quarNext = s.quarNext)) ∧
        ((∀ x, s.holder p = some x → x.replay = false) → Runs (.rstUnquarantine m v) s (fun t => s.wrote t ∧
          t.quarantined = s.quarantined.filter (fun x => x != c) ∧ c ∉ t.quarNext)))) ∧
    (mine → r.st = .fencing → s.cmds = [] → s.seqs = [] → s.eng = [] →
      (s.steps = [] → Runs (.fenceComplete r.id) s (fun t => t.resets = [{ r with st := .draining }] ∧
        shows t 2 r.level r.target r.cause ∧ t.mem = s.mem ∧ (3 ≤ r.level → t.remote = [] ∧ t.tier = []))) ∧
      (∀ x, s.steps = [x] → r.level = 2 → x.part = r.target → x.st = .waiting → x.replay = false → x.cmd = none →
        x.prov = none → x.lsSeq = none → Runs (.fenceComplete r.id) s (fun t => t.resets = [{ r with st := .draining }] ∧
          t.steps = [] ∧ t.mem = s.mem))) ∧
    (mine → r.st = .draining → s.steps = [] → s.seqs = [] →
      (r.hold = true → Runs (.drainComplete r.id) s (fun t => shows t 4 r.level r.target r.cause ∧
        t.resets = [{ r with st := .held, heldFrom := s.lc }])) ∧
      (r.hold = false → Runs (.drainComplete r.id) s (fun t => shows t 3 r.level r.target r.cause ∧
        t.resets = [{ r with st := .resetting }] ∧ (r.level = 3 → t.bootState = 0)))) ∧
    (mine → r.st = .resetting →
      (r.level = 0 → Runs (.resetDone r.id) s (fun t => s.keeps t ∧ t.resets = [] ∧ shows t 0 0 r.target r.cause)) ∧
      (∀ p, r.level = 1 → r.target < 128 → s.physCluster r.target = some p → Runs (.resetDone r.id) s (fun t =>
        let q := s.seq (.cluster p)
        t.resets = [] ∧ shows t 0 1 r.target r.cause ∧ t.mem = s.mem ∧
        t.seq (.cluster p) = { rowMap := q.rowMap, spareUsed := q.spareUsed, retiredPhys := q.retiredPhys } ∧
        ∀ j, j ≠ p → t.seq (.cluster j) = s.seq (.cluster j))) ∧
      (r.level = 1 → 0x100 ≤ r.target → r.target < 0x1C0 → Runs (.resetDone r.id) s (fun t => t.resets = [] ∧
        shows t 0 1 r.target r.cause ∧ t.mem = s.mem ∧ t.seq (.iris (r.target - 0x100)) = {} ∧
        ∀ j, j ≠ r.target - 0x100 → t.seq (.iris j) = s.seq (.iris j))) ∧
      (r.level = 1 → 0x200 ≤ r.target → r.target < 0x300 → Runs (.resetDone r.id) s (fun t => t.resets = [] ∧
        shows t 0 1 r.target r.cause ∧ s.keeps t ∧ t.engq ((r.target - 0x200) / 64) ((r.target - 0x200) % 64) = {})) ∧
      (r.level = 2 → r.target < 64 → Runs (.resetDone r.id) s (fun t => t.resets = [] ∧ shows t 0 2 r.target r.cause ∧
        s.keeps t ∧ t.wsets = s.wsets.filter (fun e => e.2.owner != r.target) ∧ t.fld R.prmEvtCfg r.target [] 15 15 = 0 ∧
        t.reg R.fxgPtDecl 31 [r.target] = 0 ∧ t.reg R.fxgPtNdet 31 [r.target] = 0 ∧
        ∀ i < 32768, s.ringPart i = r.target → t.ringOn i = false)) ∧
      (r.level = 3 → Runs (.resetDone r.id) s (fun t => t.resets = [] ∧
        shows t 0 3 r.target r.cause ∧ t.mem = [] ∧ t.seqs = [] ∧ t.steps = [] ∧ t.remote = [] ∧ t.rings = [] ∧ t.lc = s.lc ∧
        t.ident = s.ident ∧ t.bootState = (if s.perstLow then 0 else 1) ∧ ∀ n < 54, t.pdState n = 0))) ∧
    (mine → r.st ≠ .held →
      (r.level = 0 → r.target < 1024 → Runs (.resetEscalation r.id) s (fun t => s.keeps t ∧
        t.lc = max s.lc (r.trigLc + 20000 + r.heldTicks) ∧ ∃ x y, t.resets = [x, y] ∧ x.id = r.id ∧ x.late = true ∧
          y.level = 1 ∧ y.target = r.target / 8 ∧ y.cause = 6)) ∧
      (∀ p, r.level = 1 → r.target < 128 → s.physCluster r.target = some p → s.holder p = none →
        Runs (.resetEscalation r.id) s (fun t => s.keeps t ∧ t.lc = max s.lc (r.trigLc + 200000 + r.heldTicks) ∧
          t.withdrawn p = true ∧ t.resets = [{ r with late := true }])) ∧
      (r.level = 2 ∨ r.level = 3 → Runs (.resetEscalation r.id) s (fun t => s.keeps t ∧
        t.lc = max s.lc (r.trigLc + (if r.level = 2 then 5000000 else 400000000) + r.heldTicks) ∧
        ∃ x y, t.resets = [x, y] ∧ x.id = r.id ∧ x.late = true ∧ y.level = r.level + 1 ∧ y.target = 0 ∧ y.cause = 6))) ∧
    (s.resets = [] →
      (∀ p k o, p < 128 → k < 8 → s.dieOn (p / 8) = true → ((s.seq (.cluster p)).ctx k).st = .waitRemote →
        s.remote.find? (fun o => o.issuer == .ctx (.cluster p) k && ((s.seq (.cluster p)).ctx k).awaits.contains o.id) = some o →
        Runs (.remoteWaitWdog (.cluster p) k) s (fun t => triggers t 0 (8 * s.logCluster p + k) 2 false ∧
          t.lc = max s.lc (o.t0 + 2100000))) ∧
      (∀ n p x, s.physCluster n = some p → s.holder p = some x → x.replay = false →
        let q := s.seq (.cluster p)
        q.stopped = true → Runs (.quiesceWdog n) s (fun t => triggers t 1 n 3 false ∧
          t.lc = max s.lc (q.lcStart + cdiv ((q.cycles + 4096) * 4096) (max q.lcRate 1)))) ∧
      (∀ i q, (s.engq (i % 4) (q % 64)).running ≠ none →
        Runs (.engineWdog i q) s (fun t => triggers t 1 (0x200 + 64 * (i % 4) + q % 64) 4 false ∧
          t.lc = max s.lc ((s.engq (i % 4) (q % 64)).startLc + 4000000))) ∧
      (s.fld R.prmWdogCfg 31 [] 14 14 = 1 → Runs .heartbeatWdog s (fun t => triggers t 3 0 5 false ∧
        t.lc = max s.lc (s.hbLc + s.fld R.prmWdogCfg 31 [] 13 0 * 1000000))) ∧
      Runs .safetyIslandDisagree s (fun t => triggers t 4 0 9 false ∧ t.lc = s.lc ∧ t.pwrcyc = some 9)) ∧
    (s.fld R.prmWdogCfg 31 [] 14 14 = 0 → exec .heartbeatWdog s = .next s) ∧
    (s.grants m R.prmWdogHb 31 [] → Runs (.heartbeatWrite m v) s (fun t => s.wrote t ∧ t.hbLc = s.lc)) ∧
    (s.grants m R.prmReplayCmd 31 [] → ∀ p, s.physCluster (getField v 6 0) = some p →
      let w := s.suspect p (getField v 8 7)
      let x := s.replayStep (getField w.1 47 0) w.2.1.toNat (getField w.2.2 31 0) (getField w.2.2 37 32) (getField w.2.2 52 45)
      (replay ≠ 1 → w.2.2.getLsbD 63 = true → x.width ≠ 0 → s.replayOk x (s.replaySet x.width) = true →
        Runs (.replayGo m v) s (fun t => t.ansStatus = stOK ∧ t.mem = s.mem ∧ t.fld R.prmReplayStat 31 [] 1 0 = 1 ∧
          t.nextStep = s.nextStep + 1 ∧ ∃ y ∈ t.steps, y.id = s.nextStep ∧ y.replay = true ∧ y.st = .placed ∧
            y.clusters = s.replaySet x.width ∧ y.image = x.image)) ∧
      (replay ≠ 1 → w.2.2.getLsbD 63 = false → Runs (.replayGo m v) s (fun t => s.wrote t ∧
        t.fld R.prmReplayStat 31 [] 1 0 = 2 ∧ t.fld R.prmReplayStat 31 [] 4 2 = 4)) ∧
      (replay = 1 → Runs (.replayGo m v) s (fun t => s.wrote t ∧ t.fld R.prmReplayStat 31 [] 1 0 = 1))) ∧
    (replay ≠ 1 → exec .replayEnd s = .next s) ∧
    (∀ x p, replay = 1 → s.replayRec = some x → x.clusters = [p] → p < 128 →
      ((s.seq (.cluster p)).done = true → Runs .replayEnd s (fun t => t.fld R.prmReplayStat 31 [] 1 0 = 2 ∧
        t.fld R.prmReplayStat 31 [] 4 2 = 1 ∧ t.steps = s.steps.filter (fun y => y.id != x.id) ∧
        (t.seq (.cluster p)).active = false)) ∧
      ((s.seq (.cluster p)).done = false → x.st ≠ .draining → s.resets = [] → s.dieOn (p / 8) = true →
        Runs .replayEnd s (fun t => s.keeps t ∧ t.fld R.prmReplayStat 31 [] 1 0 = 2 ∧ t.fld R.prmReplayStat 31 [] 4 2 = 2 ∧
          t.lc = max s.lc (s.hangLc x) ∧ ∃ y, t.resets = [y] ∧ y.level = 1 ∧ y.target = s.logCluster p))) ∧
    (s.grants m R.prmDumpCmd 31 [] →
      (s.fld R.prmDumpStat 31 [] 1 0 ≠ 1 → Runs (.dumpGo m v) s (fun t => s.wrote t ∧ t.reg R.prmDumpStat 31 [] = 1 ∧
        t.dump = some {
          units := dumpUnits (getField v 31 0) (getField v 34 32), addr := (s.reg R.prmDumpBuf 31 []).toNat
          limit := (s.reg R.prmDumpBuf 31 []).toNat + 1024 * s.fld R.prmDumpCfg 31 [] 31 0 })) ∧
      (s.fld R.prmDumpStat 31 [] 1 0 = 1 → Runs (.dumpGo m v) s (fun t => s.wrote t ∧ t.dump = s.dump))) ∧
    (∀ (j : DumpJob) (die kind unit : Nat) (rest : List (Nat × Nat × Nat)), s.dump = some j →
      j.units = (die, kind, unit) :: rest → die < 32 → kind < 3 → unit < 0x10000 → j.addr + 64 ≤ j.limit → s.canonical = true →
      Runs (.dumpScanTimeout 0) s (fun t => s.keeps t ∧ t.lc = s.lc + 1000 * s.fld R.prmDumpCfg 31 [] 45 32 ∧
        t.dump = some { j with units := rest, addr := j.addr + 64 } ∧ t.hostNum j.addr 1 = die ∧ t.hostNum (j.addr + 1) 1 = kind ∧
        t.hostNum (j.addr + 2) 2 = unit ∧ t.hostNum (j.addr + 4) 1 = 1 ∧ t.hostNum (j.addr + 8) 4 = 0)) ∧
    (∀ j, s.dump = some j → Runs .dumpComplete s (fun t => s.keeps t ∧ t.dump = none ∧ t.fld R.prmDumpStat 31 [] 1 0 = 2))

/-- A powered, open port takes each TAP instruction that its level allows: it captures the register it names and
updates the debug registers it writes; BYPASS and IDCODE need no level; TRST ends the grant. On a path that holds the
level: HALT halts its unit, and is refused for no unit or, without FORCE, for radio work; RESUME lets it run; STEP
runs a halted unit for COUNT cycles, at whose end it halts again; GSTOP and DBG_STOP_N stop every active unit;
GRESUME names the instant at which the stop ends, between 2 us and 1 s ahead, and is refused with no stop; MEM_RD and
MEM_WR move 8 bytes and advance the address; AUTH_NONCE fills the buffer with a fresh nonce; a good AUTH_TOKEN grants
its LEVEL and spends the nonce, a bad one does not. RESULT says how each ended. (R546, R547, R548, R549, R550, R551,
R552, R553, R557, R558, R560, R570) -/
def Obligations.DebugPort : Prop :=
  ∀ (s : State) (p : DbgPath) (v : BitVec 64), s.unobserved → s.held = [] → s.canonical = true →
    let arrives := match p with
      | .tap => s.pdOn 58 = true ∧ s.ident.lcState < 4
      | .host m => s.grants m R.prmDbgCmd 31 []
    let can (n : Nat) : Prop := arrives ∧ n ≤ s.pathLevel p
    let result (t : State) : Nat := t.fld R.prmDbgStat 31 [] 15 8
    let refused (t : State) : Prop := s.keeps t ∧ result t = stNoUnit
    let runs (t : State) (u : SeqUnit) : Prop := t.mem = s.mem ∧ t.steps = s.steps ∧ result t = stOK ∧
      ∀ w ∈ allUnits, w ≠ u → t.seq w = s.seq w
    let target := getField v 21 8
    let open_ (n : Nat) : Prop := s.pdOn 58 = true ∧ s.ident.lcState < 4 ∧ n ≤ s.tapLevel
    let taken (c : Instr) (ir : Nat) (data : List Byte) : Prop := Runs c s (fun t => s.keeps t ∧ t.tapIr = ir ∧ t.ansData = data)
    let a := s.fld R.prmDbgAddr 31 [] 47 0
    let plain := (∀ d o, regionOf a ≠ .regs d o) ∧ s.heldOff (.debug (s.pathLevel p)) a 8 = false
    let listed := v.toNat % 256 ∈ [0x00, 0x01, 0x02, 0x10, 0x11, 0x12, 0x13, 0x14]
    (s.pdOn 58 = false → exec .tapIdcode s = .next s ∧ exec .dbgStopNAssert s = .next s) ∧
    (s.pdOn 58 = true →
      taken .tapIdcode 1 (leBytes 4 (1 + 0x2B5 * 2 + (if s.ident.vx3214 then 0x5814 else 0x5816) * 2 ^ 12 + b2n s.ident.b0 * 2 ^ 28)) ∧
      (¬ listed → taken (.tapBypass (v.setWidth 8)) (v.toNat % 256) [0]) ∧
      (listed → exec (.tapBypass (v.setWidth 8)) s = .next s)) ∧
    (open_ 3 → Runs .tapExtest s (fun t => s.keeps t ∧ t.tapIr = 0 ∧ t.regs = s.regs) ∧
      Runs .tapSamplePreload s (fun t => s.keeps t ∧ t.tapIr = 2 ∧ t.regs = s.regs)) ∧
    (s.pdOn 58 = true → s.tapLevel < 3 → s.ident.lcState ≠ 3 →
      Runs .tapExtest s (fun t => refused t ∧ t.tapIr = s.tapIr) ∧ Runs .tapSamplePreload s (fun t => refused t ∧ t.tapIr = s.tapIr)) ∧
    (open_ 1 →
      taken (.tapDbgAddr v) 0x11 (leBytes 8 (s.view R.prmDbgAddr 31 []).toNat) ∧
      taken (.tapDbgData v) 0x12 (leBytes 8 (s.view R.prmDbgData 31 []).toNat) ∧
      Runs (.tapDbgAddr v) s (fun t => t.fld R.prmDbgAddr 31 [] 47 0 = getField v 47 3 * 8) ∧
      Runs (.tapDbgData v) s (fun t => t.reg R.prmDbgData 31 [] = v)) ∧
    (open_ 0 →
      taken .tapDbgStat 0x13 (leBytes 8 (s.view R.prmDbgStat 31 []).toNat) ∧
      exec (.tapDbgCmd (setField v 7 0 1)) s =
        exec (.dbgHalt .tap v) { s with tapIr := 0x10, ansStatus := stOK, ansData := List.replicate 8 0 } ∧
      (let off := getField v 11 2 * 4
       Runs (.tapDbgAuth (v.setWidth 48)) s (fun t => s.keeps t ∧ t.tapIr = 0x14 ∧ t.authOfs = off ∧
        t.ansData = leBytes 2 s.authOfs ++ s.authBytes s.authOfs 4 ∧ t.authBytes off 4 = leBytes 4 (getField v 47 16)))) ∧
    Runs .trstAssert s (fun t => s.keeps t ∧ t.tapIr = 1 ∧ t.fld R.prmDbgStat 31 [] 17 16 = 0) ∧
    (can 2 →
      (∀ u, s.dbgUnit target = some u →
        (s.radioUnit u = false ∨ v.getLsbD 38 = true → Runs (.dbgHalt p v) s (fun t => runs t u ∧ (t.seq u).dbgHalted = true ∧
          (t.seq u).ctxs = (s.seq u).ctxs ∧ ((s.seq u).dbgHalted = false → (t.seq u).dbgCause = 1))) ∧
        (s.radioUnit u = true → v.getLsbD 38 = false → Runs (.dbgHalt p v) s (fun t => refused t)) ∧
        ((s.seq u).dbgHalted = true → s.gstopped = false →
          Runs (.dbgResume p v) s (fun t => runs t u ∧ (t.seq u).dbgHalted = false ∧ (t.seq u).ctxs = (s.seq u).ctxs ∧
            (t.seq u).lcStart = (s.seq u).lcStart + (s.lc - (s.seq u).dbgHaltLc)) ∧
          (getField v 37 22 ≠ 0 → Runs (.dbgStep p v) s (fun t => runs t u ∧ (t.seq u).dbgHalted = false ∧
            (t.seq u).dbgStep = some ((s.seq u).cycles + getField v 37 22)))) ∧
        ((s.seq u).dbgHalted = false ∨ getField v 37 22 = 0 ∨ s.gstopped = true → Runs (.dbgStep p v) s (fun t => refused t))) ∧
      (s.dbgUnit target = none → Runs (.dbgHalt p v) s (fun t => refused t) ∧ Runs (.dbgResume p v) s (fun t => refused t) ∧
        Runs (.dbgStep p v) s (fun t => refused t)) ∧
      (s.gstopped = false → Runs (.dbgGstop p) s (fun t => t.gstopped = true ∧ t.fld R.prmDbgStat 31 [] 4 2 = 0 ∧
        t.gstopLc = s.lc ∧ t.mem = s.mem ∧ result t = stOK ∧
        ∀ u ∈ allUnits, (s.seq u).active = true → (t.seq u).dbgHalted = true)) ∧
      (∀ x, s.gstopped = true → s.fld R.prmDbgStat 31 [] 4 2 ≠ 3 → x = s.lc / 2 ^ 48 * 2 ^ 48 + a → s.lc + 2000 ≤ x →
        x ≤ s.lc + 1000000000 → Runs (.dbgGresume p) s (fun t => s.keeps t ∧ t.gresume = some x ∧ result t = stOK)) ∧
      (s.gstopped = false → Runs (.dbgGresume p) s (fun t => refused t ∧ t.gresume = s.gresume)) ∧
      (plain → s.memStatus 0 a 8 = stOK → Runs (.dbgMemRd p) s (fun t => s.keeps t ∧ result t = stOK ∧
        t.reg R.prmDbgData 31 [] = BitVec.ofNat 64 (s.num a 8) ∧ t.fld R.prmDbgAddr 31 [] 47 0 = (a + 8) % 2 ^ 48)) ∧
      (plain → s.memStatus 0 a 8 ≠ stOK → Runs (.dbgMemRd p) s (fun t => s.keeps t ∧ result t = s.memStatus 0 a 8 ∧
        t.reg R.prmDbgData 31 [] = 0)) ∧
      (plain → s.memWriteStatus 0 a 8 = stOK → Runs (.dbgMemWr p) s (fun t => t.steps = s.steps ∧ result t = stOK ∧
        t.num a 8 = (s.reg R.prmDbgData 31 []).toNat ∧ t.fld R.prmDbgAddr 31 [] 47 0 = (a + 8) % 2 ^ 48 ∧
        ∀ b, (b < a ∨ a + 8 ≤ b) → t.byte b = s.byte b))) ∧
    (can 0 →
      Runs (.dbgAuthNonce p) s (fun t => s.keeps t ∧ result t = stOK ∧ ∃ b, t.nonce = some b ∧ b.length = 32 ∧
        t.authBytes 0 32 = b) ∧
      (s.tokenOk = true → Runs (.dbgAuthToken p) s (fun t => s.keeps t ∧ result t = stOK ∧ t.nonce = none ∧
        t.fld R.prmDbgStat 31 [] 17 16 = leNat (s.authBytes 0x30 1))) ∧
      (s.tokenOk = false → s.ident.lcState ≠ 3 → Runs (.dbgAuthToken p) s (fun t => refused t ∧ t.nonce = s.nonce ∧
        t.fld R.prmDbgStat 31 [] 17 16 = s.fld R.prmDbgStat 31 [] 17 16))) ∧
    (∀ u, let q := s.seq u
      (q.dbgStep = none → exec (.dbgStepEnd u) s = .next s) ∧
      (∀ e, q.dbgStep = some e → q.run = none ∨ q.canIssue = false → q.pend = [] → q.stopped = false → q.active = true →
        q.dbgHalted = false → Runs (.dbgStepEnd u) s (fun t => t.mem = s.mem ∧ t.steps = s.steps ∧
          t.lc = max s.lc (s.cycleLc u (e - (q.frzUnsched + q.frzOwn))) ∧ (t.seq u).dbgHalted = true ∧ (t.seq u).dbgCause = 4 ∧
          (t.seq u).ctxs = q.ctxs))) ∧
    (s.pdOn 58 = true → s.gstopped = false → Runs .dbgStopNAssert s (fun t => t.gstopped = true ∧
      t.fld R.prmDbgStat 31 [] 4 2 = 4 ∧ t.mem = s.mem ∧
      ∀ u ∈ allUnits, (s.seq u).active = true → (t.seq u).dbgHalted = true)) ∧
    (s.gresume = none → exec .globalResume s = .next s) ∧
    (∀ x, s.gresume = some x → s.gstopped = true → Runs .globalResume s (fun t => t.gstopped = false ∧ t.gresume = none ∧
      t.lc = max s.lc x ∧ t.mem = s.mem ∧
      ∀ u ∈ allUnits, (t.seq u).dbgHalted = ((s.seq u).dbgHalted && (s.seq u).dbgCause != 5)))

/-- A granted PRM_PD_CMD that R577 refuses, or whose domain already reads its target, starts nothing; another puts
its domain into transition, and one that goes OFF loses its state; the end of the transition gives the target state,
and a Dahlia domain 2d + 1 then starts a wipe of its sealed region and trains its stack. A power sample at the next
10 us gives PRM_PWR_STAT.POWER as the average of the last 100 readings and sets or clears the CAUSE bits by the
thresholds, the hysteresis and 1 ms; a temperature sample at the next 100 us does so for the die temperatures and
shows each; LEVEL is the highest that a CAUSE bit demands and PRM_PWR_STAT.THR copies it. A die at 115 C asserts
THERMTRIP_N. A PRM_PWR_CFG value beyond the limits is refused whole. The sideband answers telemetry and takes a card
limit of 0 or 500 to 2150, and NACKs another. The windows' bounds between samples are the model's choice (log entry
62). (R575, R576, R577, R580, R581, R582, R583, R585, R228) -/
def Obligations.PowerAndHeat : Prop :=
  ∀ (s : State) (m : Master) (v : BitVec 64), Tab.wf s.regs = true → Tab.wf s.pdGo = true → Tab.wf s.power.below = true →
    s.held = [] →
    let n := getField v 5 0
    let still (t : State) : Prop := s.wrote t ∧ t.pdGo = s.pdGo ∧ ∀ k < 60, t.pdState k = s.pdState k
    let moves (t : State) (goal : Nat) : Prop := t.ansStatus = stOK ∧ t.pdState n = 2 ∧ t.pdGo.find n = some goal ∧ t.lc = s.lc ∧
      t.steps = s.steps ∧ ∀ k < 60, k ≠ n → t.pdState k = s.pdState k
    let level (t : State) : Prop :=
      let c (b : Nat) : Prop := t.fld R.fxgThrottle 31 [] b b = 1
      t.fld R.fxgThrottle 31 [] 1 0 = (if c 3 ∨ c 5 ∨ c 7 then 2 else if c 2 ∨ c 4 ∨ c 6 then 1 else 0) ∧
      t.fld R.prmPwrStat 31 [] 39 32 = t.fld R.fxgThrottle 31 [] 7 0
    let cause (t : State) (b : Nat) (high low : Prop) : Prop :=
      let was := s.fld R.fxgThrottle 31 [] b b
      let now := t.fld R.fxgThrottle 31 [] b b
      (high → now = 1) ∧ (¬ high → was = 0 → now = 0) ∧ (¬ high → ¬ low → now = was) ∧
      (low → ¬ high → s.power.below.find b = none → now = was) ∧
      (∀ x, low → ¬ high → was = 1 → s.power.below.find b = some x → now = if x + 1000000 ≤ t.lc then 0 else 1)
    let cfg (hi lo : Nat) := s.fld R.prmPwrCfg 31 [] hi lo
    (s.grants m R.prmPdCmd 31 [] →
      (s.pdRefused n true = true → Runs (.pdCmdOn m v) s (fun t => still t)) ∧
      (s.pdRefused n false = true → Runs (.pdCmdOff m v) s (fun t => still t)) ∧
      (s.pdRefused n true = false →
        (s.pdState n = 1 → Runs (.pdCmdOn m v) s (fun t => still t ∧ t.regs = s.regs)) ∧
        (s.pdState n = 0 → Runs (.pdCmdOn m v) s (fun t => s.wrote t ∧ moves t 1))) ∧
      (s.pdRefused n false = false →
        (s.pdState n = 0 → Runs (.pdCmdOff m v) s (fun t => still t ∧ t.regs = s.regs)) ∧
        (s.pdState n = 1 → Runs (.pdCmdOff m v) s (fun t => moves t 0 ∧
          (n < 40 ∧ n % 2 = 1 ∨ n = 53 ∨ t.mem = s.mem) ∧
          (∀ o, n < 32 → n % 2 = 1 → o < 0x1000000000 → t.byte (hbmBase (n / 2) + o) = 0) ∧
          (∀ l < 8, n < 32 → (n % 2 = 1 → t.seq (.cluster (8 * (n / 2) + l)) = {}) ∧
            (n % 2 = 0 → (t.seq (.cluster (8 * (n / 2) + l))).acc = []))))) ) ∧
    (∀ k, (s.pdGo.find k = none → exec (.pdTransitionDone k) s = .next s) ∧
      (∀ x, k < 60 → x < 2 → s.pdGo.find k = some x → Runs (.pdTransitionDone k) s (fun t =>
        s.keeps t ∧ t.pdState k = x ∧ t.pdGo.find k = none ∧ (∀ j < 60, j ≠ k → t.pdState j = s.pdState j) ∧
        (x = 1 → k < 32 → k % 2 = 1 → t.training = s.training ++ [k / 2] ∧
          t.wipes = s.wipes ++ [{ die := k / 2, cause := 4, slices := 255 }])))) ∧
    (∀ power rail, s.pdOn 54 = true → (∀ x ∈ s.power.watts, x < 65536) → Runs (.powerSample power rail) s (fun t =>
      let l := (min power 65535 :: s.power.watts).take 100
      let atLeast (l : List Nat) (w : Nat) : Prop := w * 8 * l.length ≤ l.sum
      let below (l : List Nat) (w : Nat) : Prop := l.sum + 200 * l.length ≤ w * 8 * l.length
      (s.steps = [] → t.mem = s.mem) ∧ t.lc = (s.lc / 10000 + 1) * 10000 ∧ t.power.watts = l ∧
      t.fld R.prmPwrStat 31 [] 15 0 = l.sum / l.length ∧ level t ∧
      cause t 4 (atLeast l (cfg 31 16)) (below l (cfg 31 16)) ∧
      cause t 5 (atLeast (l.take 10) (cfg 47 32)) (below (l.take 10) (cfg 47 32)) ∧
      cause t 6 (s.cardLimit ≠ 0 ∧ atLeast l s.cardLimit) (s.cardLimit = 0 ∨ below l s.cardLimit) ∧
      cause t 7 (950 < rail) (rail ≤ 950))) ∧
    (∀ temps : List Int, s.pdOn 54 = true → Runs (.tempSample temps) s (fun t =>
      let c (d : Nat) : Int := max (-128) (min 127 (temps.getD d 0))
      let hot (d : Nat) : Prop := d < 32 ∧ s.dieHot d = true
      (s.steps = [] → t.mem = s.mem) ∧ t.lc = (s.lc / 100000 + 1) * 100000 ∧ level t ∧
      (∀ d < 32, t.fld R.prmTemp 31 [d / 8] (8 * (d % 8) + 7) (8 * (d % 8)) = if s.dieHot d then wrapInt 8 (c d) else 0) ∧
      (∀ d, hot d → (∀ e, hot e → c e ≤ c d) → t.fld R.prmPwrStat 31 [] 23 16 = wrapInt 8 (c d)) ∧
      cause t 2 (∃ d, hot d ∧ (cfg 7 0 : Int) ≤ c d) (∀ d, hot d → c d ≤ (cfg 7 0 : Int) - 2) ∧
      cause t 3 (∃ d, hot d ∧ (cfg 15 8 : Int) ≤ c d) (∀ d, hot d → c d ≤ (cfg 15 8 : Int) - 2))) ∧
    (s.pdOn 54 = false → (∀ power rail, exec (.powerSample power rail) s = .next s) ∧
      ∀ temps, exec (.tempSample temps) s = .next s) ∧
    (∀ d < 32, s.porLow = false → s.dieOn d = true → exec (.thermtrip d) s = .next { s with thermtrip := true }) ∧
    (s.grants m R.prmPwrCfg 31 [] →
      let bad := s.fld R.fxgPwrLim 31 [] 23 16 < getField v 15 8 ∨ s.fld R.fxgPwrLim 31 [] 15 0 < getField v 47 32 ∨
        getField v 15 8 < getField v 7 0 ∨ getField v 47 32 < getField v 31 16
      (bad → Runs (.pwrCfgWrite m v) s (fun t => s.wrote t ∧ t.reg R.prmPwrCfg 31 [] = s.reg R.prmPwrCfg 31 [])) ∧
      (¬ bad → Runs (.pwrCfgWrite m v) s (fun t => s.wrote t ∧ t.fld R.prmPwrCfg 31 [] 47 0 = getField v 47 0))) ∧
    (s.porLow = false →
      (let data := leBytes 2 (s.fld R.prmPwrStat 31 [] 15 0) ++ leBytes 1 (s.fld R.prmPwrStat 31 [] 23 16) ++
         leBytes 1 (s.fld R.prmPwrStat 31 [] 28 24) ++ leBytes 1 (s.fld R.prmPwrStat 31 [] 39 32)
       Runs .i3cTelemetryRead s (fun t => t = { s with ansStatus := stOK, ansData := data })) ∧
      (∀ w, (w = 0 ∨ 500 ≤ w ∧ w ≤ 2150) →
        Runs (.i3cCardLimit w) s (fun t => t = { s with cardLimit := w, ansStatus := stOK, ansData := [] })) ∧
      (∀ w, w ≠ 0 → w < 500 ∨ 2150 < w →
        Runs (.i3cCardLimit w) s (fun t => t.cardLimit = s.cardLimit ∧ s.keeps t ∧ t.ansStatus = stNoUnit)))
end

