-- ==== Sys2Proof/Laws/Tab.lean ====
section
/-! SUPPORT. The laws of sparse tables: what a table lists after a put, a removal or a filter, and that each keeps the keys
strictly rising. -/
namespace Sys2Proof.Machine

variable {α : Type}

/-- A key just put is found with its value. -/
@[simp] theorem Tab.find_put_same (t : Tab α) (k : Nat) (v : α) : Tab.find (Tab.put t k v) k = some v := by
  induction t with
  | nil => simp [Tab.put, Tab.find]
  | cons e t ih =>
    obtain ⟨a, b⟩ := e
    simp only [Tab.put]
    split
    · simp [Tab.find]
    · split
      · simp [Tab.find]
      · rename_i h1 h2
        simp [Tab.find, h1, h2, ih]

/-- Another key reads as before a put. -/
theorem Tab.find_put_ne (t : Tab α) {k j : Nat} (v : α) (h : j ≠ k) : Tab.find (Tab.put t k v) j = Tab.find t j := by
  induction t with
  | nil => simp only [Tab.put, Tab.find]; split <;> simp_all
  | cons e t ih =>
    obtain ⟨a, b⟩ := e
    simp only [Tab.put]
    split
    · simp only [Tab.find]
      split
      · split
        · rfl
        · omega
      · simp
    · split
      · subst_vars
        simp only [Tab.find, if_neg h]
      · simp only [Tab.find, ih]

@[simp] theorem Tab.getD_put_same (t : Tab α) (k : Nat) (v d : α) : Tab.getD (Tab.put t k v) k d = v := by
  simp [Tab.getD]

theorem Tab.getD_put_ne (t : Tab α) {k j : Nat} (v d : α) (h : j ≠ k) :
    Tab.getD (Tab.put t k v) j d = Tab.getD t j d := by
  simp [Tab.getD, Tab.find_put_ne t v h]

/-- Of two puts of one key the later one counts. -/
@[simp] theorem Tab.put_put (t : Tab α) (k : Nat) (v w : α) : Tab.put (Tab.put t k v) k w = Tab.put t k w := by
  induction t with
  | nil => simp [Tab.put]
  | cons e t ih =>
    obtain ⟨a, b⟩ := e
    simp only [Tab.put]
    split
    · simp [Tab.put]
    · split
      · simp [Tab.put]
      · rename_i h1 h2
        simp [Tab.put, h1, h2, ih]

/-- A lower bound of the keys may be lowered. -/
theorem Tab.risingFrom_mono {n m : Nat} (t : Tab α) (h : m ≤ n) (ht : Tab.risingFrom n t = true) :
    Tab.risingFrom m t = true := by
  cases t with
  | nil => rfl
  | cons e t =>
    obtain ⟨a, b⟩ := e
    simp only [Tab.risingFrom, Bool.and_eq_true, decide_eq_true_eq] at ht ⊢
    exact ⟨by omega, ht.2⟩

/-- A put keeps the keys rising from a bound at or below its key. -/
theorem Tab.risingFrom_put (t : Tab α) (n k : Nat) (v : α) (hk : n ≤ k) (ht : Tab.risingFrom n t = true) :
    Tab.risingFrom n (Tab.put t k v) = true := by
  induction t generalizing n with
  | nil => simp [Tab.put, Tab.risingFrom, hk]
  | cons e t ih =>
    obtain ⟨a, b⟩ := e
    simp only [Tab.risingFrom, Bool.and_eq_true, decide_eq_true_eq] at ht
    simp only [Tab.put]
    split
    · simp only [Tab.risingFrom, Bool.and_eq_true, decide_eq_true_eq]
      exact ⟨hk, by omega, ht.2⟩
    · split
      · subst_vars
        simp only [Tab.risingFrom, Bool.and_eq_true, decide_eq_true_eq]
        exact ⟨hk, ht.2⟩
      · simp only [Tab.risingFrom, Bool.and_eq_true, decide_eq_true_eq]
        exact ⟨ht.1, ih (a + 1) (by omega) ht.2⟩

/-- A removal keeps the keys rising. -/
theorem Tab.risingFrom_del (t : Tab α) (n k : Nat) (ht : Tab.risingFrom n t = true) :
    Tab.risingFrom n (Tab.del t k) = true := by
  induction t generalizing n with
  | nil => rfl
  | cons e t ih =>
    obtain ⟨a, b⟩ := e
    simp only [Tab.risingFrom, Bool.and_eq_true, decide_eq_true_eq] at ht
    simp only [Tab.del]
    split
    · simp [Tab.risingFrom, ht.1, ht.2]
    · split
      · exact Tab.risingFrom_mono t (by omega) ht.2
      · simp only [Tab.risingFrom, Bool.and_eq_true, decide_eq_true_eq]
        exact ⟨ht.1, ih (a + 1) ht.2⟩

/-- A filter keeps the keys rising. -/
theorem Tab.risingFrom_filter (t : Tab α) (n : Nat) (p : Nat × α → Bool) (ht : Tab.risingFrom n t = true) :
    Tab.risingFrom n (t.filter p) = true := by
  induction t generalizing n with
  | nil => rfl
  | cons e t ih =>
    obtain ⟨a, b⟩ := e
    simp only [Tab.risingFrom, Bool.and_eq_true, decide_eq_true_eq] at ht
    simp only [List.filter]
    split
    · simp only [Tab.risingFrom, Bool.and_eq_true, decide_eq_true_eq]
      exact ⟨ht.1, ih (a + 1) ht.2⟩
    · exact Tab.risingFrom_mono _ (by omega) (ih (a + 1) ht.2)

theorem Tab.wf_put (t : Tab α) (k : Nat) (v : α) (ht : Tab.wf t = true) : Tab.wf (Tab.put t k v) = true :=
  Tab.risingFrom_put t 0 k v (Nat.zero_le k) ht

theorem Tab.wf_del (t : Tab α) (k : Nat) (ht : Tab.wf t = true) : Tab.wf (Tab.del t k) = true :=
  Tab.risingFrom_del t 0 k ht

theorem Tab.wf_keep (t : Tab α) (p : Nat → Bool) (ht : Tab.wf t = true) : Tab.wf (Tab.keep t p) = true :=
  Tab.risingFrom_filter t 0 _ ht

/-- What a table with rising keys lists at a key below its bound: nothing. -/
theorem Tab.find_below (t : Tab α) (n k : Nat) (hk : k < n) (ht : Tab.risingFrom n t = true) : Tab.find t k = none := by
  cases t with
  | nil => rfl
  | cons e t =>
    obtain ⟨a, b⟩ := e
    simp only [Tab.risingFrom, Bool.and_eq_true, decide_eq_true_eq] at ht
    simp [Tab.find, show k < a by omega]

/-- A key removed is not found. -/
theorem Tab.find_del_same (t : Tab α) (n k : Nat) (ht : Tab.risingFrom n t = true) : Tab.find (Tab.del t k) k = none := by
  induction t generalizing n with
  | nil => rfl
  | cons e t ih =>
    obtain ⟨a, b⟩ := e
    simp only [Tab.risingFrom, Bool.and_eq_true, decide_eq_true_eq] at ht
    simp only [Tab.del]
    split
    · rename_i h; simp [Tab.find, h]
    · split
      · exact Tab.find_below t (a + 1) k (by omega) ht.2
      · rename_i h1 h2
        simp [Tab.find, h1, h2, ih (a + 1) ht.2]

/-- Another key reads as before a removal. -/
theorem Tab.find_del_ne (t : Tab α) (n : Nat) {k j : Nat} (h : j ≠ k) (ht : Tab.risingFrom n t = true) :
    Tab.find (Tab.del t k) j = Tab.find t j := by
  induction t generalizing n with
  | nil => rfl
  | cons e t ih =>
    obtain ⟨a, b⟩ := e
    simp only [Tab.risingFrom, Bool.and_eq_true, decide_eq_true_eq] at ht
    simp only [Tab.del]
    split
    · rfl
    · split
      · rename_i h2
        simp only [Tab.find]
        split
        · exact Tab.find_below t (a + 1) j (by omega) ht.2
        · rw [if_neg (by omega)]
      · simp only [Tab.find, ih (a + 1) ht.2]

end Sys2Proof.Machine
end

