-- ==== Sys2Proof/Laws/State.lean ====
section
/-! SUPPORT. What each update of the state leaves in each field, so that no proof unfolds a record update. -/
namespace Sys2Proof.Machine

variable (s : State)

/-! A register replaced. -/

@[simp] theorem State.setReg_pending (r : RegD) (d : Nat) (ix : List Nat) (v : Word) : (s.setReg r d ix v).pending = s.pending := rfl
@[simp] theorem State.setReg_free (r : RegD) (d : Nat) (ix : List Nat) (v : Word) : (s.setReg r d ix v).free = s.free := rfl
@[simp] theorem State.setReg_ident (r : RegD) (d : Nat) (ix : List Nat) (v : Word) : (s.setReg r d ix v).ident = s.ident := rfl
@[simp] theorem State.setReg_lc (r : RegD) (d : Nat) (ix : List Nat) (v : Word) : (s.setReg r d ix v).lc = s.lc := rfl
@[simp] theorem State.setReg_tb (r : RegD) (d : Nat) (ix : List Nat) (v : Word) : (s.setReg r d ix v).tb = s.tb := rfl
@[simp] theorem State.setReg_ofs (r : RegD) (d : Nat) (ix : List Nat) (v : Word) : (s.setReg r d ix v).ofs = s.ofs := rfl
@[simp] theorem State.setReg_ofsStep (r : RegD) (d : Nat) (ix : List Nat) (v : Word) : (s.setReg r d ix v).ofsStep = s.ofsStep := rfl
@[simp] theorem State.setReg_syncLc (r : RegD) (d : Nat) (ix : List Nat) (v : Word) : (s.setReg r d ix v).syncLc = s.syncLc := rfl
@[simp] theorem State.setReg_alignPend (r : RegD) (d : Nat) (ix : List Nat) (v : Word) : (s.setReg r d ix v).alignPend = s.alignPend := rfl
@[simp] theorem State.setReg_replicas (r : RegD) (d : Nat) (ix : List Nat) (v : Word) : (s.setReg r d ix v).replicas = s.replicas := rfl
@[simp] theorem State.setReg_mem (r : RegD) (d : Nat) (ix : List Nat) (v : Word) : (s.setReg r d ix v).mem = s.mem := rfl
@[simp] theorem State.setReg_host (r : RegD) (d : Nat) (ix : List Nat) (v : Word) : (s.setReg r d ix v).host = s.host := rfl
@[simp] theorem State.setReg_badWords (r : RegD) (d : Nat) (ix : List Nat) (v : Word) : (s.setReg r d ix v).badWords = s.badWords := rfl
@[simp] theorem State.setReg_seqs (r : RegD) (d : Nat) (ix : List Nat) (v : Word) : (s.setReg r d ix v).seqs = s.seqs := rfl
@[simp] theorem State.setReg_tokens (r : RegD) (d : Nat) (ix : List Nat) (v : Word) : (s.setReg r d ix v).tokens = s.tokens := rfl
@[simp] theorem State.setReg_remote (r : RegD) (d : Nat) (ix : List Nat) (v : Word) : (s.setReg r d ix v).remote = s.remote := rfl
@[simp] theorem State.setReg_nextOp (r : RegD) (d : Nat) (ix : List Nat) (v : Word) : (s.setReg r d ix v).nextOp = s.nextOp := rfl
@[simp] theorem State.setReg_fabSeq (r : RegD) (d : Nat) (ix : List Nat) (v : Word) : (s.setReg r d ix v).fabSeq = s.fabSeq := rfl
@[simp] theorem State.setReg_homes (r : RegD) (d : Nat) (ix : List Nat) (v : Word) : (s.setReg r d ix v).homes = s.homes := rfl
@[simp] theorem State.setReg_links (r : RegD) (d : Nat) (ix : List Nat) (v : Word) : (s.setReg r d ix v).links = s.links := rfl
@[simp] theorem State.setReg_egress (r : RegD) (d : Nat) (ix : List Nat) (v : Word) : (s.setReg r d ix v).egress = s.egress := rfl
@[simp] theorem State.setReg_yellowQ (r : RegD) (d : Nat) (ix : List Nat) (v : Word) : (s.setReg r d ix v).yellowQ = s.yellowQ := rfl
@[simp] theorem State.setReg_localReqs (r : RegD) (d : Nat) (ix : List Nat) (v : Word) : (s.setReg r d ix v).localReqs = s.localReqs := rfl
@[simp] theorem State.setReg_localReps (r : RegD) (d : Nat) (ix : List Nat) (v : Word) : (s.setReg r d ix v).localReps = s.localReps := rfl
@[simp] theorem State.setReg_mirrors (r : RegD) (d : Nat) (ix : List Nat) (v : Word) : (s.setReg r d ix v).mirrors = s.mirrors := rfl
@[simp] theorem State.setReg_spareElec (r : RegD) (d : Nat) (ix : List Nat) (v : Word) : (s.setReg r d ix v).spareElec = s.spareElec := rfl
@[simp] theorem State.setReg_eng (r : RegD) (d : Nat) (ix : List Nat) (v : Word) : (s.setReg r d ix v).eng = s.eng := rfl
@[simp] theorem State.setReg_stimers (r : RegD) (d : Nat) (ix : List Nat) (v : Word) : (s.setReg r d ix v).stimers = s.stimers := rfl
@[simp] theorem State.setReg_bh (r : RegD) (d : Nat) (ix : List Nat) (v : Word) : (s.setReg r d ix v).bh = s.bh := rfl
@[simp] theorem State.setReg_crkFlows (r : RegD) (d : Nat) (ix : List Nat) (v : Word) : (s.setReg r d ix v).crkFlows = s.crkFlows := rfl
@[simp] theorem State.setReg_crkPaths (r : RegD) (d : Nat) (ix : List Nat) (v : Word) : (s.setReg r d ix v).crkPaths = s.crkPaths := rfl
@[simp] theorem State.setReg_crkPorts (r : RegD) (d : Nat) (ix : List Nat) (v : Word) : (s.setReg r d ix v).crkPorts = s.crkPorts := rfl
@[simp] theorem State.setReg_crkWait (r : RegD) (d : Nat) (ix : List Nat) (v : Word) : (s.setReg r d ix v).crkWait = s.crkWait := rfl
@[simp] theorem State.setReg_crkWords (r : RegD) (d : Nat) (ix : List Nat) (v : Word) : (s.setReg r d ix v).crkWords = s.crkWords := rfl
@[simp] theorem State.setReg_crkHost (r : RegD) (d : Nat) (ix : List Nat) (v : Word) : (s.setReg r d ix v).crkHost = s.crkHost := rfl
@[simp] theorem State.setReg_rclkLow (r : RegD) (d : Nat) (ix : List Nat) (v : Word) : (s.setReg r d ix v).rclkLow = s.rclkLow := rfl
@[simp] theorem State.setReg_steps (r : RegD) (d : Nat) (ix : List Nat) (v : Word) : (s.setReg r d ix v).steps = s.steps := rfl
@[simp] theorem State.setReg_nextStep (r : RegD) (d : Nat) (ix : List Nat) (v : Word) : (s.setReg r d ix v).nextStep = s.nextStep := rfl
@[simp] theorem State.setReg_resets (r : RegD) (d : Nat) (ix : List Nat) (v : Word) : (s.setReg r d ix v).resets = s.resets := rfl
@[simp] theorem State.setReg_nextReset (r : RegD) (d : Nat) (ix : List Nat) (v : Word) : (s.setReg r d ix v).nextReset = s.nextReset := rfl
@[simp] theorem State.setReg_deadUnits (r : RegD) (d : Nat) (ix : List Nat) (v : Word) : (s.setReg r d ix v).deadUnits = s.deadUnits := rfl
@[simp] theorem State.setReg_hbLc (r : RegD) (d : Nat) (ix : List Nat) (v : Word) : (s.setReg r d ix v).hbLc = s.hbLc := rfl
@[simp] theorem State.setReg_pwrcyc (r : RegD) (d : Nat) (ix : List Nat) (v : Word) : (s.setReg r d ix v).pwrcyc = s.pwrcyc := rfl
@[simp] theorem State.setReg_bankGo (r : RegD) (d : Nat) (ix : List Nat) (v : Word) : (s.setReg r d ix v).bankGo = s.bankGo := rfl
@[simp] theorem State.setReg_ownerReqs (r : RegD) (d : Nat) (ix : List Nat) (v : Word) : (s.setReg r d ix v).ownerReqs = s.ownerReqs := rfl
@[simp] theorem State.setReg_wipes (r : RegD) (d : Nat) (ix : List Nat) (v : Word) : (s.setReg r d ix v).wipes = s.wipes := rfl
@[simp] theorem State.setReg_training (r : RegD) (d : Nat) (ix : List Nat) (v : Word) : (s.setReg r d ix v).training = s.training := rfl
@[simp] theorem State.setReg_tier (r : RegD) (d : Nat) (ix : List Nat) (v : Word) : (s.setReg r d ix v).tier = s.tier := rfl
@[simp] theorem State.setReg_tc (r : RegD) (d : Nat) (ix : List Nat) (v : Word) : (s.setReg r d ix v).tc = s.tc := rfl
@[simp] theorem State.setReg_held (r : RegD) (d : Nat) (ix : List Nat) (v : Word) : (s.setReg r d ix v).held = s.held := rfl
@[simp] theorem State.setReg_rings (r : RegD) (d : Nat) (ix : List Nat) (v : Word) : (s.setReg r d ix v).rings = s.rings := rfl
@[simp] theorem State.setReg_ringScan (r : RegD) (d : Nat) (ix : List Nat) (v : Word) : (s.setReg r d ix v).ringScan = s.ringScan := rfl
@[simp] theorem State.setReg_cmds (r : RegD) (d : Nat) (ix : List Nat) (v : Word) : (s.setReg r d ix v).cmds = s.cmds := rfl
@[simp] theorem State.setReg_nextCmd (r : RegD) (d : Nat) (ix : List Nat) (v : Word) : (s.setReg r d ix v).nextCmd = s.nextCmd := rfl
@[simp] theorem State.setReg_stampSel (r : RegD) (d : Nat) (ix : List Nat) (v : Word) : (s.setReg r d ix v).stampSel = s.stampSel := rfl
@[simp] theorem State.setReg_fxgCopy (r : RegD) (d : Nat) (ix : List Nat) (v : Word) : (s.setReg r d ix v).fxgCopy = s.fxgCopy := rfl
@[simp] theorem State.setReg_fxgWord (r : RegD) (d : Nat) (ix : List Nat) (v : Word) : (s.setReg r d ix v).fxgWord = s.fxgWord := rfl
@[simp] theorem State.setReg_swapAt (r : RegD) (d : Nat) (ix : List Nat) (v : Word) : (s.setReg r d ix v).swapAt = s.swapAt := rfl
@[simp] theorem State.setReg_quarantined (r : RegD) (d : Nat) (ix : List Nat) (v : Word) : (s.setReg r d ix v).quarantined = s.quarantined := rfl
@[simp] theorem State.setReg_quarNext (r : RegD) (d : Nat) (ix : List Nat) (v : Word) : (s.setReg r d ix v).quarNext = s.quarNext := rfl
@[simp] theorem State.setReg_suspFrozen (r : RegD) (d : Nat) (ix : List Nat) (v : Word) : (s.setReg r d ix v).suspFrozen = s.suspFrozen := rfl
@[simp] theorem State.setReg_placements (r : RegD) (d : Nat) (ix : List Nat) (v : Word) : (s.setReg r d ix v).placements = s.placements := rfl
@[simp] theorem State.setReg_shadowRow (r : RegD) (d : Nat) (ix : List Nat) (v : Word) : (s.setReg r d ix v).shadowRow = s.shadowRow := rfl
@[simp] theorem State.setReg_tamperStop (r : RegD) (d : Nat) (ix : List Nat) (v : Word) : (s.setReg r d ix v).tamperStop = s.tamperStop := rfl
@[simp] theorem State.setReg_prevPt (r : RegD) (d : Nat) (ix : List Nat) (v : Word) : (s.setReg r d ix v).prevPt = s.prevPt := rfl
@[simp] theorem State.setReg_prevG (r : RegD) (d : Nat) (ix : List Nat) (v : Word) : (s.setReg r d ix v).prevG = s.prevG := rfl
@[simp] theorem State.setReg_lsOwn (r : RegD) (d : Nat) (ix : List Nat) (v : Word) : (s.setReg r d ix v).lsOwn = s.lsOwn := rfl
@[simp] theorem State.setReg_wsets (r : RegD) (d : Nat) (ix : List Nat) (v : Word) : (s.setReg r d ix v).wsets = s.wsets := rfl
@[simp] theorem State.setReg_evt (r : RegD) (d : Nat) (ix : List Nat) (v : Word) : (s.setReg r d ix v).evt = s.evt := rfl
@[simp] theorem State.setReg_trc (r : RegD) (d : Nat) (ix : List Nat) (v : Word) : (s.setReg r d ix v).trc = s.trc := rfl
@[simp] theorem State.setReg_pmuLc (r : RegD) (d : Nat) (ix : List Nat) (v : Word) : (s.setReg r d ix v).pmuLc = s.pmuLc := rfl
@[simp] theorem State.setReg_twLast (r : RegD) (d : Nat) (ix : List Nat) (v : Word) : (s.setReg r d ix v).twLast = s.twLast := rfl
@[simp] theorem State.setReg_msix (r : RegD) (d : Nat) (ix : List Nat) (v : Word) : (s.setReg r d ix v).msix = s.msix := rfl
@[simp] theorem State.setReg_porLow (r : RegD) (d : Nat) (ix : List Nat) (v : Word) : (s.setReg r d ix v).porLow = s.porLow := rfl
@[simp] theorem State.setReg_perstLow (r : RegD) (d : Nat) (ix : List Nat) (v : Word) : (s.setReg r d ix v).perstLow = s.perstLow := rfl
@[simp] theorem State.setReg_thermtrip (r : RegD) (d : Nat) (ix : List Nat) (v : Word) : (s.setReg r d ix v).thermtrip = s.thermtrip := rfl
@[simp] theorem State.setReg_perstReset (r : RegD) (d : Nat) (ix : List Nat) (v : Word) : (s.setReg r d ix v).perstReset = s.perstReset := rfl
@[simp] theorem State.setReg_sensed (r : RegD) (d : Nat) (ix : List Nat) (v : Word) : (s.setReg r d ix v).sensed = s.sensed := rfl
@[simp] theorem State.setReg_bootWin (r : RegD) (d : Nat) (ix : List Nat) (v : Word) : (s.setReg r d ix v).bootWin = s.bootWin := rfl
@[simp] theorem State.setReg_bootLen (r : RegD) (d : Nat) (ix : List Nat) (v : Word) : (s.setReg r d ix v).bootLen = s.bootLen := rfl
@[simp] theorem State.setReg_boots (r : RegD) (d : Nat) (ix : List Nat) (v : Word) : (s.setReg r d ix v).boots = s.boots := rfl
@[simp] theorem State.setReg_bootHdr (r : RegD) (d : Nat) (ix : List Nat) (v : Word) : (s.setReg r d ix v).bootHdr = s.bootHdr := rfl
@[simp] theorem State.setReg_bootTabs (r : RegD) (d : Nat) (ix : List Nat) (v : Word) : (s.setReg r d ix v).bootTabs = s.bootTabs := rfl
@[simp] theorem State.setReg_spdm (r : RegD) (d : Nat) (ix : List Nat) (v : Word) : (s.setReg r d ix v).spdm = s.spdm := rfl
@[simp] theorem State.setReg_tapIr (r : RegD) (d : Nat) (ix : List Nat) (v : Word) : (s.setReg r d ix v).tapIr = s.tapIr := rfl
@[simp] theorem State.setReg_nonce (r : RegD) (d : Nat) (ix : List Nat) (v : Word) : (s.setReg r d ix v).nonce = s.nonce := rfl
@[simp] theorem State.setReg_authOfs (r : RegD) (d : Nat) (ix : List Nat) (v : Word) : (s.setReg r d ix v).authOfs = s.authOfs := rfl
@[simp] theorem State.setReg_gstopLc (r : RegD) (d : Nat) (ix : List Nat) (v : Word) : (s.setReg r d ix v).gstopLc = s.gstopLc := rfl
@[simp] theorem State.setReg_gresume (r : RegD) (d : Nat) (ix : List Nat) (v : Word) : (s.setReg r d ix v).gresume = s.gresume := rfl
@[simp] theorem State.setReg_dump (r : RegD) (d : Nat) (ix : List Nat) (v : Word) : (s.setReg r d ix v).dump = s.dump := rfl
@[simp] theorem State.setReg_power (r : RegD) (d : Nat) (ix : List Nat) (v : Word) : (s.setReg r d ix v).power = s.power := rfl
@[simp] theorem State.setReg_pdGo (r : RegD) (d : Nat) (ix : List Nat) (v : Word) : (s.setReg r d ix v).pdGo = s.pdGo := rfl
@[simp] theorem State.setReg_cardLimit (r : RegD) (d : Nat) (ix : List Nat) (v : Word) : (s.setReg r d ix v).cardLimit = s.cardLimit := rfl
@[simp] theorem State.setReg_ansStatus (r : RegD) (d : Nat) (ix : List Nat) (v : Word) : (s.setReg r d ix v).ansStatus = s.ansStatus := rfl
@[simp] theorem State.setReg_ansData (r : RegD) (d : Nat) (ix : List Nat) (v : Word) : (s.setReg r d ix v).ansData = s.ansData := rfl

/-! A register field replaced. -/

@[simp] theorem State.setFld_pending (r : RegD) (d : Nat) (ix : List Nat) (hi lo x : Nat) : (s.setFld r d ix hi lo x).pending = s.pending := rfl
@[simp] theorem State.setFld_free (r : RegD) (d : Nat) (ix : List Nat) (hi lo x : Nat) : (s.setFld r d ix hi lo x).free = s.free := rfl
@[simp] theorem State.setFld_ident (r : RegD) (d : Nat) (ix : List Nat) (hi lo x : Nat) : (s.setFld r d ix hi lo x).ident = s.ident := rfl
@[simp] theorem State.setFld_lc (r : RegD) (d : Nat) (ix : List Nat) (hi lo x : Nat) : (s.setFld r d ix hi lo x).lc = s.lc := rfl
@[simp] theorem State.setFld_tb (r : RegD) (d : Nat) (ix : List Nat) (hi lo x : Nat) : (s.setFld r d ix hi lo x).tb = s.tb := rfl
@[simp] theorem State.setFld_ofs (r : RegD) (d : Nat) (ix : List Nat) (hi lo x : Nat) : (s.setFld r d ix hi lo x).ofs = s.ofs := rfl
@[simp] theorem State.setFld_ofsStep (r : RegD) (d : Nat) (ix : List Nat) (hi lo x : Nat) : (s.setFld r d ix hi lo x).ofsStep = s.ofsStep := rfl
@[simp] theorem State.setFld_syncLc (r : RegD) (d : Nat) (ix : List Nat) (hi lo x : Nat) : (s.setFld r d ix hi lo x).syncLc = s.syncLc := rfl
@[simp] theorem State.setFld_alignPend (r : RegD) (d : Nat) (ix : List Nat) (hi lo x : Nat) : (s.setFld r d ix hi lo x).alignPend = s.alignPend := rfl
@[simp] theorem State.setFld_replicas (r : RegD) (d : Nat) (ix : List Nat) (hi lo x : Nat) : (s.setFld r d ix hi lo x).replicas = s.replicas := rfl
@[simp] theorem State.setFld_mem (r : RegD) (d : Nat) (ix : List Nat) (hi lo x : Nat) : (s.setFld r d ix hi lo x).mem = s.mem := rfl
@[simp] theorem State.setFld_host (r : RegD) (d : Nat) (ix : List Nat) (hi lo x : Nat) : (s.setFld r d ix hi lo x).host = s.host := rfl
@[simp] theorem State.setFld_badWords (r : RegD) (d : Nat) (ix : List Nat) (hi lo x : Nat) : (s.setFld r d ix hi lo x).badWords = s.badWords := rfl
@[simp] theorem State.setFld_seqs (r : RegD) (d : Nat) (ix : List Nat) (hi lo x : Nat) : (s.setFld r d ix hi lo x).seqs = s.seqs := rfl
@[simp] theorem State.setFld_tokens (r : RegD) (d : Nat) (ix : List Nat) (hi lo x : Nat) : (s.setFld r d ix hi lo x).tokens = s.tokens := rfl
@[simp] theorem State.setFld_remote (r : RegD) (d : Nat) (ix : List Nat) (hi lo x : Nat) : (s.setFld r d ix hi lo x).remote = s.remote := rfl
@[simp] theorem State.setFld_nextOp (r : RegD) (d : Nat) (ix : List Nat) (hi lo x : Nat) : (s.setFld r d ix hi lo x).nextOp = s.nextOp := rfl
@[simp] theorem State.setFld_fabSeq (r : RegD) (d : Nat) (ix : List Nat) (hi lo x : Nat) : (s.setFld r d ix hi lo x).fabSeq = s.fabSeq := rfl
@[simp] theorem State.setFld_homes (r : RegD) (d : Nat) (ix : List Nat) (hi lo x : Nat) : (s.setFld r d ix hi lo x).homes = s.homes := rfl
@[simp] theorem State.setFld_links (r : RegD) (d : Nat) (ix : List Nat) (hi lo x : Nat) : (s.setFld r d ix hi lo x).links = s.links := rfl
@[simp] theorem State.setFld_egress (r : RegD) (d : Nat) (ix : List Nat) (hi lo x : Nat) : (s.setFld r d ix hi lo x).egress = s.egress := rfl
@[simp] theorem State.setFld_yellowQ (r : RegD) (d : Nat) (ix : List Nat) (hi lo x : Nat) : (s.setFld r d ix hi lo x).yellowQ = s.yellowQ := rfl
@[simp] theorem State.setFld_localReqs (r : RegD) (d : Nat) (ix : List Nat) (hi lo x : Nat) : (s.setFld r d ix hi lo x).localReqs = s.localReqs := rfl
@[simp] theorem State.setFld_localReps (r : RegD) (d : Nat) (ix : List Nat) (hi lo x : Nat) : (s.setFld r d ix hi lo x).localReps = s.localReps := rfl
@[simp] theorem State.setFld_mirrors (r : RegD) (d : Nat) (ix : List Nat) (hi lo x : Nat) : (s.setFld r d ix hi lo x).mirrors = s.mirrors := rfl
@[simp] theorem State.setFld_spareElec (r : RegD) (d : Nat) (ix : List Nat) (hi lo x : Nat) : (s.setFld r d ix hi lo x).spareElec = s.spareElec := rfl
@[simp] theorem State.setFld_eng (r : RegD) (d : Nat) (ix : List Nat) (hi lo x : Nat) : (s.setFld r d ix hi lo x).eng = s.eng := rfl
@[simp] theorem State.setFld_stimers (r : RegD) (d : Nat) (ix : List Nat) (hi lo x : Nat) : (s.setFld r d ix hi lo x).stimers = s.stimers := rfl
@[simp] theorem State.setFld_bh (r : RegD) (d : Nat) (ix : List Nat) (hi lo x : Nat) : (s.setFld r d ix hi lo x).bh = s.bh := rfl
@[simp] theorem State.setFld_crkFlows (r : RegD) (d : Nat) (ix : List Nat) (hi lo x : Nat) : (s.setFld r d ix hi lo x).crkFlows = s.crkFlows := rfl
@[simp] theorem State.setFld_crkPaths (r : RegD) (d : Nat) (ix : List Nat) (hi lo x : Nat) : (s.setFld r d ix hi lo x).crkPaths = s.crkPaths := rfl
@[simp] theorem State.setFld_crkPorts (r : RegD) (d : Nat) (ix : List Nat) (hi lo x : Nat) : (s.setFld r d ix hi lo x).crkPorts = s.crkPorts := rfl
@[simp] theorem State.setFld_crkWait (r : RegD) (d : Nat) (ix : List Nat) (hi lo x : Nat) : (s.setFld r d ix hi lo x).crkWait = s.crkWait := rfl
@[simp] theorem State.setFld_crkWords (r : RegD) (d : Nat) (ix : List Nat) (hi lo x : Nat) : (s.setFld r d ix hi lo x).crkWords = s.crkWords := rfl
@[simp] theorem State.setFld_crkHost (r : RegD) (d : Nat) (ix : List Nat) (hi lo x : Nat) : (s.setFld r d ix hi lo x).crkHost = s.crkHost := rfl
@[simp] theorem State.setFld_rclkLow (r : RegD) (d : Nat) (ix : List Nat) (hi lo x : Nat) : (s.setFld r d ix hi lo x).rclkLow = s.rclkLow := rfl
@[simp] theorem State.setFld_steps (r : RegD) (d : Nat) (ix : List Nat) (hi lo x : Nat) : (s.setFld r d ix hi lo x).steps = s.steps := rfl
@[simp] theorem State.setFld_nextStep (r : RegD) (d : Nat) (ix : List Nat) (hi lo x : Nat) : (s.setFld r d ix hi lo x).nextStep = s.nextStep := rfl
@[simp] theorem State.setFld_resets (r : RegD) (d : Nat) (ix : List Nat) (hi lo x : Nat) : (s.setFld r d ix hi lo x).resets = s.resets := rfl
@[simp] theorem State.setFld_nextReset (r : RegD) (d : Nat) (ix : List Nat) (hi lo x : Nat) : (s.setFld r d ix hi lo x).nextReset = s.nextReset := rfl
@[simp] theorem State.setFld_deadUnits (r : RegD) (d : Nat) (ix : List Nat) (hi lo x : Nat) : (s.setFld r d ix hi lo x).deadUnits = s.deadUnits := rfl
@[simp] theorem State.setFld_hbLc (r : RegD) (d : Nat) (ix : List Nat) (hi lo x : Nat) : (s.setFld r d ix hi lo x).hbLc = s.hbLc := rfl
@[simp] theorem State.setFld_pwrcyc (r : RegD) (d : Nat) (ix : List Nat) (hi lo x : Nat) : (s.setFld r d ix hi lo x).pwrcyc = s.pwrcyc := rfl
@[simp] theorem State.setFld_bankGo (r : RegD) (d : Nat) (ix : List Nat) (hi lo x : Nat) : (s.setFld r d ix hi lo x).bankGo = s.bankGo := rfl
@[simp] theorem State.setFld_ownerReqs (r : RegD) (d : Nat) (ix : List Nat) (hi lo x : Nat) : (s.setFld r d ix hi lo x).ownerReqs = s.ownerReqs := rfl
@[simp] theorem State.setFld_wipes (r : RegD) (d : Nat) (ix : List Nat) (hi lo x : Nat) : (s.setFld r d ix hi lo x).wipes = s.wipes := rfl
@[simp] theorem State.setFld_training (r : RegD) (d : Nat) (ix : List Nat) (hi lo x : Nat) : (s.setFld r d ix hi lo x).training = s.training := rfl
@[simp] theorem State.setFld_tier (r : RegD) (d : Nat) (ix : List Nat) (hi lo x : Nat) : (s.setFld r d ix hi lo x).tier = s.tier := rfl
@[simp] theorem State.setFld_tc (r : RegD) (d : Nat) (ix : List Nat) (hi lo x : Nat) : (s.setFld r d ix hi lo x).tc = s.tc := rfl
@[simp] theorem State.setFld_held (r : RegD) (d : Nat) (ix : List Nat) (hi lo x : Nat) : (s.setFld r d ix hi lo x).held = s.held := rfl
@[simp] theorem State.setFld_rings (r : RegD) (d : Nat) (ix : List Nat) (hi lo x : Nat) : (s.setFld r d ix hi lo x).rings = s.rings := rfl
@[simp] theorem State.setFld_ringScan (r : RegD) (d : Nat) (ix : List Nat) (hi lo x : Nat) : (s.setFld r d ix hi lo x).ringScan = s.ringScan := rfl
@[simp] theorem State.setFld_cmds (r : RegD) (d : Nat) (ix : List Nat) (hi lo x : Nat) : (s.setFld r d ix hi lo x).cmds = s.cmds := rfl
@[simp] theorem State.setFld_nextCmd (r : RegD) (d : Nat) (ix : List Nat) (hi lo x : Nat) : (s.setFld r d ix hi lo x).nextCmd = s.nextCmd := rfl
@[simp] theorem State.setFld_stampSel (r : RegD) (d : Nat) (ix : List Nat) (hi lo x : Nat) : (s.setFld r d ix hi lo x).stampSel = s.stampSel := rfl
@[simp] theorem State.setFld_fxgCopy (r : RegD) (d : Nat) (ix : List Nat) (hi lo x : Nat) : (s.setFld r d ix hi lo x).fxgCopy = s.fxgCopy := rfl
@[simp] theorem State.setFld_fxgWord (r : RegD) (d : Nat) (ix : List Nat) (hi lo x : Nat) : (s.setFld r d ix hi lo x).fxgWord = s.fxgWord := rfl
@[simp] theorem State.setFld_swapAt (r : RegD) (d : Nat) (ix : List Nat) (hi lo x : Nat) : (s.setFld r d ix hi lo x).swapAt = s.swapAt := rfl
@[simp] theorem State.setFld_quarantined (r : RegD) (d : Nat) (ix : List Nat) (hi lo x : Nat) : (s.setFld r d ix hi lo x).quarantined = s.quarantined := rfl
@[simp] theorem State.setFld_quarNext (r : RegD) (d : Nat) (ix : List Nat) (hi lo x : Nat) : (s.setFld r d ix hi lo x).quarNext = s.quarNext := rfl
@[simp] theorem State.setFld_suspFrozen (r : RegD) (d : Nat) (ix : List Nat) (hi lo x : Nat) : (s.setFld r d ix hi lo x).suspFrozen = s.suspFrozen := rfl
@[simp] theorem State.setFld_placements (r : RegD) (d : Nat) (ix : List Nat) (hi lo x : Nat) : (s.setFld r d ix hi lo x).placements = s.placements := rfl
@[simp] theorem State.setFld_shadowRow (r : RegD) (d : Nat) (ix : List Nat) (hi lo x : Nat) : (s.setFld r d ix hi lo x).shadowRow = s.shadowRow := rfl
@[simp] theorem State.setFld_tamperStop (r : RegD) (d : Nat) (ix : List Nat) (hi lo x : Nat) : (s.setFld r d ix hi lo x).tamperStop = s.tamperStop := rfl
@[simp] theorem State.setFld_prevPt (r : RegD) (d : Nat) (ix : List Nat) (hi lo x : Nat) : (s.setFld r d ix hi lo x).prevPt = s.prevPt := rfl
@[simp] theorem State.setFld_prevG (r : RegD) (d : Nat) (ix : List Nat) (hi lo x : Nat) : (s.setFld r d ix hi lo x).prevG = s.prevG := rfl
@[simp] theorem State.setFld_lsOwn (r : RegD) (d : Nat) (ix : List Nat) (hi lo x : Nat) : (s.setFld r d ix hi lo x).lsOwn = s.lsOwn := rfl
@[simp] theorem State.setFld_wsets (r : RegD) (d : Nat) (ix : List Nat) (hi lo x : Nat) : (s.setFld r d ix hi lo x).wsets = s.wsets := rfl
@[simp] theorem State.setFld_evt (r : RegD) (d : Nat) (ix : List Nat) (hi lo x : Nat) : (s.setFld r d ix hi lo x).evt = s.evt := rfl
@[simp] theorem State.setFld_trc (r : RegD) (d : Nat) (ix : List Nat) (hi lo x : Nat) : (s.setFld r d ix hi lo x).trc = s.trc := rfl
@[simp] theorem State.setFld_pmuLc (r : RegD) (d : Nat) (ix : List Nat) (hi lo x : Nat) : (s.setFld r d ix hi lo x).pmuLc = s.pmuLc := rfl
@[simp] theorem State.setFld_twLast (r : RegD) (d : Nat) (ix : List Nat) (hi lo x : Nat) : (s.setFld r d ix hi lo x).twLast = s.twLast := rfl
@[simp] theorem State.setFld_msix (r : RegD) (d : Nat) (ix : List Nat) (hi lo x : Nat) : (s.setFld r d ix hi lo x).msix = s.msix := rfl
@[simp] theorem State.setFld_porLow (r : RegD) (d : Nat) (ix : List Nat) (hi lo x : Nat) : (s.setFld r d ix hi lo x).porLow = s.porLow := rfl
@[simp] theorem State.setFld_perstLow (r : RegD) (d : Nat) (ix : List Nat) (hi lo x : Nat) : (s.setFld r d ix hi lo x).perstLow = s.perstLow := rfl
@[simp] theorem State.setFld_thermtrip (r : RegD) (d : Nat) (ix : List Nat) (hi lo x : Nat) : (s.setFld r d ix hi lo x).thermtrip = s.thermtrip := rfl
@[simp] theorem State.setFld_perstReset (r : RegD) (d : Nat) (ix : List Nat) (hi lo x : Nat) : (s.setFld r d ix hi lo x).perstReset = s.perstReset := rfl
@[simp] theorem State.setFld_sensed (r : RegD) (d : Nat) (ix : List Nat) (hi lo x : Nat) : (s.setFld r d ix hi lo x).sensed = s.sensed := rfl
@[simp] theorem State.setFld_bootWin (r : RegD) (d : Nat) (ix : List Nat) (hi lo x : Nat) : (s.setFld r d ix hi lo x).bootWin = s.bootWin := rfl
@[simp] theorem State.setFld_bootLen (r : RegD) (d : Nat) (ix : List Nat) (hi lo x : Nat) : (s.setFld r d ix hi lo x).bootLen = s.bootLen := rfl
@[simp] theorem State.setFld_boots (r : RegD) (d : Nat) (ix : List Nat) (hi lo x : Nat) : (s.setFld r d ix hi lo x).boots = s.boots := rfl
@[simp] theorem State.setFld_bootHdr (r : RegD) (d : Nat) (ix : List Nat) (hi lo x : Nat) : (s.setFld r d ix hi lo x).bootHdr = s.bootHdr := rfl
@[simp] theorem State.setFld_bootTabs (r : RegD) (d : Nat) (ix : List Nat) (hi lo x : Nat) : (s.setFld r d ix hi lo x).bootTabs = s.bootTabs := rfl
@[simp] theorem State.setFld_spdm (r : RegD) (d : Nat) (ix : List Nat) (hi lo x : Nat) : (s.setFld r d ix hi lo x).spdm = s.spdm := rfl
@[simp] theorem State.setFld_tapIr (r : RegD) (d : Nat) (ix : List Nat) (hi lo x : Nat) : (s.setFld r d ix hi lo x).tapIr = s.tapIr := rfl
@[simp] theorem State.setFld_nonce (r : RegD) (d : Nat) (ix : List Nat) (hi lo x : Nat) : (s.setFld r d ix hi lo x).nonce = s.nonce := rfl
@[simp] theorem State.setFld_authOfs (r : RegD) (d : Nat) (ix : List Nat) (hi lo x : Nat) : (s.setFld r d ix hi lo x).authOfs = s.authOfs := rfl
@[simp] theorem State.setFld_gstopLc (r : RegD) (d : Nat) (ix : List Nat) (hi lo x : Nat) : (s.setFld r d ix hi lo x).gstopLc = s.gstopLc := rfl
@[simp] theorem State.setFld_gresume (r : RegD) (d : Nat) (ix : List Nat) (hi lo x : Nat) : (s.setFld r d ix hi lo x).gresume = s.gresume := rfl
@[simp] theorem State.setFld_dump (r : RegD) (d : Nat) (ix : List Nat) (hi lo x : Nat) : (s.setFld r d ix hi lo x).dump = s.dump := rfl
@[simp] theorem State.setFld_power (r : RegD) (d : Nat) (ix : List Nat) (hi lo x : Nat) : (s.setFld r d ix hi lo x).power = s.power := rfl
@[simp] theorem State.setFld_pdGo (r : RegD) (d : Nat) (ix : List Nat) (hi lo x : Nat) : (s.setFld r d ix hi lo x).pdGo = s.pdGo := rfl
@[simp] theorem State.setFld_cardLimit (r : RegD) (d : Nat) (ix : List Nat) (hi lo x : Nat) : (s.setFld r d ix hi lo x).cardLimit = s.cardLimit := rfl
@[simp] theorem State.setFld_ansStatus (r : RegD) (d : Nat) (ix : List Nat) (hi lo x : Nat) : (s.setFld r d ix hi lo x).ansStatus = s.ansStatus := rfl
@[simp] theorem State.setFld_ansData (r : RegD) (d : Nat) (ix : List Nat) (hi lo x : Nat) : (s.setFld r d ix hi lo x).ansData = s.ansData := rfl

/-! A sequencer replaced. -/

@[simp] theorem State.setSeq_pending (u : SeqUnit) (q : Seq) : (s.setSeq u q).pending = s.pending := rfl
@[simp] theorem State.setSeq_free (u : SeqUnit) (q : Seq) : (s.setSeq u q).free = s.free := rfl
@[simp] theorem State.setSeq_ident (u : SeqUnit) (q : Seq) : (s.setSeq u q).ident = s.ident := rfl
@[simp] theorem State.setSeq_lc (u : SeqUnit) (q : Seq) : (s.setSeq u q).lc = s.lc := rfl
@[simp] theorem State.setSeq_tb (u : SeqUnit) (q : Seq) : (s.setSeq u q).tb = s.tb := rfl
@[simp] theorem State.setSeq_ofs (u : SeqUnit) (q : Seq) : (s.setSeq u q).ofs = s.ofs := rfl
@[simp] theorem State.setSeq_ofsStep (u : SeqUnit) (q : Seq) : (s.setSeq u q).ofsStep = s.ofsStep := rfl
@[simp] theorem State.setSeq_syncLc (u : SeqUnit) (q : Seq) : (s.setSeq u q).syncLc = s.syncLc := rfl
@[simp] theorem State.setSeq_alignPend (u : SeqUnit) (q : Seq) : (s.setSeq u q).alignPend = s.alignPend := rfl
@[simp] theorem State.setSeq_replicas (u : SeqUnit) (q : Seq) : (s.setSeq u q).replicas = s.replicas := rfl
@[simp] theorem State.setSeq_regs (u : SeqUnit) (q : Seq) : (s.setSeq u q).regs = s.regs := rfl
@[simp] theorem State.setSeq_mem (u : SeqUnit) (q : Seq) : (s.setSeq u q).mem = s.mem := rfl
@[simp] theorem State.setSeq_host (u : SeqUnit) (q : Seq) : (s.setSeq u q).host = s.host := rfl
@[simp] theorem State.setSeq_badWords (u : SeqUnit) (q : Seq) : (s.setSeq u q).badWords = s.badWords := rfl
@[simp] theorem State.setSeq_tokens (u : SeqUnit) (q : Seq) : (s.setSeq u q).tokens = s.tokens := rfl
@[simp] theorem State.setSeq_remote (u : SeqUnit) (q : Seq) : (s.setSeq u q).remote = s.remote := rfl
@[simp] theorem State.setSeq_nextOp (u : SeqUnit) (q : Seq) : (s.setSeq u q).nextOp = s.nextOp := rfl
@[simp] theorem State.setSeq_fabSeq (u : SeqUnit) (q : Seq) : (s.setSeq u q).fabSeq = s.fabSeq := rfl
@[simp] theorem State.setSeq_homes (u : SeqUnit) (q : Seq) : (s.setSeq u q).homes = s.homes := rfl
@[simp] theorem State.setSeq_links (u : SeqUnit) (q : Seq) : (s.setSeq u q).links = s.links := rfl
@[simp] theorem State.setSeq_egress (u : SeqUnit) (q : Seq) : (s.setSeq u q).egress = s.egress := rfl
@[simp] theorem State.setSeq_yellowQ (u : SeqUnit) (q : Seq) : (s.setSeq u q).yellowQ = s.yellowQ := rfl
@[simp] theorem State.setSeq_localReqs (u : SeqUnit) (q : Seq) : (s.setSeq u q).localReqs = s.localReqs := rfl
@[simp] theorem State.setSeq_localReps (u : SeqUnit) (q : Seq) : (s.setSeq u q).localReps = s.localReps := rfl
@[simp] theorem State.setSeq_mirrors (u : SeqUnit) (q : Seq) : (s.setSeq u q).mirrors = s.mirrors := rfl
@[simp] theorem State.setSeq_spareElec (u : SeqUnit) (q : Seq) : (s.setSeq u q).spareElec = s.spareElec := rfl
@[simp] theorem State.setSeq_eng (u : SeqUnit) (q : Seq) : (s.setSeq u q).eng = s.eng := rfl
@[simp] theorem State.setSeq_stimers (u : SeqUnit) (q : Seq) : (s.setSeq u q).stimers = s.stimers := rfl
@[simp] theorem State.setSeq_bh (u : SeqUnit) (q : Seq) : (s.setSeq u q).bh = s.bh := rfl
@[simp] theorem State.setSeq_crkFlows (u : SeqUnit) (q : Seq) : (s.setSeq u q).crkFlows = s.crkFlows := rfl
@[simp] theorem State.setSeq_crkPaths (u : SeqUnit) (q : Seq) : (s.setSeq u q).crkPaths = s.crkPaths := rfl
@[simp] theorem State.setSeq_crkPorts (u : SeqUnit) (q : Seq) : (s.setSeq u q).crkPorts = s.crkPorts := rfl
@[simp] theorem State.setSeq_crkWait (u : SeqUnit) (q : Seq) : (s.setSeq u q).crkWait = s.crkWait := rfl
@[simp] theorem State.setSeq_crkWords (u : SeqUnit) (q : Seq) : (s.setSeq u q).crkWords = s.crkWords := rfl
@[simp] theorem State.setSeq_crkHost (u : SeqUnit) (q : Seq) : (s.setSeq u q).crkHost = s.crkHost := rfl
@[simp] theorem State.setSeq_rclkLow (u : SeqUnit) (q : Seq) : (s.setSeq u q).rclkLow = s.rclkLow := rfl
@[simp] theorem State.setSeq_steps (u : SeqUnit) (q : Seq) : (s.setSeq u q).steps = s.steps := rfl
@[simp] theorem State.setSeq_nextStep (u : SeqUnit) (q : Seq) : (s.setSeq u q).nextStep = s.nextStep := rfl
@[simp] theorem State.setSeq_resets (u : SeqUnit) (q : Seq) : (s.setSeq u q).resets = s.resets := rfl
@[simp] theorem State.setSeq_nextReset (u : SeqUnit) (q : Seq) : (s.setSeq u q).nextReset = s.nextReset := rfl
@[simp] theorem State.setSeq_deadUnits (u : SeqUnit) (q : Seq) : (s.setSeq u q).deadUnits = s.deadUnits := rfl
@[simp] theorem State.setSeq_hbLc (u : SeqUnit) (q : Seq) : (s.setSeq u q).hbLc = s.hbLc := rfl
@[simp] theorem State.setSeq_pwrcyc (u : SeqUnit) (q : Seq) : (s.setSeq u q).pwrcyc = s.pwrcyc := rfl
@[simp] theorem State.setSeq_bankGo (u : SeqUnit) (q : Seq) : (s.setSeq u q).bankGo = s.bankGo := rfl
@[simp] theorem State.setSeq_ownerReqs (u : SeqUnit) (q : Seq) : (s.setSeq u q).ownerReqs = s.ownerReqs := rfl
@[simp] theorem State.setSeq_wipes (u : SeqUnit) (q : Seq) : (s.setSeq u q).wipes = s.wipes := rfl
@[simp] theorem State.setSeq_training (u : SeqUnit) (q : Seq) : (s.setSeq u q).training = s.training := rfl
@[simp] theorem State.setSeq_tier (u : SeqUnit) (q : Seq) : (s.setSeq u q).tier = s.tier := rfl
@[simp] theorem State.setSeq_tc (u : SeqUnit) (q : Seq) : (s.setSeq u q).tc = s.tc := rfl
@[simp] theorem State.setSeq_held (u : SeqUnit) (q : Seq) : (s.setSeq u q).held = s.held := rfl
@[simp] theorem State.setSeq_rings (u : SeqUnit) (q : Seq) : (s.setSeq u q).rings = s.rings := rfl
@[simp] theorem State.setSeq_ringScan (u : SeqUnit) (q : Seq) : (s.setSeq u q).ringScan = s.ringScan := rfl
@[simp] theorem State.setSeq_cmds (u : SeqUnit) (q : Seq) : (s.setSeq u q).cmds = s.cmds := rfl
@[simp] theorem State.setSeq_nextCmd (u : SeqUnit) (q : Seq) : (s.setSeq u q).nextCmd = s.nextCmd := rfl
@[simp] theorem State.setSeq_stampSel (u : SeqUnit) (q : Seq) : (s.setSeq u q).stampSel = s.stampSel := rfl
@[simp] theorem State.setSeq_fxgCopy (u : SeqUnit) (q : Seq) : (s.setSeq u q).fxgCopy = s.fxgCopy := rfl
@[simp] theorem State.setSeq_fxgWord (u : SeqUnit) (q : Seq) : (s.setSeq u q).fxgWord = s.fxgWord := rfl
@[simp] theorem State.setSeq_swapAt (u : SeqUnit) (q : Seq) : (s.setSeq u q).swapAt = s.swapAt := rfl
@[simp] theorem State.setSeq_quarantined (u : SeqUnit) (q : Seq) : (s.setSeq u q).quarantined = s.quarantined := rfl
@[simp] theorem State.setSeq_quarNext (u : SeqUnit) (q : Seq) : (s.setSeq u q).quarNext = s.quarNext := rfl
@[simp] theorem State.setSeq_suspFrozen (u : SeqUnit) (q : Seq) : (s.setSeq u q).suspFrozen = s.suspFrozen := rfl
@[simp] theorem State.setSeq_placements (u : SeqUnit) (q : Seq) : (s.setSeq u q).placements = s.placements := rfl
@[simp] theorem State.setSeq_shadowRow (u : SeqUnit) (q : Seq) : (s.setSeq u q).shadowRow = s.shadowRow := rfl
@[simp] theorem State.setSeq_tamperStop (u : SeqUnit) (q : Seq) : (s.setSeq u q).tamperStop = s.tamperStop := rfl
@[simp] theorem State.setSeq_prevPt (u : SeqUnit) (q : Seq) : (s.setSeq u q).prevPt = s.prevPt := rfl
@[simp] theorem State.setSeq_prevG (u : SeqUnit) (q : Seq) : (s.setSeq u q).prevG = s.prevG := rfl
@[simp] theorem State.setSeq_lsOwn (u : SeqUnit) (q : Seq) : (s.setSeq u q).lsOwn = s.lsOwn := rfl
@[simp] theorem State.setSeq_wsets (u : SeqUnit) (q : Seq) : (s.setSeq u q).wsets = s.wsets := rfl
@[simp] theorem State.setSeq_evt (u : SeqUnit) (q : Seq) : (s.setSeq u q).evt = s.evt := rfl
@[simp] theorem State.setSeq_trc (u : SeqUnit) (q : Seq) : (s.setSeq u q).trc = s.trc := rfl
@[simp] theorem State.setSeq_pmuLc (u : SeqUnit) (q : Seq) : (s.setSeq u q).pmuLc = s.pmuLc := rfl
@[simp] theorem State.setSeq_twLast (u : SeqUnit) (q : Seq) : (s.setSeq u q).twLast = s.twLast := rfl
@[simp] theorem State.setSeq_msix (u : SeqUnit) (q : Seq) : (s.setSeq u q).msix = s.msix := rfl
@[simp] theorem State.setSeq_porLow (u : SeqUnit) (q : Seq) : (s.setSeq u q).porLow = s.porLow := rfl
@[simp] theorem State.setSeq_perstLow (u : SeqUnit) (q : Seq) : (s.setSeq u q).perstLow = s.perstLow := rfl
@[simp] theorem State.setSeq_thermtrip (u : SeqUnit) (q : Seq) : (s.setSeq u q).thermtrip = s.thermtrip := rfl
@[simp] theorem State.setSeq_perstReset (u : SeqUnit) (q : Seq) : (s.setSeq u q).perstReset = s.perstReset := rfl
@[simp] theorem State.setSeq_sensed (u : SeqUnit) (q : Seq) : (s.setSeq u q).sensed = s.sensed := rfl
@[simp] theorem State.setSeq_bootWin (u : SeqUnit) (q : Seq) : (s.setSeq u q).bootWin = s.bootWin := rfl
@[simp] theorem State.setSeq_bootLen (u : SeqUnit) (q : Seq) : (s.setSeq u q).bootLen = s.bootLen := rfl
@[simp] theorem State.setSeq_boots (u : SeqUnit) (q : Seq) : (s.setSeq u q).boots = s.boots := rfl
@[simp] theorem State.setSeq_bootHdr (u : SeqUnit) (q : Seq) : (s.setSeq u q).bootHdr = s.bootHdr := rfl
@[simp] theorem State.setSeq_bootTabs (u : SeqUnit) (q : Seq) : (s.setSeq u q).bootTabs = s.bootTabs := rfl
@[simp] theorem State.setSeq_spdm (u : SeqUnit) (q : Seq) : (s.setSeq u q).spdm = s.spdm := rfl
@[simp] theorem State.setSeq_tapIr (u : SeqUnit) (q : Seq) : (s.setSeq u q).tapIr = s.tapIr := rfl
@[simp] theorem State.setSeq_nonce (u : SeqUnit) (q : Seq) : (s.setSeq u q).nonce = s.nonce := rfl
@[simp] theorem State.setSeq_authOfs (u : SeqUnit) (q : Seq) : (s.setSeq u q).authOfs = s.authOfs := rfl
@[simp] theorem State.setSeq_gstopLc (u : SeqUnit) (q : Seq) : (s.setSeq u q).gstopLc = s.gstopLc := rfl
@[simp] theorem State.setSeq_gresume (u : SeqUnit) (q : Seq) : (s.setSeq u q).gresume = s.gresume := rfl
@[simp] theorem State.setSeq_dump (u : SeqUnit) (q : Seq) : (s.setSeq u q).dump = s.dump := rfl
@[simp] theorem State.setSeq_power (u : SeqUnit) (q : Seq) : (s.setSeq u q).power = s.power := rfl
@[simp] theorem State.setSeq_pdGo (u : SeqUnit) (q : Seq) : (s.setSeq u q).pdGo = s.pdGo := rfl
@[simp] theorem State.setSeq_cardLimit (u : SeqUnit) (q : Seq) : (s.setSeq u q).cardLimit = s.cardLimit := rfl
@[simp] theorem State.setSeq_ansStatus (u : SeqUnit) (q : Seq) : (s.setSeq u q).ansStatus = s.ansStatus := rfl
@[simp] theorem State.setSeq_ansData (u : SeqUnit) (q : Seq) : (s.setSeq u q).ansData = s.ansData := rfl

/-! An access answered. -/

@[simp] theorem State.answer_pending (st : Nat) (l : List Byte) : (s.answer st l).pending = s.pending := rfl
@[simp] theorem State.answer_free (st : Nat) (l : List Byte) : (s.answer st l).free = s.free := rfl
@[simp] theorem State.answer_ident (st : Nat) (l : List Byte) : (s.answer st l).ident = s.ident := rfl
@[simp] theorem State.answer_lc (st : Nat) (l : List Byte) : (s.answer st l).lc = s.lc := rfl
@[simp] theorem State.answer_tb (st : Nat) (l : List Byte) : (s.answer st l).tb = s.tb := rfl
@[simp] theorem State.answer_ofs (st : Nat) (l : List Byte) : (s.answer st l).ofs = s.ofs := rfl
@[simp] theorem State.answer_ofsStep (st : Nat) (l : List Byte) : (s.answer st l).ofsStep = s.ofsStep := rfl
@[simp] theorem State.answer_syncLc (st : Nat) (l : List Byte) : (s.answer st l).syncLc = s.syncLc := rfl
@[simp] theorem State.answer_alignPend (st : Nat) (l : List Byte) : (s.answer st l).alignPend = s.alignPend := rfl
@[simp] theorem State.answer_replicas (st : Nat) (l : List Byte) : (s.answer st l).replicas = s.replicas := rfl
@[simp] theorem State.answer_regs (st : Nat) (l : List Byte) : (s.answer st l).regs = s.regs := rfl
@[simp] theorem State.answer_mem (st : Nat) (l : List Byte) : (s.answer st l).mem = s.mem := rfl
@[simp] theorem State.answer_host (st : Nat) (l : List Byte) : (s.answer st l).host = s.host := rfl
@[simp] theorem State.answer_badWords (st : Nat) (l : List Byte) : (s.answer st l).badWords = s.badWords := rfl
@[simp] theorem State.answer_seqs (st : Nat) (l : List Byte) : (s.answer st l).seqs = s.seqs := rfl
@[simp] theorem State.answer_tokens (st : Nat) (l : List Byte) : (s.answer st l).tokens = s.tokens := rfl
@[simp] theorem State.answer_remote (st : Nat) (l : List Byte) : (s.answer st l).remote = s.remote := rfl
@[simp] theorem State.answer_nextOp (st : Nat) (l : List Byte) : (s.answer st l).nextOp = s.nextOp := rfl
@[simp] theorem State.answer_fabSeq (st : Nat) (l : List Byte) : (s.answer st l).fabSeq = s.fabSeq := rfl
@[simp] theorem State.answer_homes (st : Nat) (l : List Byte) : (s.answer st l).homes = s.homes := rfl
@[simp] theorem State.answer_links (st : Nat) (l : List Byte) : (s.answer st l).links = s.links := rfl
@[simp] theorem State.answer_egress (st : Nat) (l : List Byte) : (s.answer st l).egress = s.egress := rfl
@[simp] theorem State.answer_yellowQ (st : Nat) (l : List Byte) : (s.answer st l).yellowQ = s.yellowQ := rfl
@[simp] theorem State.answer_localReqs (st : Nat) (l : List Byte) : (s.answer st l).localReqs = s.localReqs := rfl
@[simp] theorem State.answer_localReps (st : Nat) (l : List Byte) : (s.answer st l).localReps = s.localReps := rfl
@[simp] theorem State.answer_mirrors (st : Nat) (l : List Byte) : (s.answer st l).mirrors = s.mirrors := rfl
@[simp] theorem State.answer_spareElec (st : Nat) (l : List Byte) : (s.answer st l).spareElec = s.spareElec := rfl
@[simp] theorem State.answer_eng (st : Nat) (l : List Byte) : (s.answer st l).eng = s.eng := rfl
@[simp] theorem State.answer_stimers (st : Nat) (l : List Byte) : (s.answer st l).stimers = s.stimers := rfl
@[simp] theorem State.answer_bh (st : Nat) (l : List Byte) : (s.answer st l).bh = s.bh := rfl
@[simp] theorem State.answer_crkFlows (st : Nat) (l : List Byte) : (s.answer st l).crkFlows = s.crkFlows := rfl
@[simp] theorem State.answer_crkPaths (st : Nat) (l : List Byte) : (s.answer st l).crkPaths = s.crkPaths := rfl
@[simp] theorem State.answer_crkPorts (st : Nat) (l : List Byte) : (s.answer st l).crkPorts = s.crkPorts := rfl
@[simp] theorem State.answer_crkWait (st : Nat) (l : List Byte) : (s.answer st l).crkWait = s.crkWait := rfl
@[simp] theorem State.answer_crkWords (st : Nat) (l : List Byte) : (s.answer st l).crkWords = s.crkWords := rfl
@[simp] theorem State.answer_crkHost (st : Nat) (l : List Byte) : (s.answer st l).crkHost = s.crkHost := rfl
@[simp] theorem State.answer_rclkLow (st : Nat) (l : List Byte) : (s.answer st l).rclkLow = s.rclkLow := rfl
@[simp] theorem State.answer_steps (st : Nat) (l : List Byte) : (s.answer st l).steps = s.steps := rfl
@[simp] theorem State.answer_nextStep (st : Nat) (l : List Byte) : (s.answer st l).nextStep = s.nextStep := rfl
@[simp] theorem State.answer_resets (st : Nat) (l : List Byte) : (s.answer st l).resets = s.resets := rfl
@[simp] theorem State.answer_nextReset (st : Nat) (l : List Byte) : (s.answer st l).nextReset = s.nextReset := rfl
@[simp] theorem State.answer_deadUnits (st : Nat) (l : List Byte) : (s.answer st l).deadUnits = s.deadUnits := rfl
@[simp] theorem State.answer_hbLc (st : Nat) (l : List Byte) : (s.answer st l).hbLc = s.hbLc := rfl
@[simp] theorem State.answer_pwrcyc (st : Nat) (l : List Byte) : (s.answer st l).pwrcyc = s.pwrcyc := rfl
@[simp] theorem State.answer_bankGo (st : Nat) (l : List Byte) : (s.answer st l).bankGo = s.bankGo := rfl
@[simp] theorem State.answer_ownerReqs (st : Nat) (l : List Byte) : (s.answer st l).ownerReqs = s.ownerReqs := rfl
@[simp] theorem State.answer_wipes (st : Nat) (l : List Byte) : (s.answer st l).wipes = s.wipes := rfl
@[simp] theorem State.answer_training (st : Nat) (l : List Byte) : (s.answer st l).training = s.training := rfl
@[simp] theorem State.answer_tier (st : Nat) (l : List Byte) : (s.answer st l).tier = s.tier := rfl
@[simp] theorem State.answer_tc (st : Nat) (l : List Byte) : (s.answer st l).tc = s.tc := rfl
@[simp] theorem State.answer_held (st : Nat) (l : List Byte) : (s.answer st l).held = s.held := rfl
@[simp] theorem State.answer_rings (st : Nat) (l : List Byte) : (s.answer st l).rings = s.rings := rfl
@[simp] theorem State.answer_ringScan (st : Nat) (l : List Byte) : (s.answer st l).ringScan = s.ringScan := rfl
@[simp] theorem State.answer_cmds (st : Nat) (l : List Byte) : (s.answer st l).cmds = s.cmds := rfl
@[simp] theorem State.answer_nextCmd (st : Nat) (l : List Byte) : (s.answer st l).nextCmd = s.nextCmd := rfl
@[simp] theorem State.answer_stampSel (st : Nat) (l : List Byte) : (s.answer st l).stampSel = s.stampSel := rfl
@[simp] theorem State.answer_fxgCopy (st : Nat) (l : List Byte) : (s.answer st l).fxgCopy = s.fxgCopy := rfl
@[simp] theorem State.answer_fxgWord (st : Nat) (l : List Byte) : (s.answer st l).fxgWord = s.fxgWord := rfl
@[simp] theorem State.answer_swapAt (st : Nat) (l : List Byte) : (s.answer st l).swapAt = s.swapAt := rfl
@[simp] theorem State.answer_quarantined (st : Nat) (l : List Byte) : (s.answer st l).quarantined = s.quarantined := rfl
@[simp] theorem State.answer_quarNext (st : Nat) (l : List Byte) : (s.answer st l).quarNext = s.quarNext := rfl
@[simp] theorem State.answer_suspFrozen (st : Nat) (l : List Byte) : (s.answer st l).suspFrozen = s.suspFrozen := rfl
@[simp] theorem State.answer_placements (st : Nat) (l : List Byte) : (s.answer st l).placements = s.placements := rfl
@[simp] theorem State.answer_shadowRow (st : Nat) (l : List Byte) : (s.answer st l).shadowRow = s.shadowRow := rfl
@[simp] theorem State.answer_tamperStop (st : Nat) (l : List Byte) : (s.answer st l).tamperStop = s.tamperStop := rfl
@[simp] theorem State.answer_prevPt (st : Nat) (l : List Byte) : (s.answer st l).prevPt = s.prevPt := rfl
@[simp] theorem State.answer_prevG (st : Nat) (l : List Byte) : (s.answer st l).prevG = s.prevG := rfl
@[simp] theorem State.answer_lsOwn (st : Nat) (l : List Byte) : (s.answer st l).lsOwn = s.lsOwn := rfl
@[simp] theorem State.answer_wsets (st : Nat) (l : List Byte) : (s.answer st l).wsets = s.wsets := rfl
@[simp] theorem State.answer_evt (st : Nat) (l : List Byte) : (s.answer st l).evt = s.evt := rfl
@[simp] theorem State.answer_trc (st : Nat) (l : List Byte) : (s.answer st l).trc = s.trc := rfl
@[simp] theorem State.answer_pmuLc (st : Nat) (l : List Byte) : (s.answer st l).pmuLc = s.pmuLc := rfl
@[simp] theorem State.answer_twLast (st : Nat) (l : List Byte) : (s.answer st l).twLast = s.twLast := rfl
@[simp] theorem State.answer_msix (st : Nat) (l : List Byte) : (s.answer st l).msix = s.msix := rfl
@[simp] theorem State.answer_porLow (st : Nat) (l : List Byte) : (s.answer st l).porLow = s.porLow := rfl
@[simp] theorem State.answer_perstLow (st : Nat) (l : List Byte) : (s.answer st l).perstLow = s.perstLow := rfl
@[simp] theorem State.answer_thermtrip (st : Nat) (l : List Byte) : (s.answer st l).thermtrip = s.thermtrip := rfl
@[simp] theorem State.answer_perstReset (st : Nat) (l : List Byte) : (s.answer st l).perstReset = s.perstReset := rfl
@[simp] theorem State.answer_sensed (st : Nat) (l : List Byte) : (s.answer st l).sensed = s.sensed := rfl
@[simp] theorem State.answer_bootWin (st : Nat) (l : List Byte) : (s.answer st l).bootWin = s.bootWin := rfl
@[simp] theorem State.answer_bootLen (st : Nat) (l : List Byte) : (s.answer st l).bootLen = s.bootLen := rfl
@[simp] theorem State.answer_boots (st : Nat) (l : List Byte) : (s.answer st l).boots = s.boots := rfl
@[simp] theorem State.answer_bootHdr (st : Nat) (l : List Byte) : (s.answer st l).bootHdr = s.bootHdr := rfl
@[simp] theorem State.answer_bootTabs (st : Nat) (l : List Byte) : (s.answer st l).bootTabs = s.bootTabs := rfl
@[simp] theorem State.answer_spdm (st : Nat) (l : List Byte) : (s.answer st l).spdm = s.spdm := rfl
@[simp] theorem State.answer_tapIr (st : Nat) (l : List Byte) : (s.answer st l).tapIr = s.tapIr := rfl
@[simp] theorem State.answer_nonce (st : Nat) (l : List Byte) : (s.answer st l).nonce = s.nonce := rfl
@[simp] theorem State.answer_authOfs (st : Nat) (l : List Byte) : (s.answer st l).authOfs = s.authOfs := rfl
@[simp] theorem State.answer_gstopLc (st : Nat) (l : List Byte) : (s.answer st l).gstopLc = s.gstopLc := rfl
@[simp] theorem State.answer_gresume (st : Nat) (l : List Byte) : (s.answer st l).gresume = s.gresume := rfl
@[simp] theorem State.answer_dump (st : Nat) (l : List Byte) : (s.answer st l).dump = s.dump := rfl
@[simp] theorem State.answer_power (st : Nat) (l : List Byte) : (s.answer st l).power = s.power := rfl
@[simp] theorem State.answer_pdGo (st : Nat) (l : List Byte) : (s.answer st l).pdGo = s.pdGo := rfl
@[simp] theorem State.answer_cardLimit (st : Nat) (l : List Byte) : (s.answer st l).cardLimit = s.cardLimit := rfl

/-! Bytes stored. -/

@[simp] theorem State.store_pending (off : Nat) (l : List Byte) : (s.store off l).pending = s.pending := rfl
@[simp] theorem State.store_free (off : Nat) (l : List Byte) : (s.store off l).free = s.free := rfl
@[simp] theorem State.store_ident (off : Nat) (l : List Byte) : (s.store off l).ident = s.ident := rfl
@[simp] theorem State.store_lc (off : Nat) (l : List Byte) : (s.store off l).lc = s.lc := rfl
@[simp] theorem State.store_tb (off : Nat) (l : List Byte) : (s.store off l).tb = s.tb := rfl
@[simp] theorem State.store_ofs (off : Nat) (l : List Byte) : (s.store off l).ofs = s.ofs := rfl
@[simp] theorem State.store_ofsStep (off : Nat) (l : List Byte) : (s.store off l).ofsStep = s.ofsStep := rfl
@[simp] theorem State.store_syncLc (off : Nat) (l : List Byte) : (s.store off l).syncLc = s.syncLc := rfl
@[simp] theorem State.store_alignPend (off : Nat) (l : List Byte) : (s.store off l).alignPend = s.alignPend := rfl
@[simp] theorem State.store_replicas (off : Nat) (l : List Byte) : (s.store off l).replicas = s.replicas := rfl
@[simp] theorem State.store_regs (off : Nat) (l : List Byte) : (s.store off l).regs = s.regs := rfl
@[simp] theorem State.store_host (off : Nat) (l : List Byte) : (s.store off l).host = s.host := rfl
@[simp] theorem State.store_seqs (off : Nat) (l : List Byte) : (s.store off l).seqs = s.seqs := rfl
@[simp] theorem State.store_tokens (off : Nat) (l : List Byte) : (s.store off l).tokens = s.tokens := rfl
@[simp] theorem State.store_remote (off : Nat) (l : List Byte) : (s.store off l).remote = s.remote := rfl
@[simp] theorem State.store_nextOp (off : Nat) (l : List Byte) : (s.store off l).nextOp = s.nextOp := rfl
@[simp] theorem State.store_fabSeq (off : Nat) (l : List Byte) : (s.store off l).fabSeq = s.fabSeq := rfl
@[simp] theorem State.store_homes (off : Nat) (l : List Byte) : (s.store off l).homes = s.homes := rfl
@[simp] theorem State.store_links (off : Nat) (l : List Byte) : (s.store off l).links = s.links := rfl
@[simp] theorem State.store_egress (off : Nat) (l : List Byte) : (s.store off l).egress = s.egress := rfl
@[simp] theorem State.store_yellowQ (off : Nat) (l : List Byte) : (s.store off l).yellowQ = s.yellowQ := rfl
@[simp] theorem State.store_localReqs (off : Nat) (l : List Byte) : (s.store off l).localReqs = s.localReqs := rfl
@[simp] theorem State.store_localReps (off : Nat) (l : List Byte) : (s.store off l).localReps = s.localReps := rfl
@[simp] theorem State.store_mirrors (off : Nat) (l : List Byte) : (s.store off l).mirrors = s.mirrors := rfl
@[simp] theorem State.store_spareElec (off : Nat) (l : List Byte) : (s.store off l).spareElec = s.spareElec := rfl
@[simp] theorem State.store_eng (off : Nat) (l : List Byte) : (s.store off l).eng = s.eng := rfl
@[simp] theorem State.store_stimers (off : Nat) (l : List Byte) : (s.store off l).stimers = s.stimers := rfl
@[simp] theorem State.store_bh (off : Nat) (l : List Byte) : (s.store off l).bh = s.bh := rfl
@[simp] theorem State.store_crkFlows (off : Nat) (l : List Byte) : (s.store off l).crkFlows = s.crkFlows := rfl
@[simp] theorem State.store_crkPaths (off : Nat) (l : List Byte) : (s.store off l).crkPaths = s.crkPaths := rfl
@[simp] theorem State.store_crkPorts (off : Nat) (l : List Byte) : (s.store off l).crkPorts = s.crkPorts := rfl
@[simp] theorem State.store_crkWait (off : Nat) (l : List Byte) : (s.store off l).crkWait = s.crkWait := rfl
@[simp] theorem State.store_crkWords (off : Nat) (l : List Byte) : (s.store off l).crkWords = s.crkWords := rfl
@[simp] theorem State.store_crkHost (off : Nat) (l : List Byte) : (s.store off l).crkHost = s.crkHost := rfl
@[simp] theorem State.store_rclkLow (off : Nat) (l : List Byte) : (s.store off l).rclkLow = s.rclkLow := rfl
@[simp] theorem State.store_steps (off : Nat) (l : List Byte) : (s.store off l).steps = s.steps := rfl
@[simp] theorem State.store_nextStep (off : Nat) (l : List Byte) : (s.store off l).nextStep = s.nextStep := rfl
@[simp] theorem State.store_resets (off : Nat) (l : List Byte) : (s.store off l).resets = s.resets := rfl
@[simp] theorem State.store_nextReset (off : Nat) (l : List Byte) : (s.store off l).nextReset = s.nextReset := rfl
@[simp] theorem State.store_deadUnits (off : Nat) (l : List Byte) : (s.store off l).deadUnits = s.deadUnits := rfl
@[simp] theorem State.store_hbLc (off : Nat) (l : List Byte) : (s.store off l).hbLc = s.hbLc := rfl
@[simp] theorem State.store_pwrcyc (off : Nat) (l : List Byte) : (s.store off l).pwrcyc = s.pwrcyc := rfl
@[simp] theorem State.store_bankGo (off : Nat) (l : List Byte) : (s.store off l).bankGo = s.bankGo := rfl
@[simp] theorem State.store_ownerReqs (off : Nat) (l : List Byte) : (s.store off l).ownerReqs = s.ownerReqs := rfl
@[simp] theorem State.store_wipes (off : Nat) (l : List Byte) : (s.store off l).wipes = s.wipes := rfl
@[simp] theorem State.store_training (off : Nat) (l : List Byte) : (s.store off l).training = s.training := rfl
@[simp] theorem State.store_tier (off : Nat) (l : List Byte) : (s.store off l).tier = s.tier := rfl
@[simp] theorem State.store_tc (off : Nat) (l : List Byte) : (s.store off l).tc = s.tc := rfl
@[simp] theorem State.store_held (off : Nat) (l : List Byte) : (s.store off l).held = s.held := rfl
@[simp] theorem State.store_rings (off : Nat) (l : List Byte) : (s.store off l).rings = s.rings := rfl
@[simp] theorem State.store_ringScan (off : Nat) (l : List Byte) : (s.store off l).ringScan = s.ringScan := rfl
@[simp] theorem State.store_cmds (off : Nat) (l : List Byte) : (s.store off l).cmds = s.cmds := rfl
@[simp] theorem State.store_nextCmd (off : Nat) (l : List Byte) : (s.store off l).nextCmd = s.nextCmd := rfl
@[simp] theorem State.store_stampSel (off : Nat) (l : List Byte) : (s.store off l).stampSel = s.stampSel := rfl
@[simp] theorem State.store_fxgCopy (off : Nat) (l : List Byte) : (s.store off l).fxgCopy = s.fxgCopy := rfl
@[simp] theorem State.store_fxgWord (off : Nat) (l : List Byte) : (s.store off l).fxgWord = s.fxgWord := rfl
@[simp] theorem State.store_swapAt (off : Nat) (l : List Byte) : (s.store off l).swapAt = s.swapAt := rfl
@[simp] theorem State.store_quarantined (off : Nat) (l : List Byte) : (s.store off l).quarantined = s.quarantined := rfl
@[simp] theorem State.store_quarNext (off : Nat) (l : List Byte) : (s.store off l).quarNext = s.quarNext := rfl
@[simp] theorem State.store_suspFrozen (off : Nat) (l : List Byte) : (s.store off l).suspFrozen = s.suspFrozen := rfl
@[simp] theorem State.store_placements (off : Nat) (l : List Byte) : (s.store off l).placements = s.placements := rfl
@[simp] theorem State.store_shadowRow (off : Nat) (l : List Byte) : (s.store off l).shadowRow = s.shadowRow := rfl
@[simp] theorem State.store_tamperStop (off : Nat) (l : List Byte) : (s.store off l).tamperStop = s.tamperStop := rfl
@[simp] theorem State.store_prevPt (off : Nat) (l : List Byte) : (s.store off l).prevPt = s.prevPt := rfl
@[simp] theorem State.store_prevG (off : Nat) (l : List Byte) : (s.store off l).prevG = s.prevG := rfl
@[simp] theorem State.store_lsOwn (off : Nat) (l : List Byte) : (s.store off l).lsOwn = s.lsOwn := rfl
@[simp] theorem State.store_wsets (off : Nat) (l : List Byte) : (s.store off l).wsets = s.wsets := rfl
@[simp] theorem State.store_evt (off : Nat) (l : List Byte) : (s.store off l).evt = s.evt := rfl
@[simp] theorem State.store_trc (off : Nat) (l : List Byte) : (s.store off l).trc = s.trc := rfl
@[simp] theorem State.store_pmuLc (off : Nat) (l : List Byte) : (s.store off l).pmuLc = s.pmuLc := rfl
@[simp] theorem State.store_twLast (off : Nat) (l : List Byte) : (s.store off l).twLast = s.twLast := rfl
@[simp] theorem State.store_msix (off : Nat) (l : List Byte) : (s.store off l).msix = s.msix := rfl
@[simp] theorem State.store_porLow (off : Nat) (l : List Byte) : (s.store off l).porLow = s.porLow := rfl
@[simp] theorem State.store_perstLow (off : Nat) (l : List Byte) : (s.store off l).perstLow = s.perstLow := rfl
@[simp] theorem State.store_thermtrip (off : Nat) (l : List Byte) : (s.store off l).thermtrip = s.thermtrip := rfl
@[simp] theorem State.store_perstReset (off : Nat) (l : List Byte) : (s.store off l).perstReset = s.perstReset := rfl
@[simp] theorem State.store_sensed (off : Nat) (l : List Byte) : (s.store off l).sensed = s.sensed := rfl
@[simp] theorem State.store_bootWin (off : Nat) (l : List Byte) : (s.store off l).bootWin = s.bootWin := rfl
@[simp] theorem State.store_bootLen (off : Nat) (l : List Byte) : (s.store off l).bootLen = s.bootLen := rfl
@[simp] theorem State.store_boots (off : Nat) (l : List Byte) : (s.store off l).boots = s.boots := rfl
@[simp] theorem State.store_bootHdr (off : Nat) (l : List Byte) : (s.store off l).bootHdr = s.bootHdr := rfl
@[simp] theorem State.store_bootTabs (off : Nat) (l : List Byte) : (s.store off l).bootTabs = s.bootTabs := rfl
@[simp] theorem State.store_spdm (off : Nat) (l : List Byte) : (s.store off l).spdm = s.spdm := rfl
@[simp] theorem State.store_tapIr (off : Nat) (l : List Byte) : (s.store off l).tapIr = s.tapIr := rfl
@[simp] theorem State.store_nonce (off : Nat) (l : List Byte) : (s.store off l).nonce = s.nonce := rfl
@[simp] theorem State.store_authOfs (off : Nat) (l : List Byte) : (s.store off l).authOfs = s.authOfs := rfl
@[simp] theorem State.store_gstopLc (off : Nat) (l : List Byte) : (s.store off l).gstopLc = s.gstopLc := rfl
@[simp] theorem State.store_gresume (off : Nat) (l : List Byte) : (s.store off l).gresume = s.gresume := rfl
@[simp] theorem State.store_dump (off : Nat) (l : List Byte) : (s.store off l).dump = s.dump := rfl
@[simp] theorem State.store_power (off : Nat) (l : List Byte) : (s.store off l).power = s.power := rfl
@[simp] theorem State.store_pdGo (off : Nat) (l : List Byte) : (s.store off l).pdGo = s.pdGo := rfl
@[simp] theorem State.store_cardLimit (off : Nat) (l : List Byte) : (s.store off l).cardLimit = s.cardLimit := rfl
@[simp] theorem State.store_ansStatus (off : Nat) (l : List Byte) : (s.store off l).ansStatus = s.ansStatus := rfl
@[simp] theorem State.store_ansData (off : Nat) (l : List Byte) : (s.store off l).ansData = s.ansData := rfl

/-! Bytes stored in host memory. -/

@[simp] theorem State.hostStore_pending (a : Nat) (l : List Byte) : (s.hostStore a l).pending = s.pending := rfl
@[simp] theorem State.hostStore_free (a : Nat) (l : List Byte) : (s.hostStore a l).free = s.free := rfl
@[simp] theorem State.hostStore_ident (a : Nat) (l : List Byte) : (s.hostStore a l).ident = s.ident := rfl
@[simp] theorem State.hostStore_lc (a : Nat) (l : List Byte) : (s.hostStore a l).lc = s.lc := rfl
@[simp] theorem State.hostStore_tb (a : Nat) (l : List Byte) : (s.hostStore a l).tb = s.tb := rfl
@[simp] theorem State.hostStore_ofs (a : Nat) (l : List Byte) : (s.hostStore a l).ofs = s.ofs := rfl
@[simp] theorem State.hostStore_ofsStep (a : Nat) (l : List Byte) : (s.hostStore a l).ofsStep = s.ofsStep := rfl
@[simp] theorem State.hostStore_syncLc (a : Nat) (l : List Byte) : (s.hostStore a l).syncLc = s.syncLc := rfl
@[simp] theorem State.hostStore_alignPend (a : Nat) (l : List Byte) : (s.hostStore a l).alignPend = s.alignPend := rfl
@[simp] theorem State.hostStore_replicas (a : Nat) (l : List Byte) : (s.hostStore a l).replicas = s.replicas := rfl
@[simp] theorem State.hostStore_regs (a : Nat) (l : List Byte) : (s.hostStore a l).regs = s.regs := rfl
@[simp] theorem State.hostStore_mem (a : Nat) (l : List Byte) : (s.hostStore a l).mem = s.mem := rfl
@[simp] theorem State.hostStore_badWords (a : Nat) (l : List Byte) : (s.hostStore a l).badWords = s.badWords := rfl
@[simp] theorem State.hostStore_seqs (a : Nat) (l : List Byte) : (s.hostStore a l).seqs = s.seqs := rfl
@[simp] theorem State.hostStore_tokens (a : Nat) (l : List Byte) : (s.hostStore a l).tokens = s.tokens := rfl
@[simp] theorem State.hostStore_remote (a : Nat) (l : List Byte) : (s.hostStore a l).remote = s.remote := rfl
@[simp] theorem State.hostStore_nextOp (a : Nat) (l : List Byte) : (s.hostStore a l).nextOp = s.nextOp := rfl
@[simp] theorem State.hostStore_fabSeq (a : Nat) (l : List Byte) : (s.hostStore a l).fabSeq = s.fabSeq := rfl
@[simp] theorem State.hostStore_homes (a : Nat) (l : List Byte) : (s.hostStore a l).homes = s.homes := rfl
@[simp] theorem State.hostStore_links (a : Nat) (l : List Byte) : (s.hostStore a l).links = s.links := rfl
@[simp] theorem State.hostStore_egress (a : Nat) (l : List Byte) : (s.hostStore a l).egress = s.egress := rfl
@[simp] theorem State.hostStore_yellowQ (a : Nat) (l : List Byte) : (s.hostStore a l).yellowQ = s.yellowQ := rfl
@[simp] theorem State.hostStore_localReqs (a : Nat) (l : List Byte) : (s.hostStore a l).localReqs = s.localReqs := rfl
@[simp] theorem State.hostStore_localReps (a : Nat) (l : List Byte) : (s.hostStore a l).localReps = s.localReps := rfl
@[simp] theorem State.hostStore_mirrors (a : Nat) (l : List Byte) : (s.hostStore a l).mirrors = s.mirrors := rfl
@[simp] theorem State.hostStore_spareElec (a : Nat) (l : List Byte) : (s.hostStore a l).spareElec = s.spareElec := rfl
@[simp] theorem State.hostStore_eng (a : Nat) (l : List Byte) : (s.hostStore a l).eng = s.eng := rfl
@[simp] theorem State.hostStore_stimers (a : Nat) (l : List Byte) : (s.hostStore a l).stimers = s.stimers := rfl
@[simp] theorem State.hostStore_bh (a : Nat) (l : List Byte) : (s.hostStore a l).bh = s.bh := rfl
@[simp] theorem State.hostStore_crkFlows (a : Nat) (l : List Byte) : (s.hostStore a l).crkFlows = s.crkFlows := rfl
@[simp] theorem State.hostStore_crkPaths (a : Nat) (l : List Byte) : (s.hostStore a l).crkPaths = s.crkPaths := rfl
@[simp] theorem State.hostStore_crkPorts (a : Nat) (l : List Byte) : (s.hostStore a l).crkPorts = s.crkPorts := rfl
@[simp] theorem State.hostStore_crkWait (a : Nat) (l : List Byte) : (s.hostStore a l).crkWait = s.crkWait := rfl
@[simp] theorem State.hostStore_crkWords (a : Nat) (l : List Byte) : (s.hostStore a l).crkWords = s.crkWords := rfl
@[simp] theorem State.hostStore_crkHost (a : Nat) (l : List Byte) : (s.hostStore a l).crkHost = s.crkHost := rfl
@[simp] theorem State.hostStore_rclkLow (a : Nat) (l : List Byte) : (s.hostStore a l).rclkLow = s.rclkLow := rfl
@[simp] theorem State.hostStore_steps (a : Nat) (l : List Byte) : (s.hostStore a l).steps = s.steps := rfl
@[simp] theorem State.hostStore_nextStep (a : Nat) (l : List Byte) : (s.hostStore a l).nextStep = s.nextStep := rfl
@[simp] theorem State.hostStore_resets (a : Nat) (l : List Byte) : (s.hostStore a l).resets = s.resets := rfl
@[simp] theorem State.hostStore_nextReset (a : Nat) (l : List Byte) : (s.hostStore a l).nextReset = s.nextReset := rfl
@[simp] theorem State.hostStore_deadUnits (a : Nat) (l : List Byte) : (s.hostStore a l).deadUnits = s.deadUnits := rfl
@[simp] theorem State.hostStore_hbLc (a : Nat) (l : List Byte) : (s.hostStore a l).hbLc = s.hbLc := rfl
@[simp] theorem State.hostStore_pwrcyc (a : Nat) (l : List Byte) : (s.hostStore a l).pwrcyc = s.pwrcyc := rfl
@[simp] theorem State.hostStore_bankGo (a : Nat) (l : List Byte) : (s.hostStore a l).bankGo = s.bankGo := rfl
@[simp] theorem State.hostStore_ownerReqs (a : Nat) (l : List Byte) : (s.hostStore a l).ownerReqs = s.ownerReqs := rfl
@[simp] theorem State.hostStore_wipes (a : Nat) (l : List Byte) : (s.hostStore a l).wipes = s.wipes := rfl
@[simp] theorem State.hostStore_training (a : Nat) (l : List Byte) : (s.hostStore a l).training = s.training := rfl
@[simp] theorem State.hostStore_tier (a : Nat) (l : List Byte) : (s.hostStore a l).tier = s.tier := rfl
@[simp] theorem State.hostStore_tc (a : Nat) (l : List Byte) : (s.hostStore a l).tc = s.tc := rfl
@[simp] theorem State.hostStore_held (a : Nat) (l : List Byte) : (s.hostStore a l).held = s.held := rfl
@[simp] theorem State.hostStore_rings (a : Nat) (l : List Byte) : (s.hostStore a l).rings = s.rings := rfl
@[simp] theorem State.hostStore_ringScan (a : Nat) (l : List Byte) : (s.hostStore a l).ringScan = s.ringScan := rfl
@[simp] theorem State.hostStore_cmds (a : Nat) (l : List Byte) : (s.hostStore a l).cmds = s.cmds := rfl
@[simp] theorem State.hostStore_nextCmd (a : Nat) (l : List Byte) : (s.hostStore a l).nextCmd = s.nextCmd := rfl
@[simp] theorem State.hostStore_stampSel (a : Nat) (l : List Byte) : (s.hostStore a l).stampSel = s.stampSel := rfl
@[simp] theorem State.hostStore_fxgCopy (a : Nat) (l : List Byte) : (s.hostStore a l).fxgCopy = s.fxgCopy := rfl
@[simp] theorem State.hostStore_fxgWord (a : Nat) (l : List Byte) : (s.hostStore a l).fxgWord = s.fxgWord := rfl
@[simp] theorem State.hostStore_swapAt (a : Nat) (l : List Byte) : (s.hostStore a l).swapAt = s.swapAt := rfl
@[simp] theorem State.hostStore_quarantined (a : Nat) (l : List Byte) : (s.hostStore a l).quarantined = s.quarantined := rfl
@[simp] theorem State.hostStore_quarNext (a : Nat) (l : List Byte) : (s.hostStore a l).quarNext = s.quarNext := rfl
@[simp] theorem State.hostStore_suspFrozen (a : Nat) (l : List Byte) : (s.hostStore a l).suspFrozen = s.suspFrozen := rfl
@[simp] theorem State.hostStore_placements (a : Nat) (l : List Byte) : (s.hostStore a l).placements = s.placements := rfl
@[simp] theorem State.hostStore_shadowRow (a : Nat) (l : List Byte) : (s.hostStore a l).shadowRow = s.shadowRow := rfl
@[simp] theorem State.hostStore_tamperStop (a : Nat) (l : List Byte) : (s.hostStore a l).tamperStop = s.tamperStop := rfl
@[simp] theorem State.hostStore_prevPt (a : Nat) (l : List Byte) : (s.hostStore a l).prevPt = s.prevPt := rfl
@[simp] theorem State.hostStore_prevG (a : Nat) (l : List Byte) : (s.hostStore a l).prevG = s.prevG := rfl
@[simp] theorem State.hostStore_lsOwn (a : Nat) (l : List Byte) : (s.hostStore a l).lsOwn = s.lsOwn := rfl
@[simp] theorem State.hostStore_wsets (a : Nat) (l : List Byte) : (s.hostStore a l).wsets = s.wsets := rfl
@[simp] theorem State.hostStore_evt (a : Nat) (l : List Byte) : (s.hostStore a l).evt = s.evt := rfl
@[simp] theorem State.hostStore_trc (a : Nat) (l : List Byte) : (s.hostStore a l).trc = s.trc := rfl
@[simp] theorem State.hostStore_pmuLc (a : Nat) (l : List Byte) : (s.hostStore a l).pmuLc = s.pmuLc := rfl
@[simp] theorem State.hostStore_twLast (a : Nat) (l : List Byte) : (s.hostStore a l).twLast = s.twLast := rfl
@[simp] theorem State.hostStore_msix (a : Nat) (l : List Byte) : (s.hostStore a l).msix = s.msix := rfl
@[simp] theorem State.hostStore_porLow (a : Nat) (l : List Byte) : (s.hostStore a l).porLow = s.porLow := rfl
@[simp] theorem State.hostStore_perstLow (a : Nat) (l : List Byte) : (s.hostStore a l).perstLow = s.perstLow := rfl
@[simp] theorem State.hostStore_thermtrip (a : Nat) (l : List Byte) : (s.hostStore a l).thermtrip = s.thermtrip := rfl
@[simp] theorem State.hostStore_perstReset (a : Nat) (l : List Byte) : (s.hostStore a l).perstReset = s.perstReset := rfl
@[simp] theorem State.hostStore_sensed (a : Nat) (l : List Byte) : (s.hostStore a l).sensed = s.sensed := rfl
@[simp] theorem State.hostStore_bootWin (a : Nat) (l : List Byte) : (s.hostStore a l).bootWin = s.bootWin := rfl
@[simp] theorem State.hostStore_bootLen (a : Nat) (l : List Byte) : (s.hostStore a l).bootLen = s.bootLen := rfl
@[simp] theorem State.hostStore_boots (a : Nat) (l : List Byte) : (s.hostStore a l).boots = s.boots := rfl
@[simp] theorem State.hostStore_bootHdr (a : Nat) (l : List Byte) : (s.hostStore a l).bootHdr = s.bootHdr := rfl
@[simp] theorem State.hostStore_bootTabs (a : Nat) (l : List Byte) : (s.hostStore a l).bootTabs = s.bootTabs := rfl
@[simp] theorem State.hostStore_spdm (a : Nat) (l : List Byte) : (s.hostStore a l).spdm = s.spdm := rfl
@[simp] theorem State.hostStore_tapIr (a : Nat) (l : List Byte) : (s.hostStore a l).tapIr = s.tapIr := rfl
@[simp] theorem State.hostStore_nonce (a : Nat) (l : List Byte) : (s.hostStore a l).nonce = s.nonce := rfl
@[simp] theorem State.hostStore_authOfs (a : Nat) (l : List Byte) : (s.hostStore a l).authOfs = s.authOfs := rfl
@[simp] theorem State.hostStore_gstopLc (a : Nat) (l : List Byte) : (s.hostStore a l).gstopLc = s.gstopLc := rfl
@[simp] theorem State.hostStore_gresume (a : Nat) (l : List Byte) : (s.hostStore a l).gresume = s.gresume := rfl
@[simp] theorem State.hostStore_dump (a : Nat) (l : List Byte) : (s.hostStore a l).dump = s.dump := rfl
@[simp] theorem State.hostStore_power (a : Nat) (l : List Byte) : (s.hostStore a l).power = s.power := rfl
@[simp] theorem State.hostStore_pdGo (a : Nat) (l : List Byte) : (s.hostStore a l).pdGo = s.pdGo := rfl
@[simp] theorem State.hostStore_cardLimit (a : Nat) (l : List Byte) : (s.hostStore a l).cardLimit = s.cardLimit := rfl
@[simp] theorem State.hostStore_ansStatus (a : Nat) (l : List Byte) : (s.hostStore a l).ansStatus = s.ansStatus := rfl
@[simp] theorem State.hostStore_ansData (a : Nat) (l : List Byte) : (s.hostStore a l).ansData = s.ansData := rfl

/-! What the updates change. -/

@[simp] theorem State.setReg_regs (r : RegD) (d : Nat) (ix : List Nat) (v : Word) :
    (s.setReg r d ix v).regs = s.regs.put (r.at d ix) v := rfl
@[simp] theorem State.setSeq_seqs (u : SeqUnit) (q : Seq) : (s.setSeq u q).seqs = s.seqs.put u.key q := rfl
@[simp] theorem State.answer_ansStatus (st : Nat) (l : List Byte) : (s.answer st l).ansStatus = st := rfl
@[simp] theorem State.answer_ansData (st : Nat) (l : List Byte) : (s.answer st l).ansData = l := rfl
@[simp] theorem State.store_mem (off : Nat) (l : List Byte) : (s.store off l).mem = Memory.writeList s.mem off l := rfl
@[simp] theorem State.hostStore_host (a : Nat) (l : List Byte) :
    (s.hostStore a l).host = Memory.writeList s.host a l := rfl

/-! Reading after an update. -/

@[simp] theorem State.seq_setSeq (u : SeqUnit) (q : Seq) : (s.setSeq u q).seq u = q := by
  simp [State.seq, State.setSeq]

/-- The units whose records lie elsewhere are as before. -/
theorem State.seq_setSeq_ne {u v : SeqUnit} (q : Seq) (h : v.key ≠ u.key) : (s.setSeq u q).seq v = s.seq v := by
  simp only [State.seq, State.setSeq]
  exact Tab.getD_put_ne _ _ _ h

@[simp] theorem State.setSeq_setSeq (u : SeqUnit) (p q : Seq) : (s.setSeq u p).setSeq u q = s.setSeq u q := by
  simp [State.setSeq]

@[simp] theorem State.reg_setReg (r : RegD) (d : Nat) (ix : List Nat) (v : Word) :
    (s.setReg r d ix v).reg r d ix = v := by
  simp [State.reg, State.setReg]

/-- A register at another key reads as before. -/
theorem State.reg_setReg_ne {r r' : RegD} {d d' : Nat} {ix ix' : List Nat} (v : Word) (h : r'.at d' ix' ≠ r.at d ix) :
    (s.setReg r d ix v).reg r' d' ix' = s.reg r' d' ix' := by
  simp only [State.reg, State.setReg]
  rw [Tab.find_put_ne _ _ h]

@[simp] theorem State.seq_setReg (r : RegD) (d : Nat) (ix : List Nat) (v : Word) (u : SeqUnit) :
    (s.setReg r d ix v).seq u = s.seq u := rfl
@[simp] theorem State.seq_setFld (r : RegD) (d : Nat) (ix : List Nat) (hi lo x : Nat) (u : SeqUnit) :
    (s.setFld r d ix hi lo x).seq u = s.seq u := rfl
@[simp] theorem State.seq_answer (st : Nat) (l : List Byte) (u : SeqUnit) : (s.answer st l).seq u = s.seq u := rfl
@[simp] theorem State.reg_setSeq (u : SeqUnit) (q : Seq) (r : RegD) (d : Nat) (ix : List Nat) :
    (s.setSeq u q).reg r d ix = s.reg r d ix := rfl
@[simp] theorem State.reg_answer (st : Nat) (l : List Byte) (r : RegD) (d : Nat) (ix : List Nat) :
    (s.answer st l).reg r d ix = s.reg r d ix := rfl
@[simp] theorem State.byte_setSeq (u : SeqUnit) (q : Seq) (off : Nat) : (s.setSeq u q).byte off = s.byte off := rfl
@[simp] theorem State.byte_setReg (r : RegD) (d : Nat) (ix : List Nat) (v : Word) (off : Nat) :
    (s.setReg r d ix v).byte off = s.byte off := rfl
@[simp] theorem State.byte_answer (st : Nat) (l : List Byte) (off : Nat) : (s.answer st l).byte off = s.byte off := rfl
@[simp] theorem State.fld_setSeq (u : SeqUnit) (q : Seq) (r : RegD) (d : Nat) (ix : List Nat) (hi lo : Nat) :
    (s.setSeq u q).fld r d ix hi lo = s.fld r d ix hi lo := rfl
@[simp] theorem State.fld_answer (st : Nat) (l : List Byte) (r : RegD) (d : Nat) (ix : List Nat) (hi lo : Nat) :
    (s.answer st l).fld r d ix hi lo = s.fld r d ix hi lo := rfl

/-! Contexts of a sequencer. -/

@[simp] theorem Seq.ctx_setCtx (q : Seq) (k : Nat) (c : Ctx) : (q.setCtx k c).ctx k = c := by
  simp [Seq.ctx, Seq.setCtx]

theorem Seq.ctx_setCtx_ne (q : Seq) {k j : Nat} (c : Ctx) (h : j ≠ k) : (q.setCtx k c).ctx j = q.ctx j := by
  simp only [Seq.ctx, Seq.setCtx]
  exact Tab.getD_put_ne _ _ _ h

@[simp] theorem Seq.setCtx_setCtx (q : Seq) (k : Nat) (c d : Ctx) : (q.setCtx k c).setCtx k d = q.setCtx k d := by
  simp [Seq.setCtx]

end Sys2Proof.Machine
end

