-- ==== Sys2Proof/Laws/Issue.lean ====
section
/-! SUPPORT. What the shared operation `State.issue` does for a context that is poised to issue: the lemmas through which the
statements about slot operations are proved. -/
namespace Sys2Proof.Machine

/-- With no result on its way, settling only moves the unit's present cycle. -/
theorem settle_of_pend_nil (s : State) (u : SeqUnit) (t : Nat) (h : (s.seq u).pend = []) :
    s.settle u t = s.setSeq u { s.seq u with pend := [], cyc := max (s.seq u).cyc t } := by
  simp [State.settle, h]

/-- The sequencer of a unit in the cycle in which it issues. -/
theorem issuing_seq (s : State) (u : SeqUnit) (h : (s.seq u).pend = []) :
    (s.issuing u).seq u =
      { s.seq u with pend := [], cyc := max (s.seq u).cyc (s.seq u).next, bpPass := false } := by
  simp [State.issuing, settle_of_pend_nil s u _ h]

/-- The breakpoints that name a context's next bundle depend on its program counter alone. -/
theorem bpHits_setSeq (s : State) (u : SeqUnit) (k : Nat) (q : Seq) (h : (q.ctx k).pc = ((s.seq u).ctx k).pc) :
    (s.setSeq u q).bpHits u k = s.bpHits u k := by
  unfold State.bpHits State.bpReg
  rw [State.seq_setSeq, h]
  rfl

/-- A poised context whose bundle raises nothing: the bundle takes effect, what is due as the cycle ends lands, and nothing
else happens but what observes the unit. -/
theorem issue_of_poised (s : State) (u : SeqUnit) (k : Nat) (b : Bundle) (h : s.poised u k) (hb : s.admits u k b) :
    s.issue u b = ((((s.issuing u).runBundle u k (s.seq u).next b).settle u ((s.seq u).next + 1)).observe u (s.seq u)).watchHalt
      u (s.seq u).next := by
  obtain ⟨-, hrun, hcan, hpend, hw, hbp, hpc, -⟩ := h
  have hs := settle_of_pend_nil s u (s.seq u).next hpend
  unfold State.admits at hb
  generalize hq : ({ s.seq u with pend := [], cyc := max (s.seq u).cyc (s.seq u).next } : Seq) = q at hs
  have hcan' : q.canIssue = true := by rw [← hq]; exact hcan
  have hrun' : q.run = some k := by rw [← hq]; exact hrun
  have hdue : q.dbgWatch = none := by rw [← hq]; exact hw
  have hhit : (s.setSeq u q).bpHits u k = [] := by rw [bpHits_setSeq, hbp]; rw [← hq]; rfl
  have hstop : (s.setSeq u q).bpStops u k (s.seq u).next b = false := by simp [State.bpStops, hhit]
  have hpc' : ¬ (q.ctx k).pc ≥ q.codeLen := by rw [← hq]; exact Nat.not_le.mpr hpc
  have hiss : s.issuing u = s.setSeq u { q with bpPass := false } := by simp [State.issuing, hs]
  have hexc : firstExc ((s.setSeq u q).bundleExcs u q (q.ctx k) k (s.seq u).next b) = none := by
    have hn : q.next = (s.seq u).next := by rw [← hq]
    simpa [hs, hn] using hb
  simp only [State.issue, hrun, hcan, hs, hstop, State.seq_setSeq, hcan', hrun', hdue]
  simp [State.issueAt, hpc', hexc, State.watchEnd, hiss]

/-! Nothing observes the device. -/

theorem fld_congr {s t : State} (h : t.regs = s.regs) (r : RegD) (d : Nat) (ix : List Nat) (hi lo : Nat) :
    t.fld r d ix hi lo = s.fld r d ix hi lo := by
  simp [State.fld, State.reg, h]

/-- Whether the device is observed depends on its registers alone. -/
theorem unobserved_congr {s t : State} (h : t.regs = s.regs) (hs : s.unobserved) : t.unobserved := by
  intro die hd
  obtain ⟨h1, h2, h3⟩ := hs die hd
  refine ⟨?_, ?_, fun w hw => ?_⟩
  · rw [fld_congr h]; exact h1
  · rw [fld_congr h]; exact h2
  · rw [fld_congr h]; exact h3 w hw

/-- Counters that are not enabled count nothing (R565). -/
theorem pmuAt_off {s : State} {die : Nat} (h : s.fld R.pmuCtl die [] 0 0 = 0) (code : Nat) (unit : Option Nat) (n : Nat) :
    s.pmuAt die code unit n = s := by
  simp [State.pmuAt, h]

/-- A trace unit that is not enabled records nothing (R562). -/
theorem trace_off {s : State} {die : Nat} (h : s.fld R.trcCfg die [] 0 0 = 0) (src : Option Nat) (ty un pa : Nat)
    (l : List Byte) : s.trace die src ty un pa l = s := by
  simp [State.trace, h]

/-- Whether the die that a region names is one of the device's. -/
def Region.inDevice : Region → Bool
  | .hbm d _ => decide (d < 16)
  | .sp d _ => decide (d < 16)
  | .xch d _ => decide (d < 16)
  | .sealed d _ => decide (d < 16)
  | .iris i _ => decide (i < 4)
  | _ => true

/-- The offset map names only dies of the device (R35). -/
theorem regionOf_inDevice (off : Nat) : (regionOf off).inDevice = true := by
  unfold regionOf
  dsimp only
  repeat' split
  all_goals first
    | rfl
    | (simp only [Region.inDevice, decide_eq_true_eq]; omega)

/-- The HBM3E stacks lie on dies of the device. -/
theorem hbmDie_lt {off d o : Nat} (h : regionOf off = .hbm d o) : d < 32 := by
  have hr := regionOf_inDevice off
  rw [h] at hr
  simp only [Region.inDevice, decide_eq_true_eq] at hr
  omega

/-- The watchpoints of an access lie on a die of the device. -/
theorem watchDie_lt {off d : Nat} (h : watchDie off = some d) : d < 32 := by
  have hr := regionOf_inDevice off
  unfold watchDie at h
  split at h
  case h_4 => cases h
  all_goals
    rename_i heq
    rw [heq] at hr
    injection h with h
    simp only [Region.inDevice, decide_eq_true_eq] at hr
    omega

/-- An access of an unobserved device leaves nothing behind (R556, R565). -/
theorem access_off {s : State} (hs : s.unobserved) (m : Master) (off n : Nat) (wr : Bool) : s.access m off n wr = s := by
  have hc : s.countAccess m off n wr = s := by
    unfold State.countAccess
    split
    · next d o hr => exact pmuAt_off (hs d (hbmDie_lt hr)).1 _ _ _
    · exact pmuAt_off (hs 30 (by omega)).1 _ _ _
    · rfl
  unfold State.access State.accessBy
  simp only [hc]
  split
  · rfl
  · next d hd =>
    have hw := (hs d (watchDie_lt hd)).2.2
    have hz : ∀ w < 4, s.watchHits d w off n wr = false := by
      intro w hw4
      simp [State.watchHits, hw w hw4]
    have h4 : List.range 4 = [0, 1, 2, 3] := rfl
    simp [h4, hz]

/-- A list of accesses of an unobserved device leaves nothing behind. -/
theorem accessAll_off {s : State} (hs : s.unobserved) (m : Master) (l : List (Nat × Nat)) (wr : Bool) :
    s.accessAll m l wr = s := by
  unfold State.accessAll
  induction l with
  | nil => rfl
  | cons e t ih => simp [List.foldl_cons, access_off hs, ih]

/-- What observes a bundle sees nothing of an unobserved device. -/
theorem seen_off {s : State} (hs : s.unobserved) {u : SeqUnit} (hu : unitDie u < 32) (q : Seq) (c : Ctx) (b : Bundle)
    (l : List (Nat × Effect)) (taken : Bool) : s.seen u q c b l taken = s := by
  have hp (code un n : Nat) : s.pmu (unitDie u) code un n = s := pmuAt_off (hs _ hu).1 _ _ _
  unfold State.seen
  simp only [hp, accessAll_off hs, ite_self]
  split
  · rfl
  · split
    · simp only [accessAll_off hs]
    · simp only [accessAll_off hs]

/-- The counters and the trace see nothing of an unobserved device. -/
theorem observe_off {s : State} (hs : s.unobserved) {u : SeqUnit} (hu : unitDie u < 32) (old : Seq) :
    s.observe u old = s := by
  have hp (code un n : Nat) : s.pmu (unitDie u) code un n = s := pmuAt_off (hs _ hu).1 _ _ _
  have ht (n : Option Nat) (ty un pa : Nat) (l : List Byte) : s.trace (unitDie u) n ty un pa l = s :=
    trace_off (hs _ hu).2.1 _ _ _ _ _
  unfold State.observe
  simp only [hp, ite_self, ht]

/-- With one result on its way that is due, settling makes it land. -/
theorem settle_one (s : State) (u : SeqUnit) (q : Seq) (x : Pend) (t : Nat) (hq : q.pend = [x]) (hx : x.due ≤ t) :
    (s.setSeq u q).settle u t = (s.setSeq u { q with pend := [], cyc := max q.cyc t }).land u x := by
  simp [State.settle, hq, hx]

/-! A bundle with a CTL operation alone. -/

section
variable (s : State) (u : SeqUnit) (q : Seq) (c : Ctx) (k t : Nat) (p : BitVec 4)

/-- What a bundle with a CTL operation alone raises. -/
theorem firstExc_ctl (op : CtlOp) :
    firstExc (s.bundleExcs u q c k t ((aloneIn p).withCtl op)) = (ctlExc q c k op).map (fun e => (0, e)) := by
  show firstExc ((0, ctlExc q c k op) :: _) = _
  cases ctlExc q c k op with
  | some e => rfl
  | none =>
    show firstExc (if c.pred p then _ else _) = _
    cases c.pred p <;> rfl

/-- The effects of a bundle with a CTL operation alone. -/
theorem effects_ctl (op : CtlOp) :
    s.bundleEffects u q c k t ((aloneIn p).withCtl op) = ctlEffects q c t op := by
  show ctlEffects q c t op ++ (if c.pred p then _ else _) = _
  cases c.pred p <;> simp [aloneIn, Bundle.withCtl, State.aguEffects, bcstEffects, State.strmEffects, State.macOf, macTile, State.vecEffects, vecTile, State.xferEffects]

/-- What a CTL operation alone changes of its unit at once. -/
theorem unit_ctl (op : CtlOp) :
    s.bundleUnit u q c k t ((aloneIn p).withCtl op) = ctlCounts q c op := by
  show (if c.pred p then _ else _) = _
  cases c.pred p <;> rfl
/-- A bundle with a CTL operation alone that raises nothing, on an unobserved device: its effects are put on their way and its
context goes on. -/
theorem run_ctl (hs : s.unobserved) (hu : unitDie u < 32) (op : CtlOp) :
    s.runBundle u k t ((aloneIn p).withCtl op) =
      let q := s.seq u
      let c := q.ctx k
      let q2 := (ctlEffects q c t op).foldl (fun q e => q.push (t + e.1) k e.2) (ctlCounts q c op)
      let q4 := q2.flow u k t (startLoop (q2.ctx k) ((aloneIn p).withCtl op)) (ctlFlow c op) .none
      s.setSeq u (if ctlFlow c op = .commit then q4.push (t + 8) k .stepDone else q4) := by
  have hw (x : Bool) (q : Seq) : (if x then s.xferWait u q k .nop else XWait.none) = .none := by cases x <;> rfl
  have ht (x : Bool) (q : Seq) (c : Ctx) : (if x then s.tensorEffects u q c .nop else []) = [] := by
    cases x
    · rfl
    · simp [State.tensorEffects, vecTile]
  have hd (q : Seq) (c : Ctx) : s.bundleDraws q c ((aloneIn p).withCtl op) = 0 := by
    unfold State.bundleDraws
    cases c.pred _ <;> rfl
  have hg (x : Bool) (s : State) (q : Seq) (c : Ctx) : (if x then s.xferGlobal u q c k t .nop else s) = s := by
    cases x <;> rfl
  have hv : (((aloneIn p).withCtl op).vec.getD .nop) = .nop := rfl
  have hx : (((aloneIn p).withCtl op).xfer.getD .nop) = .nop := rfl
  have hc : (((aloneIn p).withCtl op).ctl.getD .nop) = op := rfl
  unfold State.runBundle
  simp only [effects_ctl, unit_ctl, hv, hx, hc, hw, ht, hd, hg, List.append_nil]
  generalize List.foldl _ _ _ = q2
  have hsz : State.setSeq { s with free := s.free + 0 } u q2 = s.setSeq u q2 := rfl
  rw [hsz]
  have h2 : (s.setSeq u q2).unobserved := unobserved_congr (s := s) rfl hs
  simp only [seen_off h2 hu, State.seq_setSeq, State.setSeq_setSeq]

end

end Sys2Proof.Machine
end

