-- ==== Sys2Proof/Laws/Memory.lean ====
section
/-! SUPPORT. The memories: every operation keeps the canonical form, a read after a write gives the value written, and a write
leaves every other offset alone. -/
namespace Sys2Proof.Machine

/-- A filter of a table whose listed values satisfy a test keeps them so; so do the other table operations. -/
theorem Memory.all_put (m : Tab Byte) (k : Nat) (v : Byte) (hv : (v != 0) = true)
    (hm : m.all (fun e => e.2 != 0) = true) : (Tab.put m k v).all (fun e => e.2 != 0) = true := by
  induction m with
  | nil => simpa [Tab.put] using hv
  | cons e t ih =>
    obtain ⟨a, b⟩ := e
    simp only [List.all_cons, Bool.and_eq_true] at hm
    simp only [Tab.put]
    split
    · simp only [List.all_cons, Bool.and_eq_true]; exact ⟨hv, hm.1, hm.2⟩
    · split
      · simp only [List.all_cons, Bool.and_eq_true]; exact ⟨hv, hm.2⟩
      · simp only [List.all_cons, Bool.and_eq_true]; exact ⟨hm.1, ih hm.2⟩

theorem Memory.all_del (m : Tab Byte) (k : Nat) (hm : m.all (fun e => e.2 != 0) = true) :
    (Tab.del m k).all (fun e => e.2 != 0) = true := by
  induction m with
  | nil => rfl
  | cons e t ih =>
    obtain ⟨a, b⟩ := e
    simp only [List.all_cons, Bool.and_eq_true] at hm
    simp only [Tab.del]
    split
    · simp only [List.all_cons, Bool.and_eq_true]; exact hm
    · split
      · exact hm.2
      · simp only [List.all_cons, Bool.and_eq_true]; exact ⟨hm.1, ih hm.2⟩

theorem Memory.wf_write (m : Tab Byte) (off : Nat) (b : Byte) (hm : Memory.wf m = true) :
    Memory.wf (Memory.write m off b) = true := by
  simp only [Memory.wf, Bool.and_eq_true] at hm ⊢
  simp only [Memory.write]
  split
  · exact ⟨Tab.wf_del m off hm.1, Memory.all_del m off hm.2⟩
  · rename_i h
    exact ⟨Tab.wf_put m off b hm.1, Memory.all_put m off b (by simpa using h) hm.2⟩

theorem Memory.wf_writeList (m : Tab Byte) (off : Nat) (l : List Byte) (hm : Memory.wf m = true) :
    Memory.wf (Memory.writeList m off l) = true := by
  induction l generalizing m off with
  | nil => exact hm
  | cons b t ih => exact ih _ _ (Memory.wf_write m off b hm)

theorem Memory.wf_keep (m : Tab Byte) (p : Nat → Bool) (hm : Memory.wf m = true) : Memory.wf (Tab.keep m p) = true := by
  simp only [Memory.wf, Bool.and_eq_true] at hm ⊢
  refine ⟨Tab.wf_keep m p hm.1, ?_⟩
  have h := hm.2
  simp only [List.all_eq_true] at h ⊢
  intro e he
  exact h e (List.mem_filter.mp he).1

/-- A fold of single writes keeps the form. -/
theorem Memory.wf_writes (m : Tab Byte) (l : List (Nat × Byte)) (hm : Memory.wf m = true) :
    Memory.wf (l.foldl (fun m c => Memory.write m c.1 c.2) m) = true := by
  induction l generalizing m with
  | nil => exact hm
  | cons c t ih => exact ih _ (Memory.wf_write m c.1 c.2 hm)

/-- The byte just written is read back. -/
theorem Memory.getD_write_same (m : Tab Byte) (off : Nat) (b : Byte) (hm : Memory.wf m = true) :
    (Memory.write m off b).getD off 0 = b := by
  simp only [Memory.wf, Bool.and_eq_true] at hm
  simp only [Memory.write]
  split
  · rename_i h
    simp only [Tab.getD, Tab.find_del_same m 0 off hm.1, h]; rfl
  · simp

/-- Every other byte reads as before. -/
theorem Memory.getD_write_ne (m : Tab Byte) {off j : Nat} (b : Byte) (h : j ≠ off) (hm : Memory.wf m = true) :
    (Memory.write m off b).getD j 0 = m.getD j 0 := by
  simp only [Memory.wf, Bool.and_eq_true] at hm
  simp only [Memory.write]
  split
  · simp only [Tab.getD, Tab.find_del_ne m 0 h hm.1]
  · exact Tab.getD_put_ne m b 0 h

/-- The bytes outside a written range read as before. -/
theorem Memory.getD_writeList_out (m : Tab Byte) (off j : Nat) (l : List Byte) (h : j < off ∨ off + l.length ≤ j)
    (hm : Memory.wf m = true) : (Memory.writeList m off l).getD j 0 = m.getD j 0 := by
  induction l generalizing m off with
  | nil => rfl
  | cons b t ih =>
    simp only [List.length_cons] at h
    simp only [Memory.writeList]
    rw [ih _ _ (by omega) (Memory.wf_write m off b hm)]
    exact Memory.getD_write_ne m b (by omega) hm

/-- Byte i of a written range is the i-th byte written. -/
theorem Memory.getD_writeList_in (m : Tab Byte) (off i : Nat) (l : List Byte) (h : i < l.length)
    (hm : Memory.wf m = true) : (Memory.writeList m off l).getD (off + i) 0 = l[i] := by
  induction l generalizing m off i with
  | nil => simp at h
  | cons b t ih =>
    simp only [Memory.writeList]
    cases i with
    | zero =>
      rw [Memory.getD_writeList_out _ _ _ _ (by omega) (Memory.wf_write m off b hm)]
      simpa using Memory.getD_write_same m off b hm
    | succ i =>
      have e : off + (i + 1) = off + 1 + i := by omega
      rw [e, ih _ _ _ (by simpa using h) (Memory.wf_write m off b hm)]
      rfl

/-- A store leaves every byte outside its range as it was. -/
theorem State.byte_store_out (s : State) (off j : Nat) (l : List Byte) (h : j < off ∨ off + l.length ≤ j)
    (hm : Memory.wf s.mem = true) : (s.store off l).byte j = s.byte j :=
  Memory.getD_writeList_out s.mem off j l h hm

/-- A byte of a stored range is read back. -/
theorem State.byte_store_in (s : State) (off i : Nat) (l : List Byte) (h : i < l.length) (hm : Memory.wf s.mem = true) :
    (s.store off l).byte (off + i) = l[i] :=
  Memory.getD_writeList_in s.mem off i l h hm

theorem State.reset_memory_wf : Memory.wf State.reset.mem && Memory.wf State.reset.host = true := by
  decide

end Sys2Proof.Machine
end

