-- ==== Sys2Proof/WellFormed.lean ====
section
/-! DEFINITION. Which commands are well formed: every operand lies in the range that the device gives it, and every slot
operation fits its format. A command whose operand lies beyond its range is no command of the device; the meanings take such
an operand modulo the range, or leave the state as it is. -/
namespace Sys2Proof

/-- Whether a sequencer exists: clusters 0 to 127 and DSP cores 0 to 191 (R79, R121). -/
def SeqUnit.inRange : SeqUnit → Bool
  | .cluster n => decide (n < 128)
  | .iris n => decide (n < 192)

/-- Whether a master exists (R24, R258, R498). -/
def Master.inRange : Master → Bool
  | .core n => decide (n < 24)
  | .fn n => decide (n < 64)
  | .foxglove => true
  | .debug perm => decide (perm < 4)
  | .fabric node part => decide (node < 65536) && decide (part < 64)
  | .unit u => u.inRange
  | .tier e => decide (e < 8)
  | .crocus c => decide (c < 2)
  | .lockstep => true
  | .digest => true
  | .dma part => decide (part < 64)

/-- Whether the path of a debug command exists (R547). -/
def DbgPath.inRange : DbgPath → Bool
  | .tap => true
  | .host m => m.inRange

/-- Whether a slot that holds a defined operation holds one that its format can encode; a slot with an undefined encoding
is an operand like any other (R89, R128). -/
def Bundle.formed (b : Bundle) : Bool :=
  (b.agu0.map AguOp.encodable).getD true && (b.agu1.map AguOp.encodable).getD true && (b.xfer.map XferOp.encodable).getD true

/-- Whether a mesh transfer has a source die and moves at least one byte (R28). -/
def MeshXfer.inRange (x : MeshXfer) : Bool :=
  x.m.inRange && decide (x.src < 32) && decide (x.off < 2 ^ 48) && decide (0 < if x.write then x.data.length else x.len)

/-- Whether a received frame names a port of its die, and its tag, ethertype and length have their widths (R334, R336). -/
def RxFrame.inRange (x : RxFrame) : Bool :=
  decide (x.lane < 16) && decide (x.ethertype < 65536) && decide (x.len < 65536) &&
  (match x.tag with
   | none => true
   | some (vid, pcp) => decide (vid < 4096) && decide (pcp < 8))

/-- Whether a command is well formed. -/
def Instr.wf : Instr → Bool
  | .registerWrite m off width _ => m.inRange && decide (off < 2 ^ 48) && (width == 4 || width == 8)
  | .meshTransfer x => x.inRange
  | .spareRetire m die lc _ => m.inRange && decide (die < 16) && decide (lc < 8)
  | .nop u b => u.inRange && b.formed
  | .execPastCodeEnd u => u.inRange
  | .faultDrainComplete _ => true
  | .memoryErrorDetected u off => u.inRange && decide (off < 2 ^ 48)
  | .resultVisible u => u.inRange
  | .contextResume u => u.inRange
  | .remoteReplyArrival u _ _ => u.inRange
  | .tokenArrival _ _ => true
  | .unscheduledBankWin u _ _ _ => u.inRange
  | .add u _ _ _ w => u.inRange && w.formed
  | .sub u _ _ _ w => u.inRange && w.formed
  | .andOp u _ _ _ w => u.inRange && w.formed
  | .orOp u _ _ _ w => u.inRange && w.formed
  | .xorOp u _ _ _ w => u.inRange && w.formed
  | .shl u _ _ _ w => u.inRange && w.formed
  | .shr u _ _ _ w => u.inRange && w.formed
  | .sra u _ _ _ w => u.inRange && w.formed
  | .mul u _ _ _ w => u.inRange && w.formed
  | .min u _ _ _ w => u.inRange && w.formed
  | .max u _ _ _ w => u.inRange && w.formed
  | .minu u _ _ _ w => u.inRange && w.formed
  | .maxu u _ _ _ w => u.inRange && w.formed
  | .addi u _ _ _ w => u.inRange && w.formed
  | .andi u _ _ _ w => u.inRange && w.formed
  | .ori u _ _ _ w => u.inRange && w.formed
  | .xori u _ _ _ w => u.inRange && w.formed
  | .shli u _ _ _ w => u.inRange && w.formed
  | .shri u _ _ _ w => u.inRange && w.formed
  | .srai u _ _ _ w => u.inRange && w.formed
  | .li u _ _ w => u.inRange && w.formed
  | .lis u _ _ w => u.inRange && w.formed
  | .cmp u _ _ _ _ w => u.inRange && w.formed
  | .cmpi u _ _ _ _ w => u.inRange && w.formed
  | .cmpf u _ _ _ _ w => u.inRange && w.formed
  | .plog u _ _ _ _ _ _ w => u.inRange && w.formed
  | .mov u _ _ _ _ w => u.inRange && w.formed
  | .rdsr u _ _ w => u.inRange && w.formed
  | .br u _ _ w => u.inRange && w.formed
  | .call u _ _ w => u.inRange && w.formed
  | .jr u _ _ w => u.inRange && w.formed
  | .bskip u _ _ w => u.inRange && w.formed
  | .loop u _ _ _ w => u.inRange && w.formed
  | .loopi u _ _ _ w => u.inRange && w.formed
  | .idle u _ w => u.inRange && w.formed
  | .yield u w => u.inRange && w.formed
  | .halt u w => u.inRange && w.formed
  | .commit u _ w => u.inRange && w.formed
  | .amod u _ _ _ _ w => u.inRange && w.formed
  | .ld8 u _ _ _ _ _ w => u.inRange && w.formed
  | .ld16 u _ _ _ _ _ w => u.inRange && w.formed
  | .ld32 u _ _ _ _ _ w => u.inRange && w.formed
  | .ld64 u _ _ _ _ _ w => u.inRange && w.formed
  | .ldqs u _ _ _ _ _ w => u.inRange && w.formed
  | .ldqw u _ r _ _ _ w => u.inRange && w.formed && decide (r.toNat < 16)
  | .ldqt u _ r _ _ _ w => u.inRange && w.formed && decide (r.toNat < 8)
  | .ldql u _ r _ _ _ w => u.inRange && w.formed && decide (r.toNat < 8)
  | .st8 u _ _ _ _ _ w => u.inRange && w.formed
  | .st16 u _ _ _ _ _ w => u.inRange && w.formed
  | .st32 u _ _ _ _ _ w => u.inRange && w.formed
  | .st64 u _ _ _ _ _ w => u.inRange && w.formed
  | .stqs u _ _ _ _ _ w => u.inRange && w.formed
  | .bopen u _ _ _ _ w => u.inRange && w.formed
  | .bscale u _ _ _ _ w => u.inRange && w.formed
  | .bclose u _ w => u.inRange && w.formed
  | .sopen u _ _ _ _ w => u.inRange && w.formed
  | .sscale u _ _ _ _ w => u.inRange && w.formed
  | .sclose u _ w => u.inRange && w.formed
  | .wopen u _ _ _ w => u.inRange && w.formed
  | .wclose u w => u.inRange && w.formed
  | .ldbias u _ _ _ _ w => u.inRange && w.formed
  | .weightStreamFirstStaging u => u.inRange
  | .weightStreamHalfRefill u _ => u.inRange
  | .mma u _ w => u.inRange && w.formed
  | .mmak u _ _ w => u.inRange && w.formed
  | .formsw u _ w => u.inRange && w.formed
  | .macAccumReady u => u.inRange
  | .vpost u _ _ _ _ _ _ _ _ _ _ w => u.inRange && w.formed
  | .vnorm u _ _ _ _ _ _ w => u.inRange && w.formed
  | .vbfp u _ _ _ _ _ _ _ w => u.inRange && w.formed
  | .vmaxe u _ _ _ _ _ _ w => u.inRange && w.formed
  | .vred u _ _ _ _ w => u.inRange && w.formed
  | .dma u f w => u.inRange && f.c == 0 && w.formed
  | .dmaComplete u _ _ => u.inRange
  | .signal u _ w => u.inRange && w.formed
  | .wait u _ w => u.inRange && w.formed
  | .ttest u _ _ w => u.inRange && w.formed
  | .rld u _ _ _ w => u.inRange && w.formed
  | .rst u _ _ _ w => u.inRange && w.formed
  | .rat u _ _ _ _ _ _ w => u.inRange && w.formed
  | .put u f w => u.inRange && f.c == 0 && w.formed
  | .get u f w => u.inRange && f.c == 0 && w.formed
  | .fwait u _ w => u.inRange && w.formed
  | .gather u _ w => u.inRange && w.formed
  | .compact u _ w => u.inRange && w.formed
  | .route u _ w => u.inRange && w.formed
  | .listOpComplete u => u.inRange
  | .engjob u _ _ _ w => u.inRange && w.formed
  | .spCfgLock m die _ => m.inRange && decide (die < 16)
  | .spPwrCmd m die _ => m.inRange && decide (die < 16)
  | .bankGroupTransitionDone die g => decide (die < 16) && decide (g < 32)
  | .ownerRecordApply _ => true
  | .sealedWipe die => decide (die < 16)
  | .sealedWipeComplete die => decide (die < 16)
  | .hbmTrainingDone die _ => decide (die < 16)
  | .hbmScrubPass die => decide (die < 16)
  | .tlpCfgLock m _ => m.inRange
  | .lpddrTrainingDone mask => decide (mask < 256)
  | .tierDmaTailWrite m e _ => m.inRange && decide (e < 8)
  | .tierDmaBaseWrite m e _ => m.inRange && decide (e < 8)
  | .tierDmaDescriptor e => decide (e < 8)
  | .tierDmaDescComplete e => decide (e < 8)
  | .gateCycleBoundary => true
  | .gateEntryBoundary c => decide (c < 128)
  | .dieRateUpdate _ => true
  | .fxgApply m _ => m.inRange
  | .fxgCancel m _ => m.inRange
  | .fxgValidationDone => true
  | .fxgSwap => true
  | .fxgDrainEmpty => true
  | .fxgDrainTimeout => true
  | .admissionDecision => true
  | .radioStepPlacement => true
  | .stepStart c _ => decide (c < 128)
  | .stepCommitDecision _ => true
  | .abortAtEdge c => decide (c < 128)
  | .slotTimerTick d t _ => decide (d < 4) && decide (t < 8)
  | .stimerCfgWrite m d t _ => m.inRange && decide (d < 4) && decide (t < 8)
  | .irisImageLoad m d c _ => m.inRange && decide (d < 4) && decide (c < 48)
  | .irisImageStart d c => decide (d < 4) && decide (c < 48)
  | .engineJobStart d q => decide (d < 4) && decide (q < 64)
  | .fftJob d q => decide (d < 4) && decide (q < 64)
  | .ldpcDecodeJob d q => decide (d < 4) && decide (q < 64)
  | .ldpcEncodeJob d q => decide (d < 4) && decide (q < 64)
  | .polarEncodeJob d q => decide (d < 4) && decide (q < 64)
  | .polarDecodeJob d q => decide (d < 4) && decide (q < 64)
  | .demapJob d q => decide (d < 4) && decide (q < 64)
  | .engineJobComplete d q => decide (d < 4) && decide (q < 64)
  | .engineQueueToken d q => decide (d < 4) && decide (q < 64)
  | .eqGateWrite m d q _ => m.inRange && decide (d < 4) && decide (q < 64)
  | .bhOffer d seq _ => decide (d < 4) && decide (seq < 65536)
  | .bhLoadReq d frame _ => decide (d < 4) && decide (frame < 65536)
  | .bhAck d seq f => decide (d < 4) && decide (seq < 65536) && decide (f < 65536)
  | .bhNack d seq => decide (d < 4) && decide (seq < 65536)
  | .bhOfferTimeout d => decide (d < 4)
  | .bhFrameReceived d _ _ => decide (d < 4)
  | .bhFallback d frame => decide (d < 4) && decide (frame < 65536)
  | .bhHeaderTimeout d frame => decide (d < 4) && decide (frame < 65536)
  | .fronthaulFrameRx k x _ => decide (k < 2) && x.inRange
  | .crkSpareMove m k _ => m.inRange && decide (k < 2)
  | .portTrained k l => decide (k < 2) && decide (l < 16)
  | .uplinkHeaderWrite k f _ => decide (k < 2) && decide (f < 4096)
  | .downlinkRecordSend k f _ => decide (k < 2) && decide (f < 4096)
  | .cplaneRecordSend k f _ => decide (k < 2) && decide (f < 4096)
  | .crkPathEnable m k p _ _ => m.inRange && decide (k < 2) && decide (p < 1024)
  | .txPathBlock k p _ _ => decide (k < 2) && decide (p < 1024)
  | .symbolMarkWrite k p _ => decide (k < 2) && decide (p < 1024)
  | .agcPeriodEnd k p _ _ => decide (k < 2) && decide (p < 1024)
  | .freezeEntryStart k p e => decide (k < 2) && decide (p < 1024) && decide (e < 16)
  | .preambleDetect k p => decide (k < 2) && decide (p < 1024)
  | .crkFrzWrite m k p j _ => m.inRange && decide (k < 2) && decide (p < 1024) && decide (j < 32)
  | .gainControlWordSend k p _ => decide (k < 2) && decide (p < 1024)
  | .offsetEstimate k p _ => decide (k < 2) && decide (p < 1024)
  | .tcTick => true
  | .calendarSlotExpiry r => decide (r < 32768)
  | .ringFetch => true
  | .egressFrameEnqueue k l => decide (k < 2) && decide (l < 16)
  | .egressFrameStart k l => decide (k < 2) && decide (l < 16)
  | .gateListGo m k l _ => m.inRange && decide (k < 2) && decide (l < 16)
  | .gateListSwitch k l => decide (k < 2) && decide (l < 16)
  | .gateEnWrite m k l _ => m.inRange && decide (k < 2) && decide (l < 16)
  | .yellowRequestSend pair => decide (pair < 4)
  | .nodeLock m die _ => m.inRange && decide (die < 4)
  | .regionWrite m die ix _ => m.inRange && decide (die < 4) && decide (ix < 8192)
  | .fabricRequestArrival _ _ => true
  | .hotLineServe die _ => decide (die < 4)
  | .hotTokenTimeout die => decide (die < 4)
  | .fabricReplyArrival die _ _ => decide (die < 4)
  | .lossRetry _ => true
  | .hotRetry _ => true
  | .attemptWindowClose _ => true
  | .outcomeUnknownTimeout _ => true
  | .receiptExpiry die => decide (die < 4)
  | .peerTableWrite m die k _ => m.inRange && decide (die < 4) && decide (k < 16384)
  | .mirrorResync m die _ => m.inRange && decide (die < 4)
  | .mirrorPromote m die _ => m.inRange && decide (die < 4)
  | .mirrorRelease m die _ => m.inRange && decide (die < 4)
  | .resyncComplete n => decide (n < 4096)
  | .mirrorCopyTimeout n => decide (n < 4096)
  | .secondaryCopyTimeout n => decide (n < 4096)
  | .releaseNotice n => decide (n < 4096)
  | .linkConfigWrite m die j _ => m.inRange && decide (die < 4) && decide (j < 8)
  | .linkFlitSend die j => decide (die < 4) && decide (j < 8)
  | .flitCrcFail die j => decide (die < 4) && decide (j < 8)
  | .linkAckTimeout die j => decide (die < 4) && decide (j < 8)
  | .laneFault die lane _ _ => decide (die < 4) && decide (lane < 24)
  | .laneSpareResume die j => decide (die < 4) && decide (j < 8)
  | .linkStallDown die j => decide (die < 4) && decide (j < 8)
  | .syncWord => true
  | .tbRateWrite m n _ => m.inRange && decide (n < 4)
  | .tbStepWrite m n _ => m.inRange && decide (n < 4)
  | .tbSwitch m _ => m.inRange
  | .tbAlign m _ => m.inRange
  | .tbStateWrite m n _ => m.inRange && decide (n < 4)
  | .servoWatchdog n => decide (n < 4)
  | .tbSnapshot m _ => m.inRange
  | .replicaValid die => decide (die < 32)
  | .rclkLockLoss k out port => decide (k < 2) && decide (out < 2) && decide (port < 16)
  | .lsEnable m _ => m.inRange
  | .lsDisable m _ => m.inRange
  | .lsRecordPut _ => true
  | .lsRecordArrival _ => true
  | .lsTimeout _ => true
  | .inputDigestDone _ => true
  | .resultDigestDone _ => true
  | .bar0Access fn _ off width _ => decide (fn < 64) && decide (off < 2 ^ 48) && (width == 4 || width == 8)
  | .bar2Access fn _ off _ _ => decide (fn < 64) && decide (off < 2 ^ 48)
  | .bar2WinWrite fn _ => decide (fn < 64)
  | .flrVf n => (decide (1 ≤ n) && decide (n < 64))
  | .flrPf => true
  | .doorbell fn r _ => decide (fn < 64) && decide (r < 32768)
  | .ringEnable m r _ => m.inRange && decide (r < 32768)
  | .cmdStep r => decide (r < 32768)
  | .cmdCopyH2d r => decide (r < 32768)
  | .cmdCopyD2h r => decide (r < 32768)
  | .cmdFabricRld r => decide (r < 32768)
  | .cmdFabricRst r => decide (r < 32768)
  | .cmdFabricRat r => decide (r < 32768)
  | .cmdFabricPut r => decide (r < 32768)
  | .cmdFabricGet r => decide (r < 32768)
  | .cmdWset r => decide (r < 32768)
  | .cmdFrame r => decide (r < 32768)
  | .cqStampWrite m _ => m.inRange
  | .cqTdoneWrite m _ => m.inRange
  | .cqStampTimeout r _ => decide (r < 32768)
  | .evtRingEnable fn _ => decide (fn < 64)
  | .evtHeadWrite fn _ => decide (fn < 64)
  | .mbH2fSend fn => decide (fn < 64)
  | .mbF2hReply fn words => decide (fn < 64) && decide (words.length ≤ 32)
  | .mbF2hClear fn => decide (fn < 64)
  | .powerGood => true
  | .porDeassert => true
  | .perstDeassert => true
  | .perstAssert => true
  | .bootGo _ => true
  | .bootVerifyDone => true
  | .lcTransition m _ => m.inRange
  | .tamperEvent _ => true
  | .spdmGetVersion => true
  | .spdmGetCapabilities _ => true
  | .spdmNegotiateAlgorithms _ => true
  | .spdmGetDigests => true
  | .spdmGetCertificate slot => decide (slot < 256)
  | .spdmChallenge slot _ => decide (slot < 256)
  | .spdmGetMeasurements _ _ => true
  | .spdmKeyExchange slot => decide (slot < 256)
  | .spdmFinish => true
  | .spdmEndSession => true
  | .rstReset m _ => m.inRange
  | .rstRelease m _ => m.inRange
  | .rstQuarantine m _ => m.inRange
  | .rstUnquarantine m _ => m.inRange
  | .fenceComplete _ => true
  | .drainComplete _ => true
  | .resetDone _ => true
  | .resetEscalation _ => true
  | .remoteWaitWdog u k => u.inRange && decide (k < 8)
  | .quiesceWdog c => decide (c < 128)
  | .engineWdog d q => decide (d < 4) && decide (q < 64)
  | .heartbeatWdog => true
  | .heartbeatWrite m _ => m.inRange
  | .safetyIslandDisagree => true
  | .replayGo m _ => m.inRange
  | .replayEnd => true
  | .dumpGo m _ => m.inRange
  | .dumpScanTimeout _ => true
  | .tapExtest => true
  | .tapIdcode => true
  | .tapSamplePreload => true
  | .tapDbgCmd _ => true
  | .tapDbgAddr _ => true
  | .tapDbgData _ => true
  | .tapDbgStat => true
  | .tapDbgAuth _ => true
  | .tapBypass _ => true
  | .trstAssert => true
  | .dbgHalt p _ => p.inRange
  | .dbgResume p _ => p.inRange
  | .dbgStep p _ => p.inRange
  | .dbgStepEnd u => u.inRange
  | .dbgGstop p => p.inRange
  | .dbgStopNAssert => true
  | .dbgGresume p => p.inRange
  | .globalResume => true
  | .dbgMemRd p => p.inRange
  | .dbgMemWr p => p.inRange
  | .dbgAuthNonce p => p.inRange
  | .dbgAuthToken p => p.inRange
  | .breakpointHit u w => u.inRange && w.formed
  | .trcDisable m die _ => m.inRange && decide (die < 32)
  | .twCfgWrite fn w _ => decide (fn < 64) && decide (w < 64)
  | .pdCmdOn m _ => m.inRange
  | .pdCmdOff m _ => m.inRange
  | .pdTransitionDone dom => decide (dom < 60)
  | .powerSample power _ => decide (power < 65536)
  | .tempSample temps => temps.length == 32
  | .thermtrip die => decide (die < 32)
  | .pwrCfgWrite m _ => m.inRange
  | .i3cTelemetryRead => true
  | .i3cCardLimit w => decide (w < 65536)
  | .porAssert => true
  | .fronthaulLaneLoss k l => decide (k < 2) && decide (l < 16)
  | .linkTrained die j => decide (die < 4) && decide (j < 8)
  | .linkAckReceived die j _ => decide (die < 4) && decide (j < 8)
  | .laneMappingNotice die lane wave => decide (die < 4) && decide (lane < 24) && decide (wave < 5)
  | .rclkLockRegain k out => decide (k < 2) && decide (out < 2)
  | .copyComplete r => decide (r < 32768)
  | .wsetDigestDone r => decide (r < 32768)
  | .dumpComplete => true

end Sys2Proof
end

section
/-! SUPPORT. Bit fields and byte order: what a field of a word reads after a write of the same or of another field, and that
the little-endian bytes of a number give it back. -/
namespace Sys2Proof.Machine

variable {w : Nat}

/-- Bit i of a field is bit lo + i of the word. -/
theorem testBit_getField (v : BitVec w) (hi lo i : Nat) :
    (getField v hi lo).testBit i = (decide (i < hi + 1 - lo) && v.getLsbD (lo + i)) := by
  simp [getField, bitsOf, Nat.testBit_mod_two_pow, Nat.testBit_div_two_pow, BitVec.getLsbD, Nat.add_comm]

/-- Words that agree in the bits of a field agree in the field. -/
theorem getField_congr {v u : BitVec w} {hi lo : Nat} (h : ∀ i, lo ≤ i → i ≤ hi → v.getLsbD i = u.getLsbD i) :
    getField v hi lo = getField u hi lo := by
  refine Nat.eq_of_testBit_eq fun i => ?_
  rw [testBit_getField, testBit_getField]
  by_cases hi' : i < hi + 1 - lo
  · rw [h (lo + i) (by omega) (by omega)]
  · simp [hi']

/-- Bit i of a word with field [hi:lo] replaced. -/
theorem getLsbD_setField (v : BitVec w) (hi lo x i : Nat) :
    (setField v hi lo x).getLsbD i =
      if lo ≤ i ∧ i ≤ hi then decide (i < w) && x.testBit (i - lo) else v.getLsbD i := by
  simp only [setField, BitVec.getLsbD_or, BitVec.getLsbD_and, BitVec.getLsbD_not, BitVec.getLsbD_shiftLeft,
    BitVec.getLsbD_ofNat, Nat.testBit_two_pow_sub_one, Nat.testBit_mod_two_pow]
  by_cases hw : i < w
  · have hw' : i - lo < w := by omega
    by_cases hlo : lo ≤ i
    · by_cases hhi : i ≤ hi
      · simp [hw, hw', hlo, hhi, show i - lo < hi + 1 - lo by omega, show ¬ i < lo by omega]
      · simp [hw, hhi, show ¬ i - lo < hi + 1 - lo by omega]
    · simp [hw, hlo, show i < lo by omega]
  · simp [hw, BitVec.getLsbD_of_ge v i (Nat.le_of_not_lt hw)]

/-- A field just replaced reads the value, cut to its width. -/
theorem getField_setField_same (v : BitVec w) {hi : Nat} (lo x : Nat) (h : hi < w) :
    getField (setField v hi lo x) hi lo = x % 2 ^ (hi + 1 - lo) := by
  refine Nat.eq_of_testBit_eq fun i => ?_
  rw [testBit_getField, getLsbD_setField, Nat.testBit_mod_two_pow]
  by_cases hi' : i < hi + 1 - lo
  · simp [hi', show lo + i ≤ hi by omega, show lo + i < w by omega]
  · simp [hi']

/-- A field that shares no bit with the one replaced reads as before. -/
theorem getField_setField_disjoint (v : BitVec w) {hi lo hi' lo' : Nat} (x : Nat) (h : hi' < lo ∨ hi < lo') :
    getField (setField v hi lo x) hi' lo' = getField v hi' lo' :=
  getField_congr fun i h1 h2 => by rw [getLsbD_setField, if_neg (by omega)]

/-- A field whose low bits are cleared is rounded down to a multiple. -/
theorem getField_setField_clear (v : BitVec w) (k hi : Nat) :
    getField (setField v k 0 0) hi 0 = getField v hi 0 / 2 ^ (k + 1) * 2 ^ (k + 1) := by
  refine Nat.eq_of_testBit_eq fun i => ?_
  rw [testBit_getField, getLsbD_setField, Nat.testBit_mul_two_pow, Nat.testBit_div_two_pow, testBit_getField]
  by_cases h : k + 1 ≤ i
  · simp [h, show ¬ i ≤ k by omega, show i - (k + 1) + (k + 1) = i by omega]
  · simp [h, show i ≤ k by omega]

/-- The little-endian bytes of a number read back as the number, cut to their count. -/
theorem leNat_leBytes (n v : Nat) : leNat (leBytes n v) = v % 256 ^ n := by
  induction n generalizing v with
  | zero => simp [leBytes, leNat, Nat.mod_one]
  | succ n ih =>
    rw [leBytes, leNat, ih, BitVec.toNat_ofNat, Nat.pow_succ' (m := 256) (n := n), Nat.mod_mul]

/-- The number of bytes asked for is the number written. -/
@[simp] theorem length_leBytes (n v : Nat) : (leBytes n v).length = n := by
  induction n generalizing v with
  | zero => rfl
  | succ n ih => simp [leBytes, ih]

/-- A word goes over the mesh as its eight bytes and arrives as itself. -/
theorem ofNat_leNat_leBytes (v : Word) : BitVec.ofNat 64 (leNat (leBytes 8 v.toNat)) = v := by
  rw [leNat_leBytes, Nat.mod_eq_of_lt (Nat.lt_of_lt_of_eq v.isLt (by decide)), BitVec.ofNat_toNat, BitVec.setWidth_eq]

end Sys2Proof.Machine
end

section
/-! SUPPORT. What an event record, its message and the counters may change: registers, host memory, the event rings and the
messages sent. Every report of a refused or forbidden access keeps everything else (R497 to R499, R565). -/
namespace Sys2Proof.Machine

/-- The states differ in nothing but registers and the messages sent: what the counters and a message change. -/
def State.counted (s t : State) : Prop := t = { s with regs := t.regs, msix := t.msix }

/-- The states differ in nothing but what an event record, its message and the counters change. -/
def State.reported (s t : State) : Prop := t = { s with regs := t.regs, host := t.host, evt := t.evt, msix := t.msix }

variable {s t u : State}

theorem State.counted.trans (h : s.counted t) (g : t.counted u) : s.counted u := by
  unfold State.counted at *
  rw [g, h]

theorem State.counted.reported (h : s.counted t) : s.reported t := by
  unfold State.counted at h
  unfold State.reported
  rw [h]

theorem State.reported.eq (h : s.reported t) : t = { s with regs := t.regs, host := t.host, evt := t.evt, msix := t.msix } := h

theorem State.reported.trans (h : s.reported t) (g : t.reported u) : s.reported u := by
  unfold State.reported at *
  rw [g, h]

theorem State.reported.mem (h : s.reported t) : t.mem = s.mem := by rw [h.eq]
theorem State.reported.seqs (h : s.reported t) : t.seqs = s.seqs := by rw [h.eq]
theorem State.reported.steps (h : s.reported t) : t.steps = s.steps := by rw [h.eq]
theorem State.reported.remote (h : s.reported t) : t.remote = s.remote := by rw [h.eq]

theorem State.reported.keeps (h : s.reported t) : s.keeps t := ⟨h.mem, h.seqs, h.steps, h.remote⟩

/-- A report followed by an OK answer is a write that the register answers. -/
theorem State.reported.wrote_answer (h : s.reported t) (l : List Byte) : s.wrote (t.answer stOK l) := ⟨rfl, h.keeps⟩

/-! The counters and messages. -/

theorem counted_setReg (s : State) (r : RegD) (d : Nat) (ix : List Nat) (v : Word) : s.counted (s.setReg r d ix v) := rfl

theorem counted_pmuAdd (s : State) (die i n : Nat) : s.counted (s.pmuAdd die i n) := by
  unfold State.pmuAdd
  dsimp only
  split <;> rfl

theorem counted_pmuAt (s : State) (die code : Nat) (unit : Option Nat) (n : Nat) :
    s.counted (s.pmuAt die code unit n) := by
  unfold State.pmuAt
  split
  · rfl
  · split
    · rfl
    · refine List.foldlRecOn _ _ rfl fun t h i _ => ?_
      extract_lets pick
      split
      · exact h.trans (counted_pmuAdd t die i n)
      · exact h

theorem counted_sendMsix (s : State) (fn vec : Nat) : s.counted (s.sendMsix fn vec) := by
  unfold State.sendMsix
  dsimp only
  split
  · rfl
  · exact State.counted.trans (t := { s with msix := s.msix ++ [(fn, vec)] }) rfl (counted_pmuAt _ _ _ _ _)

/-! Events. -/

theorem reported_putRecord (s : State) (fn kind die : Nat) (payload : List Byte) (seq : Nat) :
    s.reported (s.putRecord fn kind die payload seq) := by
  unfold State.putRecord
  refine State.reported.trans (State.reported.trans ?_ (counted_pmuAt _ 31 0xA3 (some 0) 1).reported) rfl
  rfl

theorem reported_emit (s : State) (part kind die : Nat) (payload : List Byte) : s.reported (s.emit part kind die payload) := by
  unfold State.emit
  split
  · rfl
  · dsimp only
    split
    · rfl
    · refine State.reported.trans (State.reported.trans ?_ (reported_putRecord _ _ _ _ _ _)) (counted_sendMsix _ _ _).reported
      rfl

theorem reported_protection (s : State) (m : Master) (target space : Nat) : s.reported (s.protection m target space) :=
  reported_emit s _ _ _ _

theorem reported_protectReg (s : State) (m : Master) (r : RegD) (d : Nat) (ix : List Nat) :
    s.reported (s.protectReg m r d ix) := reported_protection s m _ _

theorem reported_refuseReg (s : State) (m : Master) (r : RegD) (d : Nat) (ix : List Nat) (v : Word) :
    s.reported (s.refuseReg m r d ix v) := reported_emit s _ _ _ _

theorem reported_memError (s : State) (off part : Nat) : s.reported (s.memError off part) := by
  have go (s : State) (ecc err : RegD) (die : Nat) : s.reported
      (let s := s.bumpFld ecc die [] 63 32 1
       if s.fld err die [] 63 63 = 0 then (s.setFld err die [] 47 0 off).setFld err die [] 63 63 1 else s) := by
    dsimp only
    split <;> rfl
  unfold State.memError
  extract_lets _ s₁ pl s₂
  have h₁ : s.reported s₁ := by
    unfold s₁
    split
    case h_7 => rfl
    all_goals exact go s _ _ _
  have h₂ : s.reported s₂ := h₁.trans (reported_emit _ _ _ _ _)
  split
  · exact h₂
  · exact h₂.trans (reported_emit _ _ _ _ _)

end Sys2Proof.Machine
end

section
/-! SUPPORT. On an unobserved device an event touches no register of a die's window: the registers that it does change lie in
the function blocks (R481, R497). -/
namespace Sys2Proof.Machine

/-- The registers of the dies' windows hold the same words. -/
def State.sameDieRegs (s t : State) : Prop := ∀ k < fnBase, t.regs.find k = s.regs.find k

variable {s t u : State}

theorem State.sameDieRegs.trans (h : s.sameDieRegs t) (g : t.sameDieRegs u) : s.sameDieRegs u :=
  fun k hk => (g k hk).trans (h k hk)

theorem State.sameDieRegs.reg (h : s.sameDieRegs t) {r : RegD} {d : Nat} {ix : List Nat} (hk : r.at d ix < fnBase) :
    t.reg r d ix = s.reg r d ix := by simp only [State.reg, h _ hk]

/-- The registers of a function block lie beyond the dies' windows. -/
theorem fnBase_le_at {r : RegD} (h : r.kind = .fn) (d : Nat) (ix : List Nat) : fnBase ≤ r.at d ix := by
  simp only [RegD.at, h]
  omega

theorem sameDieRegs_setReg (s : State) {r : RegD} (h : r.kind = .fn) (d : Nat) (ix : List Nat) (v : Word) :
    s.sameDieRegs (s.setReg r d ix v) := fun _ hk =>
  Tab.find_put_ne _ _ (Nat.ne_of_lt (Nat.lt_of_lt_of_le hk (fnBase_le_at h d ix)))

/-- While the counters of Primrose stand still, what reports an event counts nothing there. -/
theorem pmu31_off {s t : State} (hs : s.fld R.pmuCtl 31 [] 0 0 = 0) (h : s.sameDieRegs t) (code un n : Nat) :
    t.pmu 31 code un n = t := by
  refine pmuAt_off ?_ _ _ _
  rw [State.fld, h.reg (by decide)]
  exact hs

theorem sameDieRegs_sendMsix (hs : s.fld R.pmuCtl 31 [] 0 0 = 0) (h : s.sameDieRegs t) (fn vec : Nat) :
    s.sameDieRegs (t.sendMsix fn vec) := by
  unfold State.sendMsix
  dsimp only
  split
  · exact h.trans (sameDieRegs_setReg t (r := R.msixPba) rfl fn _ _)
  · have h' : s.sameDieRegs { t with msix := t.msix ++ [(fn, vec)] } := h
    rw [pmu31_off hs h']
    exact h'

theorem sameDieRegs_putRecord (hs : s.fld R.pmuCtl 31 [] 0 0 = 0) (h : s.sameDieRegs t) (fn kind die : Nat)
    (payload : List Byte) (seq : Nat) : s.sameDieRegs (t.putRecord fn kind die payload seq) := by
  unfold State.putRecord
  dsimp only
  rw [pmu31_off hs]
  all_goals exact h.trans (sameDieRegs_setReg (t.hostStore _ _) (r := R.prmEvtStat) rfl fn [] _)

/-- An event of an unobserved device leaves every register of a die's window as it was. -/
theorem sameDieRegs_emit (hs : s.fld R.pmuCtl 31 [] 0 0 = 0) (part kind die : Nat) (payload : List Byte) :
    s.sameDieRegs (s.emit part kind die payload) := by
  unfold State.emit
  split
  · exact fun _ _ => rfl
  · dsimp only
    split
    · refine State.sameDieRegs.trans ?_ (sameDieRegs_setReg _ (r := R.prmEvtStat) rfl part [] _)
      exact fun _ _ => rfl
    · refine sameDieRegs_sendMsix hs (sameDieRegs_putRecord hs ?_ _ _ _ _ _) _ _
      exact fun _ _ => rfl

end Sys2Proof.Machine
end

section
/-! SUPPORT. What the passing of time changes (R369, R431 to R442, R496): the time bases, the traffic engines, the messages
that fall due, and LC by exactly the ticks that pass. -/
namespace Sys2Proof.Machine

/-- n LC ticks pass: LC is n more, and the states differ otherwise in nothing but the time bases, the policers, meters and
shapers with the units they hold, registers, rings and the messages sent. -/
def State.passed (n : Nat) (s t : State) : Prop :=
  t = { s with lc := s.lc + n, tb := t.tb, ofs := t.ofs, ofsStep := t.ofsStep, syncLc := t.syncLc, alignPend := t.alignPend,
               tc := t.tc, held := t.held, rings := t.rings, regs := t.regs, msix := t.msix }

variable {s t u : State} {m n : Nat}

theorem State.passed.eq (h : s.passed n t) :
    t = { s with lc := s.lc + n, tb := t.tb, ofs := t.ofs, ofsStep := t.ofsStep, syncLc := t.syncLc, alignPend := t.alignPend,
                 tc := t.tc, held := t.held, rings := t.rings, regs := t.regs, msix := t.msix } := h

theorem State.passed.trans (h : s.passed m t) (g : t.passed n u) : s.passed (m + n) u := by
  unfold State.passed at *
  rw [g, h, Nat.add_assoc]

theorem State.passed.zero_trans (h : s.passed 0 t) (g : t.passed n u) : s.passed n u := Nat.zero_add n ▸ h.trans g

theorem State.passed.of_eq (h : s.passed m t) (e : m = n) : s.passed n t := e ▸ h

theorem State.passed.lc (h : s.passed n t) : t.lc = s.lc + n := by rw [h.eq]
theorem State.passed.pending (h : s.passed n t) : t.pending = s.pending := by rw [h.eq]
theorem State.passed.mem (h : s.passed n t) : t.mem = s.mem := by rw [h.eq]
theorem State.passed.seqs (h : s.passed n t) : t.seqs = s.seqs := by rw [h.eq]
theorem State.passed.steps (h : s.passed n t) : t.steps = s.steps := by rw [h.eq]
theorem State.passed.remote (h : s.passed n t) : t.remote = s.remote := by rw [h.eq]

theorem State.passed.keeps (h : s.passed n t) : s.keeps t := ⟨h.mem, h.seqs, h.steps, h.remote⟩

theorem State.counted.passed (h : s.counted t) : s.passed 0 t := by
  unfold State.counted at h
  unfold State.passed
  rw [h, Nat.add_zero]

/-- No time passes over a list of changes of which none takes time. -/
theorem State.passed_foldl {α : Type} (l : List α) (f : State → α → State) (h : ∀ (s : State) a, s.passed 0 (f s a)) (s : State) :
    s.passed 0 (l.foldl f s) :=
  List.foldlRecOn l f rfl fun _ ht a _ => ht.zero_trans (h _ a)

/-! Policers, meters and shapers. -/

theorem passed_mark (s : State) (k len : Nat) : s.passed 0 (s.mark k len).2 := by
  unfold State.mark
  dsimp only
  split
  · rfl
  · split
    · rfl
    · split <;> rfl

theorem passed_countMark (s : State) (k : Nat) (c : Colour) : s.passed 0 (s.countMark k c) := by
  cases c <;> rfl

theorem passed_tcGrow (s : State) (n : Nat) : s.passed 0 (s.tcGrow n) := by
  unfold State.tcGrow
  split <;> rfl

theorem passed_remeter (s : State) (n : Nat) (l : List HeldUnit) : s.passed 0 (s.remeter n l) := by
  induction l generalizing s with
  | nil => rfl
  | cons h l ih =>
    refine State.passed.zero_trans ?_ (ih _)
    split
    · rfl
    · dsimp only
      split
      · exact (passed_mark s h.meter h.cost).zero_trans rfl
      · exact ((passed_mark s h.meter h.cost).zero_trans (passed_countMark _ _ _)).zero_trans rfl

theorem passed_tcHeld (s : State) (k n : Nat) : s.passed 0 (s.tcHeld k n) := by
  induction n generalizing s k with
  | zero => rfl
  | succ n ih =>
    unfold State.tcHeld
    split
    · exact passed_tcGrow s (n + 1)
    · refine State.passed.zero_trans (State.passed.zero_trans ?_ (passed_remeter _ _ _)) (ih _ _)
      exact (passed_tcGrow s 1).zero_trans rfl

theorem passed_tcTo (s : State) (t : Nat) : s.passed 0 (s.tcTo t) := passed_tcHeld s _ _

theorem passed_flushMsix (s : State) (t : Nat) : s.passed 0 (s.flushMsix t) := by
  refine State.passed_foldl _ _ (fun s e => ?_) s
  split
  · rfl
  · split
    · refine State.passed.zero_trans ?_ (counted_sendMsix _ _ _).passed
      rfl
    · rfl

/-! Time bases. -/

theorem passed_flow (s : State) (n : Nat) : s.passed n (s.flow n) := by
  have h : s.passed 0 ((List.range 4).foldl (fun s i =>
      s.setBase i { s.base i with val := (s.base i).val + s.tickOf i * n }) s) := by
    refine State.passed_foldl _ _ (fun _ _ => ?_) s
    rfl
  exact h.zero_trans rfl

theorem passed_applySteps (s : State) : s.passed 0 s.applySteps := by
  refine State.passed_foldl _ _ (fun s i => ?_) s
  dsimp only
  split <;> rfl

theorem passed_applyRates (s : State) : s.passed 0 s.applyRates := by
  refine State.passed_foldl _ _ (fun s i => ?_) s
  dsimp only
  split
  · rfl
  · split <;> rfl

theorem passed_applySwitch (s : State) : s.passed 0 s.applySwitch := by
  unfold State.applySwitch
  split <;> rfl

theorem passed_applyAlign (s : State) : s.passed 0 s.applyAlign := by
  unfold State.applyAlign
  split <;> rfl

theorem passed_syncWord (s : State) : s.passed 0 s.syncWord := by
  unfold State.syncWord
  extract_lets s₁ s₂ s₃
  have h₁ : s.passed 0 s₁ := rfl
  have h₂ : s₁.passed 0 s₂ := (((passed_applySteps s₁).zero_trans (passed_applyRates _)).zero_trans
    (passed_applySwitch _)).zero_trans (passed_applyAlign _)
  have h₃ : s₂.passed 0 s₃ := rfl
  exact ((h₁.zero_trans h₂).zero_trans h₃).zero_trans rfl

theorem passed_passWords (s : State) (k : Nat) (h : 0 < k) : s.passed ((s.lc / 1000 + k) * 1000 - s.lc) (s.passWords k) := by
  induction k generalizing s with
  | zero => exact absurd h (Nat.lt_irrefl 0)
  | succ k ih =>
    have h₁ : s.passed ((s.lc / 1000 + 1) * 1000 - s.lc) ((s.flow ((s.lc / 1000 + 1) * 1000 - s.lc)).syncWord) :=
      (passed_flow s _).trans (passed_syncWord _)
    unfold State.passWords
    rcases Nat.eq_zero_or_pos k with rfl | hk
    · exact h₁
    · have h₂ := h₁.trans (ih _ hk)
      rw [h₁.lc] at h₂
      exact h₂.of_eq (by omega)

/-- LC advances to a tick, and to no other; a tick already past changes no LC (R9). -/
theorem passed_advanceTo (s : State) (t : Nat) : s.passed (t - s.lc) (s.advanceTo t) := by
  have h₁ : s.passed 0 ((s.tcTo t).flushMsix t) := (passed_tcTo s t).zero_trans (passed_flushMsix _ t)
  unfold State.advanceTo
  extract_lets s₁ s₂
  have hlc : s₁.lc = s.lc := h₁.lc
  rw [hlc]
  split
  · rw [show t - s.lc = 0 by omega]
    exact h₁
  · split
    · exact h₁.zero_trans (passed_flow s₁ _)
    · have h₂ : s₁.passed (t / 1000 * 1000 - s₁.lc) s₂ := by
        unfold s₂
        split
        · exact (passed_flow s₁ _).trans (passed_syncWord _)
        · have h := passed_passWords s₁ (t / 1000 - s₁.lc / 1000) (by omega)
          rwa [show s₁.lc / 1000 + (t / 1000 - s₁.lc / 1000) = t / 1000 by omega] at h
      have hlc₂ := h₂.lc
      exact ((h₁.zero_trans h₂).trans (passed_flow s₂ (t - s₂.lc))).of_eq (by omega)

/-- One LC tick passes. -/
theorem passed_tick (s : State) : s.passed 1 s.tick := by
  have h := passed_advanceTo s (s.lc + 1)
  rwa [Nat.add_sub_cancel_left] at h

/-! A step. -/

/-- A step with a command at the front of the queue runs it on the state with the queue's rest. -/
theorem step_cons (s : State) (c : Instr) (rest : List Instr) (h : s.pending = c :: rest) :
    step s = exec c { s with pending := rest } := by
  simp only [step, h]

/-- A step on an empty queue lets one LC tick pass. -/
theorem step_nil (s : State) (h : s.pending = []) : step s = .next s.tick := by
  simp only [step, h]

/-- Settles O1: the two branches of a step, and what one tick changes. -/
theorem stepTakesFront : Obligations.StepTakesFront :=
  ⟨step_cons, fun s h => ⟨s.tick, step_nil s h, (passed_tick s).lc, (passed_tick s).pending.trans h, (passed_tick s).keeps⟩⟩

end Sys2Proof.Machine
end

section
/-! SUPPORT. Registers: where the register that an offset names lies (R11, R13), the three answers of a guarded write (R16,
R18, R258), and what a whole write leaves in each bit (R13 to R15). -/
namespace Sys2Proof.Machine

variable {r : RegD} {ix : List Nat}

/-! Where a register lies. -/

/-- The indexes that an offset gives lead back to it. -/
theorem strideSum_of_matchDims (ds : List (Nat × Nat)) (rel : Nat) (h : matchDims ds rel = some ix) : strideSum ix ds = rel := by
  induction ds generalizing rel ix with
  | nil =>
    cases rel with
    | zero => cases h; rfl
    | succ n => cases h
  | cons e t ih =>
    obtain ⟨n, st⟩ := e
    simp only [matchDims] at h
    split at h
    · cases h
    · split at h
      · cases h
      · next is hm =>
        cases h
        simp only [strideSum, ih _ hm, Nat.div_add_mod']

/-- A register found is one of the list and lies at the offset. -/
theorem findReg_some (l : List RegD) (o : Nat) (h : findReg l o = some (r, ix)) :
    r ∈ l ∧ r.off + strideSum ix r.dims = o := by
  induction l with
  | nil => cases h
  | cons e t ih =>
    simp only [findReg] at h
    split at h
    · exact ⟨List.mem_cons_of_mem _ (ih h).1, (ih h).2⟩
    · split at h
      · next is hm =>
        cases h
        have hs := strideSum_of_matchDims _ _ hm
        exact ⟨List.mem_cons_self, by omega⟩
      · exact ⟨List.mem_cons_of_mem _ (ih h).1, (ih h).2⟩

/-- A table of registers of a kind holds that kind only. -/
theorem kind_of_mem_regsOf {k : RegKind} (h : r ∈ regsOf k) : r.kind = k := by
  have hk : ∀ k, ∀ r ∈ regsOf k, r.kind = k := by
    intro k
    cases k <;> decide
  exact hk k r h

/-- The kinds of register that a die's own window holds. -/
def RegKind.inWindow : RegKind → Bool
  | .fxg | .fn | .fnpf | .bar => false
  | _ => true

theorem inWindow_of_mem_regsOfDie {d : Nat} (h : r ∈ regsOfDie d) : r.kind.inWindow = true := by
  have hk {k : RegKind} (hm : r ∈ regsOf k) (hw : k.inWindow = true) : r.kind.inWindow = true := kind_of_mem_regsOf hm ▸ hw
  simp only [regsOfDie, List.mem_append] at h
  obtain (h | h) | h := h
  · repeat' split at h
    all_goals exact hk h rfl
  · exact hk h rfl
  · split at h
    · exact hk h rfl
    · cases h

/-- The register that an offset of a die's window names lies there; Foxglove's lie in the window of die 31. -/
theorem regAt_at {x o : Nat} (h : regAt x o = some (r, ix)) :
    r.at x ix = winBase + x * 0x1000000 + o ∧ (r.kind = .fxg → x = 31) := by
  unfold regAt at h
  split at h
  · next hx =>
    obtain ⟨hm, ho⟩ := findReg_some _ _ h
    have hk := kind_of_mem_regsOf hm
    refine ⟨?_, fun _ => hx.1⟩
    simp only [RegD.at, hk]
    omega
  · obtain ⟨hm, ho⟩ := findReg_some _ _ h
    have hw := inWindow_of_mem_regsOfDie hm
    refine ⟨?_, fun hk => ?_⟩
    · simp only [RegD.at]
      split
      case h_5 => omega
      all_goals
        rename_i hk
        rw [hk] at hw
        cases hw
    · rw [hk] at hw
      cases hw

/-- The register windows are those of 32 dies. -/
theorem regionOf_regs {off x o : Nat} (h : regionOf off = .regs x o) : x < 32 ∧ o < 0x1000000 := by
  unfold regionOf at h
  dsimp only at h
  repeat' split at h
  all_goals injection h
  omega

/-! A guarded write. -/

section
variable (s : State) (m : Master) (d : Nat) (k : State → State)

/-- A register that does not answer gives its status, and nothing changes. -/
theorem guardWrite_status (h : s.regStatus r d ix ≠ stOK) :
    s.guardWrite m r d ix k = s.answer (s.regStatus r d ix) [] := by
  simp only [State.guardWrite, if_pos h]

/-- A master that may not write the register leaves a PROTECTION event. -/
theorem guardWrite_denied (h : s.regStatus r d ix = stOK) (hm : mayWrite r.writer m = false) :
    s.guardWrite m r d ix k = (s.protectReg m r d ix).answer stOK [] := by
  simp [State.guardWrite, h, hm]

/-- A register that grants the write takes it. -/
theorem guardWrite_granted (h : s.grants m r d ix) : s.guardWrite m r d ix k = (k s).answer stOK [] := by
  simp [State.guardWrite, h.1, h.2]

end

/-! The access codes. -/

@[simp] theorem partMask_whole (o : Nat) : partMask o 8 = BitVec.allOnes 64 := rfl

/-- What a whole write of an unlocked register leaves in a bit, by the bit's access code. -/
theorem getLsbD_written (old v : Word) {fg : Bool} (hfg : fg = false ∨ r.maskOf .fg = 0) {b : Nat} (hb : b < 64) :
    (r.written old v (BitVec.allOnes 64) false fg).getLsbD b =
      (((if (r.maskOf .rw).getLsbD b || (r.maskOf .rwl).getLsbD b then v.getLsbD b else old.getLsbD b) &&
        !(v.getLsbD b && (r.maskOf .w1c).getLsbD b)) || (v.getLsbD b && (r.maskOf .w1s).getLsbD b)) := by
  have hset (w m : Word) : ((w &&& ~~~ m) ||| (v &&& m)).getLsbD b = if m.getLsbD b then v.getLsbD b else w.getLsbD b := by
    simp only [BitVec.getLsbD_or, BitVec.getLsbD_and, BitVec.getLsbD_not, hb, decide_true, Bool.true_and]
    cases m.getLsbD b <;> simp
  have hskip (w : Word) : (if fg = true then (w &&& ~~~ r.maskOf .fg) ||| (v &&& r.maskOf .fg) else w) = w := by
    rcases hfg with rfl | h0
    · rfl
    · have h0 : r.maskOf .fg = 0#64 := h0
      simp only [h0, BitVec.not_zero, BitVec.and_allOnes, BitVec.and_zero, BitVec.or_zero, ite_self]
  simp only [RegD.written, BitVec.and_allOnes, hskip, Bool.false_eq_true, if_false]
  rw [BitVec.getLsbD_or, BitVec.getLsbD_and, BitVec.getLsbD_not, BitVec.getLsbD_and, BitVec.getLsbD_and, hset, hset]
  cases (r.maskOf .rw).getLsbD b <;> cases (r.maskOf .rwl).getLsbD b <;> simp [hb]

/-- A field stores what is written to it: each of its bits has code RW or RWL, and no other. -/
def RegD.stores (r : RegD) (hi lo : Nat) : Bool :=
  (List.range (hi + 1 - lo)).all (fun i =>
    ((r.maskOf .rw).getLsbD (lo + i) || (r.maskOf .rwl).getLsbD (lo + i)) && !(r.maskOf .w1c).getLsbD (lo + i) &&
      !(r.maskOf .w1s).getLsbD (lo + i))

/-- A field that stores what is written to it reads, after a whole write, as the value written. -/
theorem getField_written (old v : Word) {hi lo : Nat} (hr : r.stores hi lo = true) (hhi : hi < 64) :
    getField (r.written old v (BitVec.allOnes 64) false false) hi lo = getField v hi lo := by
  refine getField_congr fun i h1 h2 => ?_
  have h := List.all_eq_true.mp hr (i - lo) (List.mem_range.mpr (by omega))
  simp only [Nat.add_sub_cancel' h1, Bool.and_eq_true, Bool.not_eq_true'] at h
  obtain ⟨⟨hw, hc⟩, hs⟩ := h
  rw [getLsbD_written old v (.inl rfl) (by omega), hw, hc, hs]
  simp

/-- A field that stores what is written to it reads so once the register holds the word that its access codes give. -/
theorem fld_setReg_written (s : State) (d : Nat) (old v : Word) {hi lo : Nat} (hr : r.stores hi lo = true) (hhi : hi < 64) :
    (s.setReg r d ix (r.written old v (BitVec.allOnes 64) false false)).fld r d ix hi lo = getField v hi lo := by
  rw [State.fld, State.reg_setReg, getField_written old v hr hhi]

/-- A plain write of a register without FG fields whose lock is open stores the word that its access codes give. -/
theorem plainWrite_open (s : State) (m : Master) (d : Nat) (v part : Word) (hfg : r.maskOf .fg = 0)
    (hl : r.locked (s.reg r d ix) = false) :
    s.plainWrite m r d ix v part = s.setReg r d ix (r.written (s.reg r d ix) v part false (m == .foxglove)) := by
  simp [State.plainWrite, hfg, hl]

end Sys2Proof.Machine
end

section
/-! SUPPORT. Accesses to registers over the package mesh (R12, R13, R28). -/
namespace Sys2Proof.Machine

section
variable (s : State) {m : Master} {off x o : Nat} {r : RegD} {ix : List Nat} (v : Word)
  (hoff : regionOf off = .regs x o) (ho : o % 8 = 0) (hd : s.dieOn x = true) (hr : regAt x o = some (r, ix))
include hoff ho hd hr

/-- A write of 8 B at a register's offset is a guarded write of that register. -/
theorem exec_registerWrite (hk : isDbgCmd r = false) :
    exec (.registerWrite m off 8 v) s =
      .next (s.guardWrite m r x ix (fun s => s.writeReg m r x ix v (BitVec.allOnes 64))) := by
  have h8 : o / 8 * 8 = o := by omega
  show Host.Outcome.next (s.regWrite m off 8 v) = _
  simp [State.regWrite, hoff, State.writeWindow, widthOk, ho, hd, h8, hr, hk, placed]

/-- A read of 8 B at a register's offset gives its word. -/
theorem exec_meshTransfer_read (hst : s.regStatus r x ix = stOK) :
    exec (.meshTransfer { m := m, radio := false, src := 0, off := off, write := false, data := [], len := 8, retries := 0 }) s =
      .next { s with ansStatus := stOK, ansData := leBytes 8 (s.view r x ix).toNat } := by
  have h8 : o / 8 * 8 = o := by omega
  show Host.Outcome.next (State.transfer s _) = _
  simp [State.transfer, hoff, State.regRead, State.readWindow, widthOk, ho, hd, h8, hr, hst, readPart, State.answer]

/-- A write that the register's state refuses answers its status and changes nothing else. -/
theorem registerWrite_status (hk : isDbgCmd r = false) (hst : s.regStatus r x ix ≠ stOK) :
    Runs (.registerWrite m off 8 v) s (fun t => t = { s with ansStatus := s.regStatus r x ix, ansData := [] }) :=
  ⟨_, exec_registerWrite s v hoff ho hd hr hk, guardWrite_status s m x _ hst⟩

/-- A write by a master that may not write the register leaves it as it was. -/
theorem registerWrite_denied (hk : isDbgCmd r = false) (hst : s.regStatus r x ix = stOK) (hm : mayWrite r.writer m = false)
    (hs : s.unobserved) : Runs (.registerWrite m off 8 v) s (fun t => s.wrote t ∧ t.reg r x ix = s.reg r x ix) := by
  refine ⟨_, exec_registerWrite s v hoff ho hd hr hk, ?_⟩
  rw [guardWrite_denied s m x _ hst hm]
  obtain ⟨hx, hoo⟩ := regionOf_regs hoff
  have hat : r.at x ix < fnBase := by
    rw [(regAt_at hr).1]
    simp only [winBase, fnBase]
    omega
  exact ⟨(reported_protectReg s m r x ix).wrote_answer [], (sameDieRegs_emit (hs 31 (by omega)).1 _ _ _ _).reg hat⟩

/-- A write of an open Phlox or Foxglove register sets each bit by its access code. -/
theorem registerWrite_codes (hk : isDbgCmd r = false) (hg : s.grants m r x ix) (hkind : r.kind = .phx ∨ r.kind = .fxg)
    (hfg : r.maskOf .fg = 0) (hl : r.locked (s.reg r x ix) = false) :
    Runs (.registerWrite m off 8 v) s (fun t => s.wrote t ∧ ∀ b < 64, (t.reg r x ix).getLsbD b =
      (((if (r.maskOf .rw).getLsbD b || (r.maskOf .rwl).getLsbD b then v.getLsbD b else (s.reg r x ix).getLsbD b) &&
        !(v.getLsbD b && (r.maskOf .w1c).getLsbD b)) || (v.getLsbD b && (r.maskOf .w1s).getLsbD b))) := by
  have hw : s.writeReg m r x ix v (BitVec.allOnes 64) =
      s.setReg r x ix (r.written (s.reg r x ix) v (BitVec.allOnes 64) false (m == .foxglove)) := by
    rw [← plainWrite_open s m x v _ hfg hl]
    rcases hkind with hp | hf
    · unfold State.writeReg
      rw [hp]
    · obtain rfl := (regAt_at hr).2 hf
      unfold State.writeReg
      rw [hf]
  refine ⟨_, exec_registerWrite s v hoff ho hd hr hk, ?_⟩
  rw [guardWrite_granted s m x _ hg]
  dsimp only
  rw [hw]
  refine ⟨(counted_setReg s r x ix _).reported.wrote_answer [], fun b hb => ?_⟩
  rw [State.reg_answer, State.reg_setReg, getLsbD_written _ v (.inr hfg) hb]

end

/-- A mesh write of 8 B into a register window is the write of the register there. -/
theorem exec_meshTransfer_write (s : State) (m : Master) {off x o : Nat} (v : Word) (hoff : regionOf off = .regs x o) :
    exec (.meshTransfer { m := m, radio := false, src := 0, off := off, write := true, data := leBytes 8 v.toNat,
                          len := 0, retries := 0 }) s = exec (.registerWrite m off 8 v) s := by
  show Host.Outcome.next (State.transfer s _) = .next (s.regWrite m off 8 v)
  simp [State.transfer, hoff, ofNat_leNat_leBytes]

end Sys2Proof.Machine
end

section
/-! SUPPORT. Accesses to memory by a master for its partition (R28, R218, R223, R243, R460): on an unobserved device a write that
its partition may make stores its bytes and no others, a read answers the bytes, and a refused access keeps memory. -/
namespace Sys2Proof.Machine

/-- The bytes stand from their offset on, and every other byte and every step is as before. -/
def State.tookBytes (s t : State) (off : Nat) (data : List Byte) : Prop :=
  t.steps = s.steps ∧ (∀ i b, data[i]? = some b → i < data.length → t.byte (off + i) = b) ∧
    ∀ j, (j < off ∨ off + data.length ≤ j) → t.byte j = s.byte j

/-- A store leaves the bytes stored. -/
theorem tookBytes_store (s : State) (off : Nat) (data : List Byte) (hm : Memory.wf s.mem = true) :
    s.tookBytes (s.store off data) off data := by
  refine ⟨rfl, fun i b hb hi => ?_, fun j hj => s.byte_store_out off j data hj hm⟩
  rw [s.byte_store_in off i data hi hm]
  exact Option.some_inj.mp ((List.getElem?_eq_getElem hi).symm.trans hb)

/-- Counting an intrusion changes the sequencers alone. -/
theorem intrude_eq (s : State) (off n : Nat) : s.intrude off n = { s with seqs := (s.intrude off n).seqs } := by
  unfold State.intrude State.intrudeBut
  refine List.foldlRecOn (motive := fun t : State => t = { s with seqs := t.seqs }) _ _ rfl fun t ht c _ => ?_
  dsimp only
  split
  · simp only [State.setSeq]
    rw [ht]
  · exact ht

variable {s : State} {m : Master} {off : Nat}

theorem writeMem_eq (hs : s.unobserved) {data : List Byte}
    (hst : s.memWriteStatus (s.masterPart m) off data.length = stOK) :
    s.writeMem m off data = ((s.intrude off data.length).store off data).answer stOK [] := by
  have hu : ((s.intrude off data.length).store off data).unobserved :=
    unobserved_congr (by rw [State.store_regs, intrude_eq]) hs
  simp only [State.writeMem, hst, if_true, access_off hu]

/-- A write that the partition may make stores its bytes and no others. -/
theorem writeMem_ok (hs : s.unobserved) (hc : s.canonical = true) {data : List Byte}
    (hst : s.memWriteStatus (s.masterPart m) off data.length = stOK) :
    (s.writeMem m off data).ansStatus = stOK ∧ s.tookBytes (s.writeMem m off data) off data := by
  have hm : (s.intrude off data.length).mem = s.mem := by rw [intrude_eq]
  have hsteps : (s.intrude off data.length).steps = s.steps := by rw [intrude_eq]
  rw [writeMem_eq hs hst]
  generalize s.intrude off data.length = i at hm hsteps
  have hwf : Memory.wf i.mem = true := hm ▸ (Bool.and_eq_true_iff.mp hc).1
  obtain ⟨-, hin, hout⟩ := tookBytes_store i off data hwf
  refine ⟨rfl, hsteps, hin, fun j hj => (hout j hj).trans ?_⟩
  simp only [State.byte, hm]

/-- A refused write answers its status and keeps memory. -/
theorem writeMem_refused {data : List Byte} (hst : s.memWriteStatus (s.masterPart m) off data.length ≠ stOK) :
    (s.writeMem m off data).ansStatus = s.memWriteStatus (s.masterPart m) off data.length ∧
      s.keeps (s.writeMem m off data) := by
  simp only [State.writeMem, if_neg hst]
  split
  · exact ⟨rfl, (reported_memError s _ _).keeps⟩
  · exact ⟨rfl, rfl, rfl, rfl, rfl⟩

/-- A read that the partition may make answers the bytes and changes nothing else. -/
theorem readMem_eq (hs : s.unobserved) {n : Nat} (hst : s.memStatus (s.masterPart m) off n = stOK) :
    s.readMem m off n = s.answer stOK (s.bytes off n) := by
  simp only [State.readMem, hst, if_true, access_off hs]

/-- A read that is refused for another reason than an error answers its status and zeros. -/
theorem readMem_refused {n : Nat} (hst : s.memStatus (s.masterPart m) off n ≠ stOK)
    (hu : s.memStatus (s.masterPart m) off n ≠ stUncorr) :
    s.readMem m off n = s.answer (s.memStatus (s.masterPart m) off n) (zeros n) := by
  simp only [State.readMem, if_neg hst, if_neg hu]

/-! Mesh transfers. -/

variable {x : MeshXfer}

/-- A transfer to memory of n bytes that no exact-mode step holds off is a write or a read of memory. -/
theorem exec_meshTransfer_mem {n : Nat} (hx : x.retries = 0) (hr : ∀ d o, regionOf x.off ≠ .regs d o)
    (hn : (if x.write then x.data.length else x.len) = n) (hh : s.heldOff x.m x.off n = false) :
    exec (.meshTransfer x) s = .next (if x.write then s.writeMem x.m x.off x.data else s.readMem x.m x.off n) := by
  show Host.Outcome.next (State.transfer (s.meshRetries (x.src % 32) x.retries) x) = _
  rw [hx]
  unfold State.transfer
  cases hreg : regionOf x.off
  case regs d o => exact absurd hreg (hr d o)
  all_goals simp only [State.meshRetries, hn, hh, Bool.false_eq_true, if_false]

section
variable (hx : x.retries = 0) (hr : ∀ d o, regionOf x.off ≠ .regs d o)
include hx hr

theorem meshTransfer_stores (hs : s.unobserved) (hc : s.canonical = true) (hw : x.write = true)
    (hh : s.heldOff x.m x.off x.data.length = false)
    (hst : s.memWriteStatus (s.masterPart x.m) x.off x.data.length = stOK) :
    Runs (.meshTransfer x) s (fun t => t.ansStatus = stOK ∧ s.tookBytes t x.off x.data) := by
  refine ⟨_, exec_meshTransfer_mem hx hr (if_pos hw) hh, ?_⟩
  rw [if_pos hw]
  exact writeMem_ok hs hc hst

theorem meshTransfer_refused (hw : x.write = true) (hh : s.heldOff x.m x.off x.data.length = false)
    (hst : s.memWriteStatus (s.masterPart x.m) x.off x.data.length ≠ stOK) :
    Runs (.meshTransfer x) s (fun t =>
      t.ansStatus = s.memWriteStatus (s.masterPart x.m) x.off x.data.length ∧ s.keeps t) := by
  refine ⟨_, exec_meshTransfer_mem hx hr (if_pos hw) hh, ?_⟩
  rw [if_pos hw]
  exact writeMem_refused hst

theorem meshTransfer_loads (hs : s.unobserved) (hw : x.write = false) (hh : s.heldOff x.m x.off x.len = false)
    (hst : s.memStatus (s.masterPart x.m) x.off x.len = stOK) :
    Runs (.meshTransfer x) s (fun t => t.ansStatus = stOK ∧ t.ansData = s.bytes x.off x.len ∧ s.keeps t) := by
  have hw' : ¬ x.write = true := Bool.eq_false_iff.mp hw
  refine ⟨_, exec_meshTransfer_mem hx hr (if_neg hw') hh, ?_⟩
  rw [if_neg hw', readMem_eq hs hst]
  exact ⟨rfl, rfl, rfl, rfl, rfl, rfl⟩

end

/-! A function's BAR2. -/

/-- A refused write of a function is discarded: OK is answered, and memory stays (R483). -/
theorem wrote_barDiscard {t : State} (h : s.keeps t) (fn target space : Nat) : s.wrote (t.barDiscard fn target space) := by
  have hr := reported_protection t (.fn fn) target space
  obtain ⟨hmem, hseqs, hsteps, hremote⟩ := h
  exact ⟨rfl, hr.mem.trans hmem, hr.seqs.trans hseqs, hr.steps.trans hsteps, hr.remote.trans hremote⟩

/-- What BAR2 makes of the answer of memory (R483): an error apart, a refused write is discarded and a refused read gives zeros. -/
def State.bar2Answer (t : State) (fn : Nat) (write : Bool) (a n : Nat) : State :=
  if t.ansStatus = stOK then t
  else if t.ansStatus = stUncorr then t.answer stUncorr []
  else if write then t.barDiscard fn (t.globalAddr a) 0 else t.answer stOK (zeros n)

section
variable {fn o n a : Nat} (hp : s.fnPresent fn = true) (hb : o + n ≤ bar2Size fn)
  (ha : a = s.fld R.prmBar2Win fn [] 47 0 + o) (hh : s.heldOff (.fn fn) a n = false)
include hp hb ha hh

/-- A write through BAR2 is a write of memory at WIN plus the offset. -/
theorem exec_bar2_write {data : List Byte} (hn : data.length = n) :
    exec (.bar2Access fn true o n data) s = .next ((s.writeMem (.fn fn) a data).bar2Answer fn true a n) := by
  subst hn ha
  show Host.Outcome.next (State.bar2 s fn true o _ data) = _
  simp [State.bar2, hp, hh, Nat.not_lt.mpr hb, State.bar2Answer]

/-- A read through BAR2 is a read of memory at WIN plus the offset. -/
theorem exec_bar2_read (data : List Byte) :
    exec (.bar2Access fn false o n data) s = .next ((s.readMem (.fn fn) a n).bar2Answer fn false a n) := by
  subst ha
  show Host.Outcome.next (State.bar2 s fn false o n data) = _
  simp [State.bar2, hp, hh, Nat.not_lt.mpr hb, State.bar2Answer]

theorem bar2_stores {data : List Byte} (hn : data.length = n) (hs : s.unobserved) (hc : s.canonical = true)
    (hst : s.memWriteStatus fn a n = stOK) :
    Runs (.bar2Access fn true o n data) s (fun t => t.ansStatus = stOK ∧ s.tookBytes t a data) := by
  have hw := writeMem_ok (m := .fn fn) hs hc (hn ▸ hst)
  refine ⟨_, exec_bar2_write hp hb ha hh hn, ?_⟩
  rw [State.bar2Answer, if_pos hw.1]
  exact hw

theorem bar2_discards {data : List Byte} (hn : data.length = n) (hst : s.memWriteStatus fn a n ≠ stOK)
    (hu : s.memWriteStatus fn a n ≠ stUncorr) : Runs (.bar2Access fn true o n data) s (fun t => s.wrote t) := by
  obtain ⟨hans, hk⟩ := writeMem_refused (m := .fn fn) (hn ▸ hst)
  have hans : (s.writeMem (.fn fn) a data).ansStatus = s.memWriteStatus fn a n := hn ▸ hans
  refine ⟨_, exec_bar2_write hp hb ha hh hn, ?_⟩
  rw [State.bar2Answer, hans, if_neg hst, if_neg hu]
  exact wrote_barDiscard hk fn _ _

theorem bar2_loads (data : List Byte) (hs : s.unobserved) (hst : s.memStatus fn a n = stOK) :
    Runs (.bar2Access fn false o n data) s (fun t => s.wrote t ∧ t.ansData = s.bytes a n) := by
  refine ⟨_, exec_bar2_read hp hb ha hh data, ?_⟩
  rw [readMem_eq (m := .fn fn) hs hst, State.bar2Answer, State.answer_ansStatus, if_pos rfl]
  exact ⟨⟨rfl, rfl, rfl, rfl, rfl⟩, rfl⟩

theorem bar2_reads_zeros (data : List Byte) (hst : s.memStatus fn a n ≠ stOK) (hu : s.memStatus fn a n ≠ stUncorr) :
    Runs (.bar2Access fn false o n data) s (fun t => s.wrote t ∧ t.ansData = List.replicate n 0) := by
  refine ⟨_, exec_bar2_read hp hb ha hh data, ?_⟩
  rw [readMem_refused (m := .fn fn) hst hu, State.bar2Answer, State.answer_ansStatus]
  rw [if_neg (show ¬ s.memStatus (s.masterPart (.fn fn)) a n = stOK from hst),
    if_neg (show ¬ s.memStatus (s.masterPart (.fn fn)) a n = stUncorr from hu)]
  exact ⟨⟨rfl, rfl, rfl, rfl, rfl⟩, rfl⟩

end

end Sys2Proof.Machine
end

section
/-! SUPPORT. A function's BAR0 (R481, R483, R486): its doorbells, the registers of its block, and the window of BAR2. -/
namespace Sys2Proof.Machine

/-! The register that an offset of BAR0 names. -/

theorem findReg_cons_hit {r : RegD} {t : List RegD} {o : Nat} {ix : List Nat} (h : r.off ≤ o)
    (hm : matchDims r.dims (o - r.off) = some ix) : findReg (r :: t) o = some (r, ix) := by
  simp only [findReg, if_neg (Nat.not_lt.mpr h), hm]

theorem findReg_cons_miss {r : RegD} {t : List RegD} {o : Nat} (hm : matchDims r.dims (o - r.off) = none) :
    findReg (r :: t) o = findReg t o := by
  simp only [findReg, hm, ite_self]

/-- The index that a multiple of the stride gives in one dimension. -/
theorem matchDims_one {n st i : Nat} (hi : i < n) (hst : 0 < st) : matchDims [(n, st)] (st * i) = some [i] := by
  have h : ¬ (st = 0 ∨ i ≥ n) := by omega
  simp [matchDims, Nat.mul_div_cancel_left i hst, h]

/-- Doorbell r of BAR0. -/
theorem findReg_doorbell {r : Nat} (h : r < 32768) : findReg (regsOf .bar) (0x100000 + 8 * r) = some (R.prmDb, [r]) := by
  have hm : matchDims R.prmDb.dims (0x100000 + 8 * r - R.prmDb.off) = some [r] := by
    rw [show R.prmDb.off = 0x100000 from rfl, Nat.add_sub_cancel_left]
    exact matchDims_one h (by omega)
  exact findReg_cons_hit (Nat.le_add_right _ _) hm

/-- The first register of ring r in BAR0. -/
theorem findReg_ring {r : Nat} (h : r < 32768) : findReg (regsOf .bar) (0x200000 + 0x20 * r) = some (R.prmRingSq, [r]) := by
  have hdb : matchDims R.prmDb.dims (0x200000 + 0x20 * r - R.prmDb.off) = none := by
    rw [show 0x200000 + 0x20 * r - R.prmDb.off = 8 * (131072 + 4 * r) by show 0x200000 + 0x20 * r - 0x100000 = _; omega]
    simp [R.prmDb, matchDims]
    omega
  have hsq : matchDims R.prmRingSq.dims (0x200000 + 0x20 * r - R.prmRingSq.off) = some [r] := by
    rw [show R.prmRingSq.off = 0x200000 from rfl, Nat.add_sub_cancel_left]
    exact matchDims_one h (by omega)
  exact (findReg_cons_miss hdb).trans (findReg_cons_hit (Nat.le_add_right _ _) hsq)

theorem widthOk_whole {o : Nat} (h : o % 8 = 0) : widthOk o 8 = true := by
  simp [widthOk, h]

/-! Rings. -/

section
variable {s : State} {fn : Nat} (hp : s.fnPresent fn = true)
include hp

/-- The doorbells and the ring registers of a function whose BAR0 is open. -/
theorem bar0_ringBlock {off : Nat} (hb : s.barShut = false)
    (h : (0x100000 ≤ off ∧ off < 0x140000) ∨ (0x200000 ≤ off ∧ off < 0x300000)) (write : Bool) (width : Nat) (v : Word) :
    s.bar0 fn write off width v = s.ringBlock fn write off width v := by
  unfold State.bar0
  rw [hp, hb, if_neg (by decide), if_neg (by omega), if_neg (by omega), if_neg (by decide), if_pos h]

/-- A write of a doorbell through BAR0 is the ring of that doorbell. -/
theorem exec_bar0_doorbell {r : Nat} (hr : r < 32768) (hb : s.barShut = false) (hc : s.chipFenced = false) (v : Word) :
    exec (.bar0Access fn true (0x100000 + 8 * r) 8 v) s = exec (.doorbell fn r v) s := by
  have h8 : (0x100000 + 8 * r) / 8 * 8 = 0x100000 + 8 * r := by omega
  have hw : widthOk (0x100000 + 8 * r) 8 = true := widthOk_whole (by omega)
  have hr' : ¬ r ≥ 32768 := by omega
  show Host.Outcome.next (s.bar0 fn true _ 8 v) = execDoorbell fn r v s
  rw [bar0_ringBlock hp hb (.inl (by omega))]
  simp only [State.ringBlock, hw, if_true, h8, findReg_doorbell hr, execDoorbell, hp, hc, hr', List.headD_cons,
    Bool.not_true, decide_false, Bool.or_false, Bool.false_eq_true, if_false]
  split
  · rfl
  · simp only [State.writeBarReg, if_true, placed, partMask_whole, BitVec.and_allOnes, List.headD_cons]

/-- A read of another function's ring gives zeros. -/
theorem bar0_foreign_ring {r : Nat} (hr : r < 32768) (hb : s.barShut = false) (hf : s.ringPart r ≠ fn) (v : Word) :
    Runs (.bar0Access fn false (0x200000 + 0x20 * r) 8 v) s (fun t =>
      t = { s with ansStatus := stOK, ansData := List.replicate 8 0 }) := by
  have h8 : (0x200000 + 0x20 * r) / 8 * 8 = 0x200000 + 0x20 * r := by omega
  have hw : widthOk (0x200000 + 0x20 * r) 8 = true := widthOk_whole (by omega)
  refine ⟨_, rfl, ?_⟩
  rw [bar0_ringBlock hp hb (.inr (by omega))]
  simp only [State.ringBlock, hw, if_true, h8, findReg_ring hr, List.headD_cons, if_pos hf, Bool.false_eq_true, if_false]
  rfl

/-! A function's own block. -/

/-- A write of 8 B of a register of a function's own block, which its reset does not fence. -/
theorem exec_bar0_fnBlock {o : Nat} {r : RegD} {ix : List Nat} (ho : o < 0x100000) (h8 : o % 8 = 0)
    (hr : fnReg fn o = some (r, ix)) (hf : fn = 0 ∨ s.fenced 2 fn = false) (v : Word) :
    exec (.bar0Access fn true o 8 v) s =
      .next ((s.writeReg (.fn fn) r fn ix v (BitVec.allOnes 64)).answer stOK []) := by
  have hw : widthOk o 8 = true := widthOk_whole h8
  have hshut : (fn != 0 && s.fenced 2 fn) = false := by
    rcases hf with rfl | hf
    · rfl
    · rw [hf, Bool.and_false]
  have h8' : o / 8 * 8 = o := by omega
  show Host.Outcome.next (s.bar0 fn true o 8 v) = _
  unfold State.bar0 State.fnBlock
  simp only [hp, ho, hw, hshut, h8', hr, if_true, Bool.not_true, Bool.or_false, Bool.false_eq_true, if_false, placed,
    partMask_whole]

/-- A write of HEAD through BAR0 is the command of that name. -/
theorem exec_bar0_evtHead (hf : fn = 0 ∨ s.fenced 2 fn = false) (v : Word) :
    exec (.bar0Access fn true 0x50 8 v) s = exec (.evtHeadWrite fn v) s := by
  have hr : fnReg fn 0x50 = some (R.prmEvtHead, []) := rfl
  rw [exec_bar0_fnBlock hp (by omega) rfl hr hf]
  show _ = Host.Outcome.next (s.fnWrite fn _)
  rw [State.fnWrite, if_pos hp]
  rfl

/-- A write of WIN through BAR0 is the command of that name. -/
theorem exec_bar0_bar2Win (hf : fn = 0 ∨ s.fenced 2 fn = false) (v : Word) :
    exec (.bar0Access fn true 0x10 8 v) s = exec (.bar2WinWrite fn v) s := by
  have hr : fnReg fn 0x10 = some (R.prmBar2Win, []) := rfl
  rw [exec_bar0_fnBlock hp (by omega) rfl hr hf]
  show _ = execBar2WinWrite fn v s
  rw [execBar2WinWrite, if_pos hp]
  rfl

/-- A write of WIN keeps a multiple of the window's size (R482). -/
theorem bar2WinWrite_multiple (v : Word) : Runs (.bar2WinWrite fn v) s (fun t => s.wrote t ∧
    t.fld R.prmBar2Win fn [] 47 0 = getField v 47 0 / bar2Size fn * bar2Size fn) := by
  have hsize : bar2Size fn = 2 ^ ((if fn = 0 then 35 else 33) + 1) := by
    unfold bar2Size
    split <;> rfl
  have hstores : R.prmBar2Win.stores 47 0 = true := by decide
  refine ⟨_, if_pos hp, (counted_setReg s _ _ _ _).reported.wrote_answer [], ?_⟩
  rw [State.fld_answer, State.writeWin, State.shapedWrite, State.fld, State.reg_setReg, getField_setField_clear,
    partMask_whole, getField_written _ v hstores (by omega), hsize]

end

/-! Watch points. -/

/-- What a table with rising keys lists once only some keys are kept. -/
theorem Tab.find_keep {α : Type} (t : Tab α) (n k : Nat) (p : Nat → Bool) (ht : Tab.risingFrom n t = true) :
    Tab.find (t.keep p) k = if p k then Tab.find t k else none := by
  induction t generalizing n with
  | nil => simp [Tab.keep, Tab.find]
  | cons e t ih =>
    obtain ⟨a, b⟩ := e
    simp only [Tab.risingFrom, Bool.and_eq_true, decide_eq_true_eq] at ht
    have hlt (hk : k < a) : Tab.find t k = none := Tab.find_below t (a + 1) k (by omega) ht.2
    have ih := ih (a + 1) ht.2
    simp only [Tab.keep] at ih ⊢
    by_cases hp : p a = true
    · simp only [List.filter, hp, Tab.find, ih]
      rcases Nat.lt_trichotomy k a with h | rfl | h
      · simp [h]
      · simp [hp]
      · simp [show ¬ k < a by omega, show ¬ k = a by omega]
    · simp only [List.filter, hp, Tab.find, ih]
      rcases Nat.lt_trichotomy k a with h | rfl | h
      · simp [h, hlt h]
      · simp [hp]
      · simp [show ¬ k < a by omega, show ¬ k = a by omega]

/-- What a table with rising keys lists once a range of keys is taken out. -/
theorem Tab.find_outside {α : Type} (t : Tab α) (lo n k : Nat) (ht : Tab.wf t = true) :
    Tab.find (t.outside lo n) k = if lo ≤ k ∧ k < lo + n then none else Tab.find t k := by
  rw [Tab.outside, Tab.find_keep t 0 k _ ht]
  by_cases h : lo ≤ k ∧ k < lo + n
  · simp [h]
  · rw [if_neg h, if_pos]
    simp only [Bool.not_eq_true', Bool.and_eq_false_iff, decide_eq_false_iff_not]
    omega

/-- A write of TW_CFG sets the configuration of its watch point, clears the rest of it and leaves every other register
(R569). -/
theorem twCfgWrite_clears {s : State} {fn w : Nat} (hp : s.fnPresent fn = true) (hw : w < 64) (hwf : Tab.wf s.regs = true)
    (v : Word) : Runs (.twCfgWrite fn w v) s (fun t => s.wrote t ∧ t.fld R.twCfg fn [w] 23 0 = getField v 23 0 ∧
      (∀ k, R.twCfg.at fn [w] < k → k < R.twCfg.at fn [w] + 0x100 → t.regs.find k = none) ∧
      ∀ k, (k < R.twCfg.at fn [w] ∨ R.twCfg.at fn [w] + 0x100 ≤ k) → t.regs.find k = s.regs.find k) := by
  have hstores : R.twCfg.stores 23 0 = true := by decide
  refine ⟨_, if_pos hp, ?_⟩
  rw [Nat.mod_eq_of_lt hw]
  unfold State.writeTw
  refine ⟨⟨rfl, rfl, rfl, rfl, rfl⟩, ?_, fun k h1 h2 => ?_, fun k hk => ?_⟩
  · rw [State.fld_answer, partMask_whole, fld_setReg_written _ fn _ v hstores (by omega)]
  · rw [State.answer_regs, State.setReg_regs, Tab.find_put_ne _ _ (by omega), Tab.find_outside _ _ _ _ hwf,
      if_pos ⟨by omega, h2⟩]
  · rw [State.answer_regs, State.setReg_regs, Tab.find_put_ne _ _ (by omega), Tab.find_outside _ _ _ _ hwf,
      if_neg (by omega)]

end Sys2Proof.Machine
end

section
/-! SUPPORT. A register's field after a field is replaced: of the same register, and of another. -/
namespace Sys2Proof.Machine

variable (s : State) (r : RegD) (d : Nat) (ix : List Nat)

theorem fld_setFld_same {hi : Nat} (lo x : Nat) (h : hi < 64) :
    (s.setFld r d ix hi lo x).fld r d ix hi lo = x % 2 ^ (hi + 1 - lo) := by
  rw [State.fld, State.setFld, State.reg_setReg, getField_setField_same _ _ _ h]

theorem fld_setFld_disjoint {hi lo hi' lo' : Nat} (x : Nat) (h : hi' < lo ∨ hi < lo') :
    (s.setFld r d ix hi lo x).fld r d ix hi' lo' = s.fld r d ix hi' lo' := by
  rw [State.fld, State.setFld, State.reg_setReg, getField_setField_disjoint _ _ h, State.fld]

theorem fld_setReg_ne {r' : RegD} {d' : Nat} {ix' : List Nat} (v : Word) (hi lo : Nat) (h : r'.at d' ix' ≠ r.at d ix) :
    (s.setReg r d ix v).fld r' d' ix' hi lo = s.fld r' d' ix' hi lo := by
  rw [State.fld, State.reg_setReg_ne _ _ h, State.fld]

/-- A field of one bit reads 1 where the bit is set. -/
theorem getField_bit {w : Nat} (v : BitVec w) (i : Nat) : getField v i i = b2n (v.getLsbD i) := by
  have h : v.toNat / 2 ^ i % 2 = b2n (v.toNat.testBit i) := by
    rw [Nat.testBit_eq_decide_div_mod_eq, b2n]
    split <;> simp_all
  simpa [getField, bitsOf, BitVec.testBit_toNat] using h

end Sys2Proof.Machine
end

section
/-! SUPPORT. Disabling a die's trace unit (R564): the held records and a loss record are written out, in order. -/
namespace Sys2Proof.Machine

/-- n records of a die's trace unit are written out and leave it as `q`: WPTR is n further on, and sequencers and steps stay. -/
def State.wroteOut (s t : State) (die n : Nat) (q : Trc) : Prop :=
  t.seqs = s.seqs ∧ t.steps = s.steps ∧ t.trcOf die = q ∧
    t.fld R.trcStat die [] 18 0 = (s.fld R.trcStat die [] 18 0 + n) % 2 ^ 19

variable {s t u : State} {die n m : Nat} {q p : Trc}

theorem State.wroteOut.trans (h : s.wroteOut t die n q) (g : t.wroteOut u die m p) : s.wroteOut u die (n + m) p := by
  obtain ⟨hq, hs, -, hw⟩ := h
  obtain ⟨gq, gs, gt, gw⟩ := g
  exact ⟨gq.trans hq, gs.trans hs, gt, by rw [gw, hw, Nat.mod_add_mod, Nat.add_assoc]⟩

theorem State.wroteOut.left (h : s.wroteOut t die n q) : t.trcOf die = q := h.2.2.1

/-- Nothing written out: WPTR stands. -/
theorem wroteOut_zero (hq : t.seqs = s.seqs) (hs : t.steps = s.steps) (hr : t.regs = s.regs) (ht : t.trcOf die = q) :
    s.wroteOut t die 0 q := by
  have hlt : s.fld R.trcStat die [] 18 0 < 2 ^ 19 := Nat.mod_lt _ (by omega)
  exact ⟨hq, hs, ht, by rw [fld_congr hr, Nat.add_zero, Nat.mod_eq_of_lt hlt]⟩

theorem wroteOut_trcWrite (s : State) (die : Nat) (b : List Byte) :
    s.wroteOut (s.trcWrite die b) die 1 (s.trcOf die) := by
  unfold State.trcWrite
  extract_lets w s₁ s₂
  have h : s₂.fld R.trcStat die [] 18 0 = (s.fld R.trcStat die [] 18 0 + 1) % 2 ^ 19 := by
    unfold s₂
    rw [fld_setFld_same _ _ _ _ _ _ (by omega)]
    exact Nat.mod_mod _ _
  split
  · refine ⟨rfl, rfl, rfl, ?_⟩
    rw [fld_setFld_disjoint _ _ _ _ _ (.inl (by omega)), h]
  · exact ⟨rfl, rfl, rfl, h⟩

theorem wroteOut_trcWrites (s : State) (die : Nat) (l : List (List Byte)) :
    s.wroteOut (l.foldl (fun s b => s.trcWrite die b) s) die l.length (s.trcOf die) := by
  induction l generalizing s with
  | nil => exact wroteOut_zero rfl rfl rfl rfl
  | cons b l ih =>
    have h₁ := wroteOut_trcWrite s die b
    have h₂ := h₁.trans (ih _)
    rw [h₁.left, Nat.add_comm] at h₂
    exact h₂

@[simp] theorem trcOf_put (s : State) (die : Nat) (q : Trc) : ({ s with trc := s.trc.put die q } : State).trcOf die = q :=
  Tab.getD_put_same _ _ _ _

theorem wroteOut_trcFlush (s : State) (die : Nat) :
    s.wroteOut (s.trcFlush die) die (s.trcOf die).held.length { s.trcOf die with held := [] } := by
  have h₁ : s.wroteOut { s with trc := s.trc.put die { s.trcOf die with held := [] } } die 0 { s.trcOf die with held := [] } :=
    wroteOut_zero rfl rfl rfl (trcOf_put s die _)
  have h₂ := h₁.trans (wroteOut_trcWrites _ die (s.trcOf die).held)
  rw [trcOf_put, Nat.zero_add] at h₂
  exact h₂

/-- With no record held, a loss record is taken where drops are to be reported, and the drops count from 0 again. -/
theorem wroteOut_trcLoss (s : State) (die : Nat) (hh : (s.trcOf die).held = []) :
    ∃ q : Trc, s.wroteOut (s.trcLoss die) die 0 q ∧ q.lost = 0 ∧
      q.held.length = if (s.trcOf die).lost = 0 then 0 else 1 := by
  unfold State.trcLoss
  extract_lets t b
  by_cases hl : t.lost = 0
  · rw [if_pos hl]
    exact ⟨t, wroteOut_zero rfl rfl rfl rfl, hl, by rw [if_pos hl, show t.held = [] from hh]; rfl⟩
  · rw [if_neg hl]
    generalize b = r
    have hroom : ¬ (({ s with trc := s.trc.put die { t with lost := 0 } } : State).trcOf die).held.length ≥ 64 := by
      rw [trcOf_put, show t.held = [] from hh]
      decide
    unfold State.trcTake
    dsimp only
    rw [if_neg hroom, trcOf_put]
    refine ⟨_, wroteOut_zero rfl rfl rfl (trcOf_put _ die _), rfl, ?_⟩
    rw [if_neg hl, show t.held = [] from hh]
    rfl

/-- The held records, a loss record if there were drops, and nothing left behind. -/
theorem wroteOut_disable (s : State) (die : Nat) : ∃ q : Trc, q.held = [] ∧ q.lost = 0 ∧
    s.wroteOut (((s.trcFlush die).trcLoss die).trcFlush die) die
      ((s.trcOf die).held.length + if (s.trcOf die).lost = 0 then 0 else 1) q := by
  have h₁ := wroteOut_trcFlush s die
  obtain ⟨q, h₂, hlost, hlen⟩ := wroteOut_trcLoss (s.trcFlush die) die (by rw [h₁.left])
  have h₃ := (h₁.trans h₂).trans (wroteOut_trcFlush _ die)
  rw [h₁.left] at hlen
  rw [h₂.left, hlen, Nat.add_zero] at h₃
  exact ⟨{ q with held := [] }, rfl, hlost, h₃⟩

/-- What a trace unit that was enabled writes out as it is disabled; one that was not writes nothing. -/
def State.trcDrain (s : State) (die : Nat) : State :=
  if s.fld R.trcCfg die [] 0 0 = 1 then ((s.trcFlush die).trcLoss die).trcFlush die else s

theorem trcDrain_on (s : State) (die : Nat) (h : s.fld R.trcCfg die [] 0 0 = 1) :
    ∃ q : Trc, q.held = [] ∧ q.lost = 0 ∧
      s.wroteOut (s.trcDrain die) die ((s.trcOf die).held.length + if (s.trcOf die).lost = 0 then 0 else 1) q := by
  rw [State.trcDrain, if_pos h]
  exact wroteOut_disable s die

theorem trcDrain_off (s : State) (die : Nat) (h : s.fld R.trcCfg die [] 0 0 = 0) : s.trcDrain die = s :=
  if_neg (by omega)

theorem trcDrain_seqs_steps (s : State) (die : Nat) :
    (s.trcDrain die).seqs = s.seqs ∧ (s.trcDrain die).steps = s.steps := by
  obtain ⟨_, -, -, hseqs, hsteps, -⟩ := wroteOut_disable s die
  unfold State.trcDrain
  split
  · exact ⟨hseqs, hsteps⟩
  · exact ⟨rfl, rfl⟩

/-- A write of _TRC_CFG with EN 0. -/
theorem writeTrcCfg_disable (s : State) (m : Master) (die : Nat) {v : Word} (hv : getField v 0 0 = 0) :
    s.writeTrcCfg m die v (BitVec.allOnes 64) = (s.trcDrain die).setReg R.trcCfg die []
      (R.trcCfg.written (s.reg R.trcCfg die []) v (BitVec.allOnes 64) false false) := by
  have hw : (R.trcCfg.written (s.reg R.trcCfg die []) v (BitVec.allOnes 64) false false).getLsbD 0 = false := by
    have h := getField_written (r := R.trcCfg) (s.reg R.trcCfg die []) v (hi := 0) (lo := 0) (by decide) (by omega)
    rw [hv, getField_bit, b2n] at h
    simpa using h
  unfold State.writeTrcCfg State.trcDrain
  dsimp only
  rw [hw, show s.fld R.trcCfg die [] 0 0 = _ from getField_bit _ 0, b2n]
  cases (s.reg R.trcCfg die []).getLsbD 0 <;> rfl

/-- Disabling a trace unit stores the configuration with EN 0; a unit that was enabled writes out what it holds. -/
theorem trcDisable_writesOut (s : State) (m : Master) (die : Nat) (v : Word) {d : Nat} (hd : die % 32 = d)
    (hg : s.grants m R.trcCfg d []) :
    Runs (.trcDisable m die v) s (fun t => t.ansStatus = stOK ∧ t.seqs = s.seqs ∧ t.steps = s.steps ∧
      t.fld R.trcCfg d [] 0 0 = 0 ∧ t.fld R.trcCfg d [] 1 1 = getField v 1 1 ∧ t.fld R.trcCfg d [] 15 8 = getField v 15 8 ∧
      (s.fld R.trcCfg d [] 0 0 = 1 → (t.trcOf d).held = [] ∧ (t.trcOf d).lost = 0 ∧ t.fld R.trcStat d [] 18 0 =
        (s.fld R.trcStat d [] 18 0 + (s.trcOf d).held.length + (if (s.trcOf d).lost = 0 then 0 else 1)) % 2 ^ 19) ∧
      (s.fld R.trcCfg d [] 0 0 = 0 → s.keeps t)) := by
  subst hd
  have hv : getField (setField v 0 0 0) 0 0 = 0 := getField_setField_same v 0 0 (by omega)
  have hrun : exec (.trcDisable m die v) s = _ := congrArg Host.Outcome.next (guardWrite_granted s m (die % 32) _ hg)
  rw [partMask_whole, writeTrcCfg_disable s m _ hv] at hrun
  generalize die % 32 = d at hrun
  have hne : R.trcStat.at d [] ≠ R.trcCfg.at d [] := by
    show winBase + d * 0x1000000 + (0xD010 + 0) ≠ winBase + d * 0x1000000 + (0xD000 + 0)
    omega
  have hon := trcDrain_on s d
  have hoff := trcDrain_off s d
  obtain ⟨hseqs, hsteps⟩ := trcDrain_seqs_steps s d
  generalize s.trcDrain d = y at *
  refine ⟨_, hrun, rfl, hseqs, hsteps, ?_, ?_, ?_, fun hen => ?_, fun hen => ?_⟩
  · rw [State.fld_answer, fld_setReg_written _ _ _ _ (by decide) (by omega), hv]
  · rw [State.fld_answer, fld_setReg_written _ _ _ _ (by decide) (by omega), getField_setField_disjoint v 0 (.inr (by omega))]
  · rw [State.fld_answer, fld_setReg_written _ _ _ _ (by decide) (by omega), getField_setField_disjoint v 0 (.inr (by omega))]
  · obtain ⟨q, hheld, hlost, -, -, htrc, hstat⟩ := hon hen
    rw [State.fld_answer, fld_setReg_ne _ _ _ _ _ _ _ hne, hstat, Nat.add_assoc]
    exact ⟨(congrArg Trc.held htrc).trans hheld, (congrArg Trc.lost htrc).trans hlost, rfl⟩
  · obtain rfl := hoff hen
    exact ⟨rfl, rfl, rfl, rfl⟩

end Sys2Proof.Machine
end

section
/-! SUPPORT. Runtime sparing (R43, R44): GO maps a row of a fenced cluster onto the spare, or withdraws the cluster. -/
namespace Sys2Proof.Machine

variable (s : State) {p : Nat}

/-- A row of a cluster that holds its spare is mapped onto the spare, and no other row moves. -/
theorem retireRow_spare (k : Nat) (hsp : s.hasSpare p = true) :
    let t := s.retireRow p k
    t.mem = s.mem ∧ t.physRow p k = 8 ∧ t.hasSpare p = false ∧ t.fld R.dhlClStatus (p / 8) [p % 8] 11 8 = s.physRow p k % 16 ∧
      ∀ j < 8, j ≠ k → t.physRow p j = s.physRow p j := by
  simp only [State.retireRow, if_pos hsp]
  refine ⟨rfl, ?_, ?_, fld_setFld_same _ _ _ _ _ _ (by omega), fun j _ hj => ?_⟩
  · simp only [State.physRow, State.seq_setFld, State.seq_setSeq, Tab.find_put_same]
  · simp only [State.hasSpare, State.seq_setFld, State.seq_setSeq, Bool.not_true, Bool.and_false]
  · simp only [State.physRow, State.seq_setFld, State.seq_setSeq, Tab.find_put_ne _ _ hj, State.setFld_ident,
      State.setSeq_ident]

/-- A cluster withdrawn reads as withdrawn: its own status register lies apart from Foxglove's record of it. -/
theorem withdrawn_withdraw : (s.withdraw p).withdrawn p = true := by
  have hne (c : Nat) : R.fxgClState.at 31 [c] ≠ R.dhlClStatus.at (p / 8) [p % 8] := by
    show winBase + 31 * 0x1000000 + 0xF00000 + (0x1000 + (c * 0x10 + 0)) ≠
      winBase + p / 8 * 0x1000000 + (0x10018 + (p % 8 * 0x1000 + 0))
    omega
  have hlog : (s.withdraw p).logCluster p = s.logCluster p := rfl
  rw [State.withdrawn, hlog, State.withdraw, State.setFld, fld_setReg_ne _ _ _ _ _ _ _ (hne _),
    fld_setFld_same _ _ _ _ _ _ (by omega)]
  rfl

variable {s} {m : Master} {die lc : Nat} {v : Word} {d l : Nat} (hd : die % 16 = d) (hl : lc % 8 = l)
  (hg : s.grants m R.dhlClSpareCmd d [l])
include hd hl hg

/-- SPARE_RETIRE is a write of the command register with GO. -/
theorem exec_spareRetire : exec (.spareRetire m die lc v) s = .next ((s.writeSpare m d l (v ||| 0x100)).answer stOK []) := by
  subst hd hl
  exact congrArg Host.Outcome.next (guardWrite_granted s m _ _ hg)

/-- On a fenced cluster whose spare row is not in use the command retires the row. -/
theorem exec_spareRetire_fenced (hf : s.fenced 1 (s.logCluster (8 * d + l)) = true)
    (hb : (s.seq (.cluster (8 * d + l))).spareBusy = false) :
    exec (.spareRetire m die lc v) s = .next ((s.retireRow (8 * d + l) (getField v 2 0)).answer stOK []) := by
  have hgo : (v ||| 0x100).getLsbD 8 = true := by simp
  have hlow : ∀ i ≤ 2, (0x100 : Word).getLsbD i = false := by decide
  have hk : getField (v ||| 0x100) 2 0 = getField v 2 0 := getField_congr fun i _ hi => by
    rw [BitVec.getLsbD_or, hlow i hi, Bool.or_false]
  rw [exec_spareRetire hd hl hg]
  simp only [State.writeSpare, hgo, hf, hb, hk, Bool.not_true, Bool.or_self, Bool.false_eq_true, if_false]

theorem spareRetire_spare (hf : s.fenced 1 (s.logCluster (8 * d + l)) = true)
    (hb : (s.seq (.cluster (8 * d + l))).spareBusy = false) (hsp : s.hasSpare (8 * d + l) = true) :
    Runs (.spareRetire m die lc v) s (fun t => t.ansStatus = stOK ∧ t.mem = s.mem ∧
      t.physRow (8 * d + l) (getField v 2 0) = 8 ∧ t.hasSpare (8 * d + l) = false ∧
      t.fld R.dhlClStatus d [l] 11 8 = s.physRow (8 * d + l) (getField v 2 0) % 16 ∧
      ∀ j < 8, j ≠ getField v 2 0 → t.physRow (8 * d + l) j = s.physRow (8 * d + l) j) := by
  have h := retireRow_spare s (getField v 2 0) hsp
  rw [show (8 * d + l) / 8 = d by omega, show (8 * d + l) % 8 = l by omega] at h
  exact ⟨_, exec_spareRetire_fenced hd hl hg hf hb, rfl, h⟩

theorem spareRetire_withdraws (hf : s.fenced 1 (s.logCluster (8 * d + l)) = true)
    (hb : (s.seq (.cluster (8 * d + l))).spareBusy = false) (hsp : s.hasSpare (8 * d + l) = false) :
    Runs (.spareRetire m die lc v) s (fun t => s.wrote t ∧ t.withdrawn (8 * d + l) = true) := by
  refine ⟨_, exec_spareRetire_fenced hd hl hg hf hb, ?_⟩
  rw [State.retireRow, if_neg (by rw [hsp]; decide)]
  exact ⟨⟨rfl, rfl, rfl, rfl, rfl⟩, withdrawn_withdraw s⟩

/-- On a cluster that is not fenced, or whose spare row is in use, the command is refused. -/
theorem spareRetire_refused
    (h : s.fenced 1 (s.logCluster (8 * d + l)) = false ∨ (s.seq (.cluster (8 * d + l))).spareBusy = true) :
    Runs (.spareRetire m die lc v) s (fun t => s.wrote t) := by
  have hgo : (v ||| 0x100).getLsbD 8 = true := by simp
  have hr : (!(s.fenced 1 (s.logCluster (8 * d + l))) || (s.seq (.cluster (8 * d + l))).spareBusy) = true := by
    rcases h with h | h <;> simp [h]
  refine ⟨_, exec_spareRetire hd hl hg, ?_⟩
  simp only [State.writeSpare, hgo, hr, Bool.not_true, Bool.false_eq_true, if_false, if_true]
  exact (reported_refuseReg s m _ _ _ _).wrote_answer []

end Sys2Proof.Machine
end

section
/-! SUPPORT. The accesses from outside, assembled. -/
namespace Sys2Proof.Machine

/-- Settles O55: each access is a guarded write, a memory access or a refused one, by the lemmas about those. -/
theorem accesses : Obligations.Accesses := by
  intro s m fn v hc
  refine ⟨fun off x o r ix hoff ho hd hr hk => ⟨?_, ?_, ?_, ?_, ?_⟩, fun x hx hreg hs => ⟨?_, ?_, ?_⟩,
    fun hp => ⟨fun r hr hb => ⟨?_, ?_⟩, fun hf => ⟨?_, ?_⟩, ?_⟩, fun off n data hp hb hn hs => ?_, ?_, ?_, ?_⟩
  · exact registerWrite_status s v hoff ho hd hr hk
  · exact fun hst hm _ hs => registerWrite_denied s v hoff ho hd hr hk hst hm hs
  · exact registerWrite_codes s v hoff ho hd hr hk
  · exact fun hst => ⟨_, exec_meshTransfer_read s hoff ho hd hr hst, rfl⟩
  · exact exec_meshTransfer_write s m v hoff
  · exact meshTransfer_stores hx hreg hs hc
  · exact meshTransfer_refused hx hreg
  · exact meshTransfer_loads hx hreg hs
  · exact fun hch => exec_bar0_doorbell hp hr hb hch v
  · exact fun hf => bar0_foreign_ring hp hr hb hf v
  · exact exec_bar0_evtHead hp hf v
  · exact exec_bar0_bar2Win hp hf v
  · exact bar2WinWrite_multiple hp v
  · intro a hh
    refine ⟨?_, bar2_discards hp hb rfl hh hn, bar2_loads hp hb rfl hh data hs, bar2_reads_zeros hp hb rfl hh data⟩
    subst hn
    exact bar2_stores hp hb rfl hh rfl hs hc
  · exact fun w hw hp hwf => twCfgWrite_clears hp hw hwf v
  · exact fun die hg => trcDisable_writesOut s m die v rfl hg
  · intro die lc d l p k u hg
    exact ⟨fun hf hb => ⟨spareRetire_spare rfl rfl hg hf hb, spareRetire_withdraws rfl rfl hg hf hb⟩,
      spareRetire_refused rfl rfl hg⟩

end Sys2Proof.Machine
end

section
/-! SUPPORT. The form of the memories (R35, R243) is kept: no operation of the model breaks the rising order of the
listed addresses or lists a byte that an unlisted address reads as, for a byte is written by `Memory.writeList` or
dropped by `Tab.keep`, and every other operation leaves both memories as they are or composes such operations. Each
lemma says so of one operation that yields a state, and its proof follows the branches of the definition; `hs` itself
proves it of a state that differs from `s` in neither memory. First what composition needs, then registers, events,
metering, time, accesses and debug stops. -/

namespace Sys2Proof.Machine

variable {s : State}

/-- A state is in the form where each of its memories is as soon as the other state's is. -/
theorem canonical_of_imp {t : State} (hs : s.canonical) (hm : Memory.wf s.mem = true → Memory.wf t.mem = true)
    (hh : Memory.wf s.host = true → Memory.wf t.host = true) : t.canonical :=
  Bool.and_eq_true_iff.mpr ((Bool.and_eq_true_iff.mp hs).imp hm hh)

/-- A choice between two states in the form. -/
theorem canonical_ite {c : Prop} {inst : Decidable c} {a b : State} (ha : a.canonical) (hb : b.canonical) :
    (if c then a else b).canonical := by
  split
  · exact ha
  · exact hb

/-- A choice between two results whose second part is a state. -/
theorem canonical_snd_ite {α : Type} {c : Prop} {inst : Decidable c} {a b : α × State} (ha : a.2.canonical)
    (hb : b.2.canonical) : (if c then a else b).2.canonical := by
  split
  · exact ha
  · exact hb

/-- Steps that keep the form, taken one after another. -/
theorem canonical_foldl {α : Type} {f : State → α → State} {l : List α}
    (hf : ∀ {t a}, t.canonical → (f t a).canonical) (hs : s.canonical) : (l.foldl f s).canonical := by
  induction l generalizing s with
  | nil => exact hs
  | cons a l ih => exact ih (hf hs)

theorem canonical_setReg (hs : s.canonical) {r die ix v} : (s.setReg r die ix v).canonical :=
  hs

theorem canonical_setFld (hs : s.canonical) {r die ix hi lo x} : (s.setFld r die ix hi lo x).canonical :=
  canonical_setReg hs

theorem canonical_bumpFld (hs : s.canonical) {r die ix hi lo x} : (s.bumpFld r die ix hi lo x).canonical :=
  canonical_setFld hs

theorem canonical_draw (hs : s.canonical) : s.draw.2.canonical := hs

theorem canonical_setPd (hs : s.canonical) {n v} : (s.setPd n v).canonical :=
  canonical_ite (canonical_setFld hs) (canonical_setFld hs)

theorem canonical_setSeq (hs : s.canonical) {u q} : (s.setSeq u q).canonical :=
  hs

theorem canonical_store (hs : s.canonical) {off bs} : (s.store off bs).canonical :=
  canonical_of_imp hs (Memory.wf_writeList _ _ _) id

theorem canonical_zeroRange (hs : s.canonical) {off n} : (s.zeroRange off n).canonical :=
  canonical_of_imp hs (by dsimp only [State.zeroRange]; exact Memory.wf_keep _ _) id

theorem canonical_hostStore (hs : s.canonical) {a bs} : (s.hostStore a bs).canonical :=
  canonical_of_imp hs id (Memory.wf_writeList _ _ _)

theorem canonical_pmuAdd (hs : s.canonical) {die i n} : (s.pmuAdd die i n).canonical :=
  canonical_ite (canonical_setFld (canonical_setFld hs)) (canonical_setFld hs)

theorem canonical_pmuAt (hs : s.canonical) {die code unit n} : (s.pmuAt die code unit n).canonical :=
  canonical_ite hs (canonical_ite hs (canonical_foldl (fun h => canonical_ite (canonical_pmuAdd h) h) hs))

theorem canonical_pmu (hs : s.canonical) {die code unit n} : (s.pmu die code unit n).canonical :=
  canonical_pmuAt hs

theorem canonical_pmuSync (hs : s.canonical) {die} : (s.pmuSync die).canonical := by
  refine canonical_ite ?_ (canonical_ite (canonical_pmuAt (canonical_setFld ?_))
    (canonical_ite (canonical_pmuAt (canonical_setFld ?_)) (canonical_setFld ?_)))
  all_goals exact hs

theorem canonical_sendMsix (hs : s.canonical) {fn vec} : (s.sendMsix fn vec).canonical := by
  refine canonical_ite (canonical_setFld ?_) (canonical_pmu ?_)
  all_goals exact hs

theorem canonical_putRecord (hs : s.canonical) {fn kind die payload seq} :
    (s.putRecord fn kind die payload seq).canonical :=
  canonical_pmu (canonical_setFld (canonical_hostStore hs))

theorem canonical_emit (hs : s.canonical) {part kind die payload} : (s.emit part kind die payload).canonical := by
  refine canonical_ite ?_ (canonical_ite (canonical_bumpFld ?_) (canonical_sendMsix (canonical_putRecord ?_)))
  all_goals exact hs

theorem canonical_protection (hs : s.canonical) {m target space} : (s.protection m target space).canonical :=
  canonical_emit (by exact hs)

theorem canonical_refusedIn (hs : s.canonical) {part target value space} :
    (s.refusedIn part target value space).canonical :=
  canonical_emit (by exact hs)

theorem canonical_stateEvent (hs : s.canonical) {regAddr old new_} : (s.stateEvent regAddr old new_).canonical :=
  canonical_emit (by exact hs)

theorem canonical_memError (hs : s.canonical) {off part} : (s.memError off part).canonical := by
  have go {ecc err : RegD} {die : Nat} : State.canonical
      (let s := s.bumpFld ecc die [] 63 32 1
       if s.fld err die [] 63 63 = 0 then (s.setFld err die [] 47 0 off).setFld err die [] 63 63 1 else s) :=
    canonical_ite (canonical_setFld (canonical_setFld (canonical_bumpFld hs))) (canonical_bumpFld hs)
  unfold State.memError
  extract_lets _ s₁
  have hs₁ : s₁.canonical := by
    unfold s₁
    split
    case h_7 => exact hs
    all_goals exact go
  exact canonical_ite (canonical_emit hs₁) (canonical_emit (canonical_emit hs₁))

theorem canonical_bumpKey (hs : s.canonical) {k hi lo} : (s.bumpKey k hi lo).canonical :=
  hs

theorem canonical_tcGrow (hs : s.canonical) {n} : (s.tcGrow n).canonical :=
  canonical_ite hs hs

theorem canonical_tcDirty (hs : s.canonical) {kind k} : (s.tcDirty kind k).canonical :=
  hs

theorem canonical_police (hs : s.canonical) {k len} : (s.police k len).2.canonical :=
  canonical_snd_ite (canonical_bumpKey hs) (canonical_snd_ite (canonical_bumpKey (by exact hs))
    (canonical_bumpKey hs))

theorem canonical_mark (hs : s.canonical) {k len} : (s.mark k len).2.canonical := by
  refine canonical_snd_ite hs (canonical_snd_ite hs (canonical_snd_ite ?_ ?_))
  all_goals exact hs

theorem canonical_countMark (hs : s.canonical) {k c} : (s.countMark k c).canonical := by
  cases c <;> exact canonical_bumpKey hs

theorem canonical_countIdle (hs : s.canonical) {k} : (s.countIdle k).canonical :=
  canonical_bumpKey hs

theorem canonical_meet (hs : s.canonical) {k len} : (s.meet k len).2.canonical :=
  canonical_countMark (canonical_mark hs)

theorem canonical_remeter (hs : s.canonical) {n l} : (s.remeter n l).canonical := by
  induction l generalizing s with
  | nil => exact hs
  | cons h l ih =>
    refine ih ?_
    split
    · exact hs
    · dsimp only
      split
      · exact canonical_mark hs
      · exact canonical_countMark (canonical_mark hs)

theorem canonical_tcHeld (hs : s.canonical) {k n} : (s.tcHeld k n).canonical := by
  induction n generalizing s k with
  | zero => exact hs
  | succ n ih =>
    refine canonical_ite (canonical_tcGrow hs) (ih (canonical_remeter ?_))
    exact canonical_tcGrow hs

theorem canonical_tcTo (hs : s.canonical) {lc} : (s.tcTo lc).canonical :=
  canonical_tcHeld hs

theorem canonical_shapeSend (hs : s.canonical) {k cost} : (s.shapeSend k cost).canonical :=
  canonical_ite hs hs

theorem canonical_flushMsix (hs : s.canonical) {t} : (s.flushMsix t).canonical := by
  refine canonical_foldl (fun {s e} hs => ?_) hs
  split
  · exact hs
  · exact canonical_ite (canonical_sendMsix (by exact hs)) hs

theorem canonical_setBase (hs : s.canonical) {n b} : (s.setBase n b).canonical :=
  hs

theorem canonical_flow (hs : s.canonical) {n} : (s.flow n).canonical :=
  canonical_foldl (fun h => canonical_setBase h) hs

theorem canonical_applySteps (hs : s.canonical) : s.applySteps.canonical := by
  refine canonical_foldl (fun hs => canonical_ite ?_ ?_) hs
  all_goals exact hs

theorem canonical_applyRates (hs : s.canonical) : s.applyRates.canonical := by
  refine canonical_foldl (fun {s i} hs => ?_) hs
  dsimp only
  split
  · exact hs
  · exact canonical_ite hs (canonical_setBase hs)

theorem canonical_applySwitch (hs : s.canonical) : s.applySwitch.canonical := by
  refine canonical_ite ?_ (canonical_setFld (canonical_setFld (canonical_setFld ?_)))
  all_goals exact hs

theorem canonical_applyAlign (hs : s.canonical) : s.applyAlign.canonical :=
  canonical_ite hs hs

theorem canonical_syncWord (hs : s.canonical) : s.syncWord.canonical := by
  unfold State.syncWord
  extract_lets s₁ s₂
  have hs₁ : s₁.canonical := hs
  have hs₂ : s₂.canonical := canonical_applyAlign (canonical_applySwitch
    (canonical_applyRates (canonical_applySteps hs₁)))
  exact hs₂

theorem canonical_passWords (hs : s.canonical) {n} : (s.passWords n).canonical := by
  induction n generalizing s with
  | zero => exact hs
  | succ n ih => exact ih (canonical_syncWord (canonical_flow hs))

theorem canonical_advanceTo (hs : s.canonical) {t} : (s.advanceTo t).canonical := by
  unfold State.advanceTo
  extract_lets s₁ s₂
  have hs₁ : s₁.canonical := canonical_flushMsix (canonical_tcTo hs)
  have hs₂ : s₂.canonical := canonical_ite (canonical_syncWord (canonical_flow hs₁)) (canonical_passWords hs₁)
  exact canonical_ite hs₁ (canonical_ite (canonical_flow hs₁) (canonical_flow hs₂))

theorem canonical_tick (hs : s.canonical) : s.tick.canonical :=
  canonical_advanceTo hs

theorem canonical_intrudeBut (hs : s.canonical) {own off n} : (s.intrudeBut own off n).canonical :=
  canonical_foldl (fun h => canonical_ite (canonical_setSeq h) h) hs

theorem canonical_intrude (hs : s.canonical) {off n} : (s.intrude off n).canonical :=
  canonical_intrudeBut hs

theorem canonical_trcWrite (hs : s.canonical) {die b} : (s.trcWrite die b).canonical :=
  canonical_ite (canonical_setFld (canonical_setFld (canonical_store hs))) (canonical_setFld (canonical_store hs))

theorem canonical_trcFlush (hs : s.canonical) {die} : (s.trcFlush die).canonical :=
  canonical_foldl (fun h => canonical_trcWrite h) hs

theorem canonical_trcTake (hs : s.canonical) {die b} : (s.trcTake die b).canonical :=
  canonical_ite (canonical_trcFlush hs) hs

theorem canonical_trcLoss (hs : s.canonical) {die} : (s.trcLoss die).canonical := by
  refine canonical_ite ?_ (canonical_trcTake ?_)
  all_goals exact hs

theorem canonical_trace (hs : s.canonical) {die src type unit part payload} :
    (s.trace die src type unit part payload).canonical := by
  refine canonical_ite ?_ (canonical_ite (canonical_bumpFld ?_) (canonical_trcTake (canonical_trcLoss ?_)))
  all_goals exact hs

theorem canonical_traceLink (hs : s.canonical) {die lane new_} : (s.traceLink die lane new_).canonical :=
  canonical_trace hs

theorem canonical_linkEvent (hs : s.canonical) {die lane new_} : (s.linkEvent die lane new_).canonical :=
  canonical_traceLink (canonical_emit (by exact hs))

theorem canonical_haltUnit (hs : s.canonical) {u cause index} : (s.haltUnit u cause index).canonical := by
  refine canonical_ite ?_ (canonical_setSeq (canonical_pmuSync ?_))
  all_goals exact hs

theorem canonical_resumeUnit (hs : s.canonical) {u} : (s.resumeUnit u).canonical := by
  refine canonical_ite ?_ (canonical_setSeq (canonical_pmuSync ?_))
  all_goals exact hs

theorem canonical_globalStop (hs : s.canonical) {cause} : (s.globalStop cause).canonical := by
  unfold State.globalStop
  extract_lets s₁ s₂ s₃ s₄
  have hs₁ : s₁.canonical := canonical_foldl (fun h => by exact canonical_ite (canonical_pmuSync h) h) hs
  clear_value s₁
  have hs₃ : s₃.canonical := hs₁
  have hs₄ : s₄.canonical := canonical_foldl (fun h => by exact canonical_ite (canonical_haltUnit h) h) hs₃
  exact canonical_ite hs (canonical_foldl (fun h => canonical_ite (canonical_trace h) h) hs₄)

theorem canonical_countAccess (hs : s.canonical) {m off n wr} : (s.countAccess m off n wr).canonical := by
  unfold State.countAccess
  split
  · exact canonical_pmuAt hs
  · exact canonical_pmuAt hs
  · exact hs

theorem canonical_watchAct (hs : s.canonical) {m own die w off wr} : (s.watchAct m own die w off wr).canonical := by
  unfold State.watchAct
  extract_lets s₁ rec_
  have hs₁ : s₁.canonical := canonical_bumpFld hs
  split
  · exact canonical_ite (canonical_ite hs₁ (canonical_setSeq hs₁)) (canonical_trace hs₁)
  · exact canonical_globalStop hs₁
  · exact canonical_trace hs₁

theorem canonical_accessBy (hs : s.canonical) {m own off n wr} : (s.accessBy m own off n wr).canonical := by
  unfold State.accessBy
  extract_lets s₁
  have hs₁ : s₁.canonical := canonical_countAccess hs
  split
  · exact hs₁
  · exact canonical_foldl (fun h => canonical_ite (canonical_watchAct h) h) hs₁

theorem canonical_access (hs : s.canonical) {m off n wr} : (s.access m off n wr).canonical :=
  canonical_accessBy hs

theorem canonical_accessAll (hs : s.canonical) {m l wr} : (s.accessAll m l wr).canonical :=
  canonical_foldl (fun h => canonical_access h) hs

theorem canonical_watchHalt (hs : s.canonical) {u t} : (s.watchHalt u t).canonical := by
  unfold State.watchHalt
  dsimp only
  split
  · exact hs
  · exact canonical_ite (canonical_setSeq hs) (canonical_ite hs (canonical_haltUnit hs))

end Sys2Proof.Machine
end

section
/-! SUPPORT. The form of the memories under the sequencer: timing windows, contexts, operands, streams, MAC and vector
operations, transfers and the issue of a bundle. -/

namespace Sys2Proof.Machine

variable {s : State}

theorem canonical_twBins (hs : s.canonical) {part w vs} : (s.twBins part w vs).canonical :=
  canonical_foldl (fun h => canonical_ite h (canonical_bumpFld h)) hs

theorem canonical_twHit (hs : s.canonical) {x cmd t cl} : (s.twHit x cmd t cl).canonical := by
  unfold State.twHit
  extract_lets
  rename_i s₁ s₂ s₃ s₄
  have hs₁ : s₁.canonical := by
    exact canonical_twBins (by exact hs)
  clear_value s₁
  have hs₃ : s₃.canonical := hs₁
  have hs₄ : s₄.canonical := canonical_ite (canonical_ite (canonical_setReg hs₃) hs₃) hs₁
  exact canonical_ite hs (canonical_ite (canonical_setFld hs₄) hs₄)

theorem canonical_sendToken (hs : s.canonical) {t fromUnit part radio} :
    (s.sendToken t fromUnit part radio).canonical :=
  hs

theorem canonical_tokenEvent (hs : s.canonical) {part t sender cause} :
    (s.tokenEvent part t sender cause).canonical :=
  canonical_emit (by exact hs)

theorem canonical_arriveToken (hs : s.canonical) {u n t sender} : (s.arriveToken u n t sender).canonical :=
  canonical_ite (canonical_tokenEvent (canonical_setSeq hs)) (canonical_setSeq hs)

theorem canonical_stopStep (hs : s.canonical) {u} : (s.stopStep u).canonical := by
  unfold State.stopStep
  split
  · exact canonical_setSeq hs
  · exact canonical_foldl (fun h => canonical_setSeq h) hs

theorem canonical_raise (hs : s.canonical) {u k code slot addr precise} :
    (s.raise u k code slot addr precise).canonical := by
  unfold State.raise
  extract_lets
  rename_i s₁ s₂
  have hs₂ : s₂.canonical := canonical_stopStep (by exact hs)
  exact canonical_ite hs (canonical_emit hs₂)

theorem canonical_onCtx (hs : s.canonical) {u k f} : (s.onCtx u k f).canonical :=
  canonical_setSeq hs

theorem canonical_stepStore (hs : s.canonical) {u off bs} : (s.stepStore u off bs).canonical := by
  unfold State.stepStore
  dsimp only
  split
  · exact canonical_store hs
  · exact canonical_raise (canonical_memError hs)

theorem canonical_endDma (hs : s.canonical) {u d} : (s.endDma u d).canonical := by
  unfold State.endDma
  extract_lets q s₁ s₂ m s₃ s₄
  have hs₁ : s₁.canonical := canonical_setSeq hs
  split
  · exact canonical_raise (canonical_memError hs₁)
  ·
    have hs₂ : s₂.canonical := canonical_foldl (fun h => canonical_stepStore h) hs₁
    have hs₄ : s₄.canonical := canonical_watchHalt (canonical_accessAll (canonical_accessAll hs₂))
    split
    · exact hs₄
    · exact canonical_sendToken hs₄

theorem canonical_land (hs : s.canonical) {u p} : (s.land u p).canonical := by
  unfold State.land
  extract_lets q
  split
  case h_9 | h_10 | h_18 => exact canonical_setSeq hs
  case h_11 => exact canonical_stepStore hs
  case h_12 => exact canonical_foldl (fun h => canonical_stepStore h) hs
  case h_13 =>
    have hs₁ {q x} : ((s.setSeq u q).onCtx u p.ctx x).canonical := canonical_onCtx (canonical_setSeq hs)
    exact canonical_ite (canonical_arriveToken hs₁) hs₁
  case h_14 => exact canonical_sendToken hs
  case h_15 =>
    split
    · exact hs
    · exact canonical_ite (canonical_setSeq hs) (canonical_endDma hs)
  case h_16 => exact canonical_raise (canonical_memError hs)
  case h_17 => exact canonical_twHit hs
  all_goals exact canonical_onCtx hs

theorem canonical_settle (hs : s.canonical) {u t} : (s.settle u t).canonical :=
  canonical_foldl (fun h => canonical_land h) (canonical_setSeq hs)

theorem canonical_setLink (hs : s.canonical) {die j l} : (s.setLink die j l).canonical :=
  hs

theorem canonical_linkPush (hs : s.canonical) {die u} : (s.linkPush die u).canonical :=
  canonical_ite hs (canonical_setLink hs)

theorem canonical_colourUnit (hs : s.canonical) {meter u} : (s.colourUnit meter u).2.canonical := by
  have hm : (s.meet meter u.cost).2.canonical := canonical_meet hs
  unfold State.colourUnit
  split
  · exact hs
  · dsimp only
    split
    · split <;> exact hs
    · split <;> exact hm

theorem canonical_passUnit (hs : s.canonical) {die meter shaper u} :
    (s.passUnit die meter shaper u).2.2.canonical := by
  have hp : (s.shapeSend shaper u.cost).canonical := canonical_shapeSend hs
  unfold State.passUnit
  split
  · exact hs
  · dsimp only
    split
    · exact hs
    · split
      · split
        · exact canonical_ite hs (canonical_countIdle hs)
        · exact hp
      · exact canonical_linkPush hp

theorem canonical_pumpQueue (hs : s.canonical) {key l} : (s.pumpQueue key l).canonical := by
  induction l generalizing s with
  | nil => exact hs
  | cons u l ih =>
    have hp {die meter shaper} : ((s.colourUnit meter u).2.passUnit die meter shaper
        (s.colourUnit meter u).1).2.2.canonical := canonical_passUnit (canonical_colourUnit hs)
    exact canonical_ite (ih hp) (by exact hp)

theorem canonical_pumpEgress (hs : s.canonical) : s.pumpEgress.canonical :=
  canonical_foldl (fun h => canonical_pumpQueue h) hs

theorem canonical_onOp (hs : s.canonical) {id f} : (s.onOp id f).canonical :=
  hs

theorem canonical_sendReq (hs : s.canonical) {o j sent retry} : (s.sendReq o j sent retry).canonical :=
  canonical_ite hs (canonical_ite (canonical_linkPush hs) (canonical_pumpQueue hs))

theorem canonical_resend (hs : s.canonical) {o j loss} : (s.resend o j loss).canonical :=
  canonical_sendReq (canonical_ite (canonical_bumpFld (canonical_onOp hs)) (canonical_onOp hs))

theorem canonical_fabIssue (hs : s.canonical) {o t} : (s.fabIssue o t).canonical := by
  unfold State.fabIssue
  extract_lets cn d key seq s₁
  rename_i s₂
  have hs₁ : s₁.canonical := by
    unfold s₁
    clear_value cn
    split <;> exact hs
  clear_value s₁
  have hs₂ : s₂.canonical := hs₁
  exact canonical_ite hs₂ (canonical_foldl (fun h => canonical_sendReq h) hs₂)

theorem canonical_setEngq (hs : s.canonical) {iris q e} : (s.setEngq iris q e).canonical :=
  hs

theorem canonical_xferGlobal (hs : s.canonical) {u q c k t op} : (s.xferGlobal u q c k t op).canonical := by
  unfold State.xferGlobal
  split
  · split
    · exact hs
    · exact canonical_setEngq hs
  · split
    · exact hs
    · exact canonical_onCtx (canonical_ite (canonical_access (canonical_fabIssue hs)) (canonical_fabIssue hs))

theorem canonical_observe (hs : s.canonical) {u old} : (s.observe u old).canonical := by
  unfold State.observe
  extract_lets q d l s₁
  have hs₁ : s₁.canonical := canonical_ite hs (canonical_pmu (canonical_pmu (canonical_pmu (canonical_pmu hs))))
  exact canonical_ite hs₁ (canonical_trace hs₁)

theorem canonical_setBp (hs : s.canonical) {u i w} : (s.setBp u i w).canonical :=
  canonical_ite (canonical_setReg hs) (canonical_setReg hs)

theorem canonical_seen (hs : s.canonical) {u q c b effs taken} : (s.seen u q c b effs taken).canonical := by
  unfold State.seen
  extract_lets m d l s₁ reads s₂
  have hs₁ : s₁.canonical := canonical_pmu hs
  clear_value s₁
  have hs₂ : s₂.canonical := by
    unfold s₂
    split
    · exact hs₁
    · extract_lets s₃ s₄
      have hs₃ : s₃.canonical := canonical_ite hs₁ (canonical_pmu hs₁)
      have hs₄ : s₄.canonical := canonical_ite (canonical_pmu hs₃) hs₃
      exact canonical_accessAll hs₄
  exact canonical_ite hs₁ (canonical_accessAll (canonical_accessAll hs₂))

theorem canonical_runBundle (hs : s.canonical) {u k t b} : (s.runBundle u k t b).canonical := by
  refine canonical_setSeq (canonical_ite (canonical_xferGlobal (canonical_seen (canonical_setSeq ?_)))
    (canonical_seen (canonical_setSeq ?_)))
  all_goals exact hs

theorem canonical_issueAt (hs : s.canonical) {u k t b} : (s.issueAt u k t b).canonical := by
  unfold State.issueAt
  dsimp only
  split
  · exact canonical_raise hs
  · split
    · exact canonical_raise hs
    · exact canonical_runBundle (canonical_setSeq hs)

theorem canonical_watchEnd (hs : s.canonical) {u due t} : (s.watchEnd u due t).canonical := by
  cases due with
  | none => exact canonical_watchHalt hs
  | some w => exact canonical_ite (canonical_setSeq hs) (canonical_haltUnit hs)

theorem canonical_issue (hs : s.canonical) {u b} : (s.issue u b).canonical := by
  have hr {t} : (s.settle u t).canonical := canonical_settle hs
  unfold State.issue
  split
  · exact hs
  · exact canonical_ite hs (canonical_ite hr (canonical_ite (canonical_watchEnd
      (canonical_observe (canonical_settle (canonical_issueAt hr)))) hr))

theorem canonical_settleTo (hs : s.canonical) {u t} : (s.settleTo u t).canonical :=
  canonical_ite (canonical_settle hs) hs

theorem canonical_landFirst (hs : s.canonical) {u p} : (s.landFirst u p).canonical := by
  unfold State.landFirst
  split
  · exact hs
  · exact canonical_settleTo hs

theorem canonical_replyTo (hs : s.canonical) {u k t r} : (s.replyTo u k t r).canonical := by
  unfold State.replyTo
  extract_lets s₁ q code s₂ s₃ s₄ c
  have hs₁ : s₁.canonical := hs
  have hs₃ : s₃.canonical := canonical_onCtx (canonical_settle hs₁)
  clear_value s₁ s₃
  have hs₄ : s₄.canonical := by
    unfold s₄
    split
    · exact hs₃
    · exact canonical_sendToken hs₃
  exact canonical_ite hs₁ (canonical_ite (canonical_setSeq (canonical_onCtx hs₄)) hs₄)

theorem canonical_protectReg (hs : s.canonical) {m r die ix} : (s.protectReg m r die ix).canonical :=
  canonical_protection hs

theorem canonical_answer (hs : s.canonical) {st data} : (s.answer st data).canonical :=
  hs

theorem canonical_plainWrite (hs : s.canonical) {m r die ix v part} : (s.plainWrite m r die ix v part).canonical :=
  canonical_ite (canonical_protectReg (canonical_setReg hs)) (canonical_setReg hs)

/-- A guarded write keeps the form where its effect does. -/
theorem canonical_guardWrite (hs : s.canonical) {m r die ix} {k : State → State} (hk : (k s).canonical) :
    (s.guardWrite m r die ix k).canonical :=
  canonical_ite (canonical_answer hs) (canonical_ite (canonical_answer (canonical_protectReg hs))
    (canonical_answer hk))

theorem canonical_refuseReg (hs : s.canonical) {m r die ix v} : (s.refuseReg m r die ix v).canonical :=
  canonical_refusedIn hs

end Sys2Proof.Machine
end

section
/-! SUPPORT. The form of the memories under the memory units and the rings: power of bank groups, wiping, the tier's
engines, fetching and completing commands. -/

namespace Sys2Proof.Machine

variable {s : State}

theorem canonical_zeroGroup (hs : s.canonical) {d g} : (s.zeroGroup d g).canonical :=
  canonical_of_imp hs (by dsimp only [State.zeroGroup]; exact Memory.wf_keep _ _) id

theorem canonical_setBankSt (hs : s.canonical) {d g v} : (s.setBankSt d g v).canonical :=
  canonical_setFld hs

theorem canonical_startPower (hs : s.canonical) {d mask target} : (s.startPower d mask target).canonical := by
  refine canonical_foldl (fun h => canonical_ite h (canonical_ite (canonical_zeroGroup ?_) ?_)) hs <;> exact h

theorem canonical_writeSpPwr (hs : s.canonical) {m d v} : (s.writeSpPwr m d v).canonical :=
  canonical_ite hs (canonical_ite (canonical_refuseReg hs) (canonical_startPower hs))

theorem canonical_endPower (hs : s.canonical) {d g} : (s.endPower d g).canonical := by
  unfold State.endPower
  split <;> exact hs

theorem canonical_setOwner (hs : s.canonical) {d kind unit v} : (s.setOwner d kind unit v).canonical :=
  canonical_ite (canonical_setFld hs) (canonical_ite (canonical_setFld hs) (canonical_setFld hs))

theorem canonical_countDeferred (hs : s.canonical) : s.countDeferred.canonical :=
  canonical_setFld hs

theorem canonical_finishOwner (hs : s.canonical) {i r} : (s.finishOwner i r).canonical :=
  canonical_countDeferred (canonical_setOwner (by exact hs))

theorem canonical_of_readyGroup (hs : s.canonical) {d g} {t : State} (ht : s.readyGroup d g = some t) :
    t.canonical := by
  unfold State.readyGroup at ht
  dsimp only at ht
  split at ht
  · exact Option.some.inj ht ▸ canonical_zeroGroup hs
  · split at ht
    · exact Option.some.inj ht ▸ hs
    · split at ht
      · exact Option.some.inj ht ▸ canonical_setBankSt (canonical_zeroGroup hs)
      · cases ht

theorem canonical_applyOwner (hs : s.canonical) {i} : (s.applyOwner i).canonical := by
  unfold State.applyOwner
  split
  · exact hs
  · refine canonical_ite hs (canonical_ite ?_ (canonical_ite (canonical_finishOwner (canonical_zeroRange hs)) hs))
    split
    · exact hs
    next ht => exact canonical_finishOwner (canonical_of_readyGroup hs ht)

theorem canonical_holdDmas (hs : s.canonical) {d} : (s.holdDmas d).canonical :=
  canonical_foldl (fun h => canonical_setSeq h) hs

theorem canonical_startWipe (hs : s.canonical) {d cause slices} : (s.startWipe d cause slices).canonical :=
  canonical_foldl (fun h => canonical_zeroRange h) (canonical_holdDmas
    (canonical_setFld (canonical_setFld (canonical_setFld (canonical_setFld hs)))))

theorem canonical_freeDmas (hs : s.canonical) {d} : (s.freeDmas d).canonical :=
  canonical_foldl (fun h => canonical_foldl (fun h => canonical_endDma h) (canonical_setSeq h)) hs

theorem canonical_wipedOwners (hs : s.canonical) {d l} : (s.wipedOwners d l).canonical := by
  induction l generalizing s with
  | nil => exact hs
  | cons j l ih =>
    refine ih ?_
    split
    · exact hs
    · exact canonical_finishOwner hs

theorem canonical_endWipe (hs : s.canonical) {d} : (s.endWipe d).canonical :=
  canonical_wipedOwners (canonical_freeDmas (canonical_setFld hs))

theorem canonical_tierUp (hs : s.canonical) : s.tierUp.canonical :=
  canonical_setFld hs

theorem canonical_writeTlpCfg (hs : s.canonical) {m v part} : (s.writeTlpCfg m v part).canonical :=
  canonical_ite (canonical_plainWrite hs) (canonical_tierUp (canonical_plainWrite hs))

theorem canonical_writeTierTail (hs : s.canonical) {m e v part} : (s.writeTierTail m e v part).canonical :=
  canonical_ite (canonical_refuseReg hs) (canonical_setFld hs)

theorem canonical_writeTierBase (hs : s.canonical) {e v part} : (s.writeTierBase e v part).canonical := by
  unfold State.writeTierBase
  dsimp only
  split <;> exact hs

theorem canonical_stopTier (hs : s.canonical) {e} : (s.stopTier e).canonical :=
  canonical_stateEvent (canonical_setFld hs)

theorem canonical_startTier (hs : s.canonical) {e} : (s.startTier e).canonical := by
  unfold State.startTier
  extract_lets head a home
  refine canonical_ite hs (canonical_ite (canonical_stopTier hs) ?_)
  split
  · exact canonical_stopTier (canonical_memError hs)
  · exact hs

theorem canonical_copyRange (hs : s.canonical) {src dst n} : (s.copyRange src dst n).canonical := by
  have hz : (s.zeroRange dst n).canonical := canonical_zeroRange hs
  exact canonical_of_imp hz (Memory.wf_writes _ _) id

theorem canonical_moveTier (hs : s.canonical) {e j} : (s.moveTier e j).1.canonical := by
  unfold State.moveTier
  split
  · exact hs
  · split
    · exact hs
    · split
      · exact canonical_access (canonical_access (canonical_copyRange hs))
      · exact canonical_memError (canonical_copyRange hs)

theorem canonical_endTier (hs : s.canonical) {e} : (s.endTier e).canonical := by
  unfold State.endTier
  split
  · exact hs
  next j _ =>
    have hm : (s.moveTier e j).1.canonical := canonical_moveTier hs
    extract_lets r s₁ s₂ s₃ head s₄ s₅
    have hs₂ : s₂.canonical := canonical_pmuAt (canonical_store hm)
    clear_value s₂
    have hs₃ : s₃.canonical := hs₂
    have hs₄ : s₄.canonical := canonical_ite hs₃ (canonical_setFld hs₃)
    have hs₅ : s₅.canonical := canonical_ite (canonical_stateEvent hs₄) hs₄
    split
    · exact hs₅
    · exact canonical_sendToken hs₅

theorem canonical_setRing (hs : s.canonical) {r g} : (s.setRing r g).canonical :=
  hs

theorem canonical_ringMsix (hs : s.canonical) {r} : (s.ringMsix r).canonical := by
  unfold State.ringMsix
  extract_lets g soon
  clear_value soon
  split
  · exact canonical_setRing hs
  · exact canonical_sendMsix (canonical_setRing hs)

theorem canonical_pushCompletion (hs : s.canonical) {r c status value} :
    (s.pushCompletion r c status value).canonical :=
  canonical_setRing (canonical_hostStore hs)

theorem canonical_finishCmd (hs : s.canonical) {c code detail ndet hint value} :
    (s.finishCmd c code detail ndet hint value).canonical := by
  unfold State.finishCmd
  extract_lets s₁ ready s₂ s₃
  have hs₁ : s₁.canonical := hs
  have hs₂ : s₂.canonical := canonical_ite hs₁ (canonical_hostStore hs₁)
  have hs₃ : s₃.canonical := canonical_pushCompletion (canonical_pmu hs₂)
  exact canonical_ite (canonical_ringMsix hs₃) hs₃

theorem canonical_completeId (hs : s.canonical) {id code detail ndet hint value} :
    (s.completeId id code detail ndet hint value).canonical := by
  unfold State.completeId
  split
  · exact hs
  · exact canonical_finishCmd hs

theorem canonical_startCmd (hs : s.canonical) {c} : (s.startCmd c).canonical :=
  hs

theorem canonical_numberStep (hs : s.canonical) {c} : (s.numberStep c).canonical := by
  refine canonical_ite (canonical_setFld ?_) ?_
  all_goals exact hs

theorem canonical_takeCmd (hs : s.canonical) {r b yellow lc} : (s.takeCmd r b yellow lc).1.canonical := by
  have hp : (s.pmu 31 0xA1 0 1).canonical := canonical_pmu hs
  exact hp

theorem canonical_setHeld (hs : s.canonical) {r v} : (s.setHeld r v).canonical :=
  canonical_setFld hs

theorem canonical_passCmd (hs : s.canonical) {r b yellow lc} : (s.passCmd r b yellow lc).canonical :=
  canonical_numberStep (canonical_takeCmd hs)

theorem canonical_fetchHead (hs : s.canonical) {r} : (s.fetchHead r).canonical := by
  have hm : (s.meet (s.ringMeter r) (s.cmdCost (s.headBytes r))).2.canonical := canonical_meet hs
  unfold State.fetchHead
  extract_lets b v held drop
  have hd : drop.canonical := hs
  clear_value drop held
  refine canonical_ite (canonical_finishCmd (canonical_takeCmd hd)) (canonical_ite (canonical_passCmd hd) ?_)
  cases held with
  | some h =>
    dsimp only
    split
    · exact canonical_passCmd hd
    · exact hs
  | none =>
    dsimp only
    split
    · exact hm
    · exact canonical_passCmd hm

theorem canonical_fetchPass (hs : s.canonical) {l} : (s.fetchPass l).canonical := by
  induction l generalizing s with
  | nil => exact hs
  | cons r l ih => exact canonical_ite hs (ih (canonical_ite (canonical_fetchHead hs) hs))

theorem canonical_ringFetch (hs : s.canonical) : s.ringFetch.canonical :=
  canonical_fetchPass hs

end Sys2Proof.Machine
end

section
/-! SUPPORT. The form of the memories under Foxglove (gates, placement, commit, abort) and under the host's registers. -/

namespace Sys2Proof.Machine

variable {s : State}

theorem canonical_setStep (hs : s.canonical) {r} : (s.setStep r).canonical :=
  hs

theorem canonical_setOcc (hs : s.canonical) {p occ part} : (s.setOcc p occ part).canonical :=
  canonical_setFld (canonical_setFld hs)

theorem canonical_withdraw (hs : s.canonical) {p} : (s.withdraw p).canonical :=
  canonical_setFld (canonical_setFld hs)

theorem canonical_sumStreams (hs : s.canonical) {d} : (s.sumStreams d).canonical :=
  canonical_setFld hs

theorem canonical_setStreamRate (hs : s.canonical) {p v} : (s.setStreamRate p v).canonical :=
  canonical_sumStreams (canonical_setFld hs)

theorem canonical_pushSuspect (hs : s.canonical) {p r rank} : (s.pushSuspect p r rank).canonical :=
  canonical_setReg (canonical_setReg (canonical_setReg (canonical_foldl (fun h => canonical_setReg h) (by exact hs))))

theorem canonical_sampleShadow (hs : s.canonical) {p r} : (s.sampleShadow p r).canonical := by
  refine canonical_ite ?_ (canonical_ite ?_ (canonical_ite (canonical_bumpFld (canonical_setSeq ?_))
    (canonical_bumpFld ?_)))
  all_goals exact hs

theorem canonical_placeOn (hs : s.canonical) {r p rank exact deadline} :
    (s.placeOn r p rank exact deadline).canonical :=
  canonical_sampleShadow (canonical_pushSuspect (canonical_pmu
    (canonical_setOcc (canonical_setStreamRate (canonical_setSeq (by exact hs))))))

theorem canonical_placeAll (hs : s.canonical) {r exact_ deadline l rank} :
    (s.placeAll r exact_ deadline l rank).canonical := by
  induction l generalizing s rank with
  | nil => exact hs
  | cons p l ih => exact ih (canonical_placeOn hs)

theorem canonical_place (hs : s.canonical) {r cs exact_} : (s.place r cs exact_).canonical :=
  canonical_placeAll (canonical_setStep hs)

theorem canonical_bumpBypass (hs : s.canonical) {el r} : (s.bumpBypass el r).canonical :=
  hs

theorem canonical_admission (hs : s.canonical) {n} : (s.admission n).canonical := by
  induction n generalizing s with
  | zero => exact hs
  | succ n ih =>
    unfold State.admission
    dsimp only
    split
    · exact hs
    · exact ih (canonical_place (canonical_ite (canonical_bumpBypass hs)
        (canonical_shapeSend (canonical_bumpBypass hs))))

theorem canonical_addNdet (hs : s.canonical) {p n} : (s.addNdet p n).canonical :=
  canonical_ite (canonical_bumpFld hs) (canonical_bumpFld (canonical_bumpFld hs))

theorem canonical_release (hs : s.canonical) {p} : (s.release p).canonical := by
  unfold State.release
  extract_lets u c s₁ s₂ s₃
  have hs₁ : s₁.canonical := canonical_ite (canonical_resumeUnit hs) hs
  clear_value s₁
  have hs₂ : s₂.canonical := canonical_setOcc (canonical_setStreamRate (canonical_setSeq hs₁))
  clear_value s₂
  exact canonical_ite hs₂ hs₂

theorem canonical_endStep (hs : s.canonical) {r code detail ndet} : (s.endStep r code detail ndet).canonical := by
  unfold State.endStep
  extract_lets s₁
  have hs₁ : s₁.canonical := by
    unfold s₁
    split
    · exact hs
    · exact canonical_completeId hs
  clear_value s₁
  exact canonical_ite (canonical_setStep hs₁) (by exact hs₁)

theorem canonical_publish (hs : s.canonical) {r} : (s.publish r).2.canonical := by
  have hf {a} {es : List (Nat × Nat)} : State.canonical (es.foldl (fun s e =>
      (s.store e.1 (leBytes 8 e.2)).access .foxglove e.1 8 true) (s.access .foxglove a 512 false)) :=
    canonical_foldl (fun h => canonical_access (canonical_store h)) (canonical_access hs)
  unfold State.publish
  cases r.clusters.head? with
  | none => exact hs
  | some c =>
    refine canonical_snd_ite hs ?_
    cases s.badIn (xchBase (c / 8) + r.publish) 512 with
    | some w => exact canonical_memError hs
    | none =>
      refine canonical_snd_ite hs (canonical_snd_ite hs ?_)
      dsimp only
      exact hf

theorem canonical_traceEnd (hs : s.canonical) {r p code cycles} : (s.traceEnd r p code cycles).canonical :=
  canonical_trace hs

theorem canonical_account (hs : s.canonical) {r p} : (s.account r p).canonical := by
  have add {t : State} (ht : t.canonical) {x n} : (t.bumpFld x 31 [r.part] 63 0 n).canonical := canonical_bumpFld ht
  exact add (add (add (add (add (add (add hs))))))

theorem canonical_commitStep (hs : s.canonical) {r} : (s.commitStep r).canonical := by
  unfold State.commitStep
  extract_lets nd s₁ s₂ pub s₃
  have hs₁ : s₁.canonical := canonical_foldl (fun h => canonical_account h) hs
  have hs₂ : s₂.canonical := canonical_addNdet (canonical_bumpFld hs₁)
  have hp : pub.2.canonical := canonical_publish hs₂
  have hs₃ : s₃.canonical := canonical_foldl (fun h => by exact canonical_release (canonical_traceEnd h)) hp
  exact canonical_endStep hs₃

theorem canonical_abortEvent (hs : s.canonical) {r count} : (s.abortEvent r count).canonical :=
  canonical_emit (by exact hs)

theorem canonical_requeue (hs : s.canonical) {r} : (s.requeue r).canonical := by
  unfold State.requeue
  extract_lets s₁ n lim demote s₂
  have hs₂ : s₂.canonical := canonical_abortEvent (canonical_addNdet (canonical_bumpFld hs))
  exact canonical_ite (canonical_setStep hs₂) (canonical_endStep hs₂)

theorem canonical_cutAt (hs : s.canonical) {u n} : (s.cutAt u n).canonical :=
  canonical_ite hs (canonical_settle hs)

theorem canonical_deadTokens (hs : s.canonical) {p} : (s.deadTokens p).canonical :=
  hs

theorem canonical_abortOn (hs : s.canonical) {r p c} : (s.abortOn r p c).canonical := by
  unfold State.abortOn
  extract_lets u q n s₁ s₂ r₁ s₃ s₄ s₅
  have hs₂ : s₂.canonical := canonical_bumpFld (canonical_bumpFld hs)
  have hs₃ : s₃.canonical := canonical_pmu (canonical_traceEnd hs₂)
  have hs₄ : s₄.canonical := canonical_release (canonical_setSeq (canonical_setStep hs₃))
  have hs₅ : s₅.canonical := canonical_deadTokens hs₄
  exact canonical_ite (canonical_requeue hs₅) hs₅

theorem canonical_abortNow (hs : s.canonical) {r counts} : (s.abortNow r counts).canonical := by
  refine canonical_foldl (fun {s p} hs => ?_) hs
  split
  · exact hs
  · exact canonical_abortOn hs

theorem canonical_drainUnit (hs : s.canonical) {p} : (s.drainUnit p).canonical := by
  unfold State.drainUnit
  dsimp only
  split
  · exact hs
  · exact canonical_settle hs

theorem canonical_endDrained (hs : s.canonical) {r} : (s.endDrained r).canonical := by
  unfold State.endDrained
  extract_lets s₁ s₂
  have hs₁ : s₁.canonical := canonical_foldl (fun h => canonical_drainUnit h) hs
  have hs₂ : s₂.canonical := canonical_foldl (fun h => canonical_release (canonical_traceEnd h)) hs₁
  exact canonical_ite hs₁ (canonical_endStep hs₂)

theorem canonical_setChange (hs : s.canonical) {st result} : (s.setChange st result).canonical :=
  canonical_setFld (canonical_setFld hs)

theorem canonical_refuseFxg (hs : s.canonical) {v} : (s.refuseFxg v).canonical :=
  canonical_refusedIn hs

theorem canonical_fxgApply (hs : s.canonical) {v} : (s.fxgApply v).canonical :=
  canonical_ite (canonical_refuseFxg (canonical_setFld hs)) (by exact hs)

theorem canonical_moveReg (hs : s.canonical) {r die ix v} : (s.moveReg r die ix v).canonical :=
  canonical_ite hs (canonical_setReg hs)

theorem canonical_setAdmin (hs : s.canonical) {c f} : (s.setAdmin c f).canonical :=
  canonical_foldl (fun h => canonical_moveReg h) hs

theorem canonical_fxgCancel (hs : s.canonical) {v} : (s.fxgCancel v).canonical := by
  unfold State.fxgCancel
  extract_lets s₁
  have hs₁ : s₁.canonical := canonical_foldl (fun h => by exact canonical_setAdmin h) hs
  clear_value s₁
  exact canonical_ite (canonical_refuseFxg hs) (by exact hs₁)

theorem canonical_writeFxgCmd (hs : s.canonical) {v} : (s.writeFxgCmd v).canonical :=
  canonical_ite hs (canonical_ite (canonical_fxgApply hs) (canonical_ite (canonical_fxgCancel hs)
    (canonical_refuseFxg hs)))

theorem canonical_fxgValidated (hs : s.canonical) : s.fxgValidated.canonical := by
  have hr {t : State} {v} (ht : t.canonical) : (t.refuseFxg v).canonical := canonical_refuseFxg ht
  unfold State.fxgValidated
  extract_lets
  rename_i s₁ _
  have hs₁ : s₁.canonical := canonical_foldl (fun h => by exact canonical_setAdmin h) hs
  clear_value s₁
  refine canonical_ite ?_ (canonical_ite ?_ ?_)
  · exact hr (canonical_setChange hs)
  · exact hr (canonical_setChange (canonical_draw hs))
  · exact hs₁

theorem canonical_overrun (hs : s.canonical) {c} : (s.overrun c).canonical := by
  unfold State.overrun
  split
  · exact hs
  · split
    · exact hs
    · exact canonical_ite hs (canonical_emit (canonical_setStep hs))

theorem canonical_enterEntry (hs : s.canonical) {c i} : (s.enterEntry c i).canonical :=
  canonical_setFld (canonical_setFld (canonical_overrun hs))

theorem canonical_restartLists (hs : s.canonical) : s.restartLists.canonical :=
  canonical_foldl (fun h => canonical_enterEntry h) hs

theorem canonical_swapLists (hs : s.canonical) : s.swapLists.canonical :=
  canonical_foldl (fun h => canonical_foldl (fun h => canonical_moveReg h) h) hs

theorem canonical_swapSettings (hs : s.canonical) : s.swapSettings.canonical := by
  unfold State.swapSettings
  extract_lets h s₁ s₂
  have hs₁ : s₁.canonical := hs
  have hs₂ : s₂.canonical := canonical_ite (canonical_foldl (fun h => canonical_setReg h) hs₁) hs₁
  exact canonical_ite (canonical_setReg hs₂) hs₂

theorem canonical_queueOwners (hs : s.canonical) : s.queueOwners.canonical :=
  canonical_countDeferred hs

theorem canonical_swapEpoch (hs : s.canonical) : s.swapEpoch.canonical :=
  canonical_setFld (canonical_setFld (canonical_setFld (canonical_setFld hs)))

theorem canonical_traceGate (hs : s.canonical) : s.traceGate.canonical :=
  canonical_trace hs

theorem canonical_swap (hs : s.canonical) : s.swap.canonical := by
  unfold State.swap
  extract_lets s₁ fresh cyc s₂ s₃ s₄ s₅ s₆ s₇ s₈ s₉
  have hs₂ : s₂.canonical := canonical_swapSettings (canonical_swapLists (canonical_advanceTo hs))
  clear_value s₂
  have hs₃ : s₃.canonical := canonical_traceGate (canonical_ite hs₂ (canonical_setReg hs₂))
  clear_value s₃
  have hs₆ : s₆.canonical := hs₃
  have hs₈ : s₈.canonical := canonical_restartLists (canonical_setFld
    (canonical_queueOwners (canonical_swapEpoch hs₆)))
  clear_value s₈
  have hs₉ : s₉.canonical := hs₈
  exact canonical_ite (canonical_stateEvent hs₉) hs₉

theorem canonical_boundary (hs : s.canonical) : s.boundary.canonical := by
  unfold State.boundary
  extract_lets t s₁ s₂ s₃ s₄
  have hs₃ : s₃.canonical := canonical_traceGate (canonical_setReg (canonical_setReg (canonical_advanceTo hs)))
  have hs₄ : s₄.canonical := canonical_ite (canonical_setFld hs₃) hs₃
  exact canonical_restartLists hs₄

theorem canonical_endDrain (hs : s.canonical) : s.endDrain.canonical :=
  canonical_setFld (canonical_setFld (canonical_setFld hs))

theorem canonical_submitStep (hs : s.canonical) {c} : (s.submitStep c).canonical := by
  have hc : (s.startCmd c).canonical := canonical_startCmd hs
  exact hc

theorem canonical_endCmdStep (hs : s.canonical) {c code} : (s.endCmdStep c code).canonical :=
  canonical_endStep (canonical_submitStep hs)

theorem canonical_staleSteps (hs : s.canonical) : s.staleSteps.canonical :=
  canonical_foldl (fun h => canonical_endCmdStep h) (canonical_foldl (fun h => canonical_endStep h) hs)

theorem canonical_protectBar (hs : s.canonical) {fn off} : (s.protectBar fn off).canonical :=
  canonical_protection hs

theorem canonical_refuseBar (hs : s.canonical) {fn off v} : (s.refuseBar fn off v).canonical :=
  canonical_refusedIn hs

theorem canonical_writeDoorbell (hs : s.canonical) {fn r v} : (s.writeDoorbell fn r v).canonical :=
  canonical_ite (canonical_refuseBar hs) (canonical_setRing hs)

theorem canonical_writeRingReg (hs : s.canonical) {fn r d v part} : (s.writeRingReg fn r d v part).canonical :=
  canonical_ite (canonical_refuseBar hs) (canonical_setReg hs)

theorem canonical_writeRingCfg (hs : s.canonical) {m r v part} : (s.writeRingCfg m r v part).canonical := by
  unfold State.writeRingCfg
  extract_lets
  rename_i s₁ _ s₂
  have hs₁ : s₁.canonical := hs
  have hs₂ : s₂.canonical := canonical_ite (canonical_setRing hs₁) hs₁
  clear_value s₂
  exact canonical_ite (canonical_refuseReg hs) (canonical_ite (canonical_setHeld (by exact hs₂)) hs₂)

theorem canonical_writeMeter (hs : s.canonical) {m w0 w1 die ix second v part} :
    (s.writeMeter m w0 w1 die ix second v part).canonical :=
  canonical_tcDirty (canonical_ite (canonical_refuseReg (canonical_setFld (canonical_setReg hs)))
    (canonical_setReg hs))

theorem canonical_writeTcWord (hs : s.canonical) {kind d die ix v part} :
    (s.writeTcWord kind d die ix v part).canonical :=
  canonical_tcDirty (canonical_setReg hs)

theorem canonical_stampSlot (hs : s.canonical) {r slot lat tdone} : (s.stampSlot r slot lat tdone).canonical :=
  canonical_setRing (canonical_hostStore (canonical_hostStore hs))

theorem canonical_writeTdone (hs : s.canonical) {m v} : (s.writeTdone m v).canonical := by
  unfold State.writeTdone
  split
  · exact canonical_refuseReg hs
  · refine canonical_ite (canonical_stampSlot ?_) (canonical_refuseReg ?_)
    all_goals exact hs

theorem canonical_writeEvtCfg (hs : s.canonical) {fn v part} : (s.writeEvtCfg fn v part).canonical := by
  refine canonical_ite (canonical_refuseBar ?_) (canonical_ite ?_ ?_)
  all_goals exact hs

theorem canonical_writeEvtBase (hs : s.canonical) {fn v part} : (s.writeEvtBase fn v part).canonical :=
  canonical_ite (canonical_refuseBar hs) (canonical_setReg hs)

theorem canonical_writeEvtHead (hs : s.canonical) {fn v part} : (s.writeEvtHead fn v part).canonical := by
  refine canonical_ite (canonical_setReg ?_) (canonical_sendMsix
    (canonical_setFld (canonical_putRecord (canonical_setReg ?_))))
  all_goals exact hs

theorem canonical_writeMbCtrl (hs : s.canonical) {fn v part} : (s.writeMbCtrl fn v part).canonical :=
  canonical_setReg hs

theorem canonical_writeMbH2f (hs : s.canonical) {fn j v part} : (s.writeMbH2f fn j v part).canonical :=
  canonical_ite (canonical_refuseBar hs) (canonical_setReg hs)

theorem canonical_finishCopy (hs : s.canonical) {c} : (s.finishCopy c).canonical := by
  unfold State.finishCopy
  extract_lets host dev n st st'
  refine canonical_ite hs (canonical_ite (canonical_ite (canonical_finishCmd hs)
    (canonical_finishCmd (canonical_access (canonical_store (canonical_intrude hs)))))
    (canonical_ite ?_ (canonical_ite (canonical_finishCmd hs)
    (canonical_finishCmd (canonical_access (canonical_hostStore hs))))))
  split
  · exact canonical_finishCmd (canonical_memError hs)
  · exact canonical_finishCmd hs

end Sys2Proof.Machine
end

section
/-! SUPPORT. The form of the memories under Crocus' flows, the power domains and lockstep. -/

namespace Sys2Proof.Machine

variable {s : State}

theorem canonical_setPortLanes (hs : s.canonical) {k l v} : (s.setPortLanes k l v).canonical :=
  canonical_foldl (fun h => canonical_ite h (canonical_traceLink (canonical_setFld h))) hs

theorem canonical_writePortCfg (hs : s.canonical) {k v part} : (s.writePortCfg k v part).canonical :=
  canonical_foldl (fun h => canonical_ite (canonical_foldl (fun h => canonical_ite h
    (canonical_traceLink (canonical_setFld h))) h) h) (canonical_setReg hs)

theorem canonical_writeCrkSpare (hs : s.canonical) {m k v} : (s.writeCrkSpare m k v).canonical :=
  canonical_ite hs (canonical_ite (canonical_refuseReg hs) (canonical_setFld hs))

theorem canonical_setFlow (hs : s.canonical) {k f x} : (s.setFlow k f x).canonical :=
  hs

theorem canonical_countFlow (hs : s.canonical) {k f lo n} : (s.countFlow k f lo n).canonical :=
  canonical_bumpFld hs

theorem canonical_crkStore (hs : s.canonical) {k off bs} : (s.crkStore k off bs).canonical :=
  canonical_ite (canonical_access (canonical_store hs)) hs

theorem canonical_crkToken (hs : s.canonical) {k win} : (s.crkToken k win).canonical := by
  unfold State.crkToken
  refine canonical_ite hs ?_
  split
  · exact hs
  · exact canonical_sendToken hs

theorem canonical_writeFlow (hs : s.canonical) {m k f v part} : (s.writeFlow m k f v part).canonical :=
  canonical_ite (canonical_refuseReg (canonical_setReg hs)) (canonical_ite (canonical_setReg hs)
    (canonical_setFlow (canonical_setReg hs)))

theorem canonical_writeCrkWin (hs : s.canonical) {m r k ix v part} : (s.writeCrkWin m r k ix v part).canonical :=
  canonical_ite (canonical_refuseReg hs) (canonical_setReg hs)

theorem canonical_writeFlowWin (hs : s.canonical) {m k f v part} : (s.writeFlowWin m k f v part).canonical :=
  canonical_ite (canonical_refuseReg (canonical_setFlow (canonical_setReg (canonical_writeCrkWin hs))))
    (canonical_writeCrkWin hs)

theorem canonical_takePrb (hs : s.canonical) {k f n p prb} : (s.takePrb k f n p prb).canonical :=
  canonical_ite hs (canonical_ite (canonical_setFlow hs) (canonical_setFlow (canonical_crkStore hs)))

theorem canonical_takePrbs (hs : s.canonical) {k f n p l} : (s.takePrbs k f n p l).canonical := by
  induction l generalizing s p with
  | nil => exact hs
  | cons x l ih => exact ih (canonical_takePrb hs)

theorem canonical_takeSection (hs : s.canonical) {k f x stamp} : (s.takeSection k f x stamp).canonical :=
  canonical_ite (canonical_countFlow hs) (canonical_ite (canonical_countFlow hs)
    (canonical_takePrbs (canonical_setFlow hs)))

theorem canonical_takeSeq (hs : s.canonical) {k f seq n} : (s.takeSeq k f seq n).canonical := by
  cases n with
  | none => exact canonical_setFlow hs
  | some n => exact canonical_ite (canonical_setFlow hs) (canonical_setFlow hs)

theorem canonical_takeUplane (hs : s.canonical) {k f m stamp} : (s.takeUplane k f m stamp).canonical := by
  unfold State.takeUplane
  extract_lets comp mu n s₁
  have hs₁ : s₁.canonical := canonical_takeSeq hs
  clear_value s₁ n
  refine canonical_ite ?_ (canonical_foldl (fun h => canonical_takeSection h) hs₁)
  cases n with
  | none => exact canonical_countFlow hs₁
  | some n => exact canonical_setFlow (canonical_countFlow hs₁)

theorem canonical_writeHeader (hs : s.canonical) {k f n} : (s.writeHeader k f n).canonical :=
  canonical_ite hs (canonical_crkToken (canonical_setFlow (canonical_crkStore (canonical_advanceTo hs))))

theorem canonical_setPort (hs : s.canonical) {k l p} : (s.setPort k l p).canonical :=
  hs

theorem canonical_addTx (hs : s.canonical) {k x} : (s.addTx k x).canonical :=
  hs

theorem canonical_nextSeq (hs : s.canonical) {k f} : (s.nextSeq k f).2.canonical :=
  canonical_setFlow hs

theorem canonical_sendAt (hs : s.canonical) {k f n} : (s.sendAt k f n).canonical :=
  canonical_setFlow (canonical_advanceTo hs)

theorem canonical_sendDownlink (hs : s.canonical) {k f n} : (s.sendDownlink k f n).canonical := by
  have ht : (s.sendAt k f n).canonical := canonical_sendAt hs
  unfold State.sendDownlink
  generalize s.sendAt k f n = t at ht ⊢
  refine canonical_ite hs (canonical_ite (canonical_countFlow ht) ?_)
  cases t.badIn (t.recordAt k f n) (recordSize (s.flowReg k f)) with
  | some b => exact canonical_countFlow (canonical_memError ht)
  | none =>
    extract_lets comp s₁ runs d s₂
    have hs₁ : s₁.canonical := canonical_access ht
    have hs₂ : s₂.canonical := canonical_snd_ite hs₁ (canonical_draw hs₁)
    clear_value s₂
    refine canonical_ite (canonical_countFlow hs₂) (canonical_foldl (fun h => ?_) hs₂)
    exact canonical_addTx (canonical_nextSeq h)

theorem canonical_sendCplane (hs : s.canonical) {k f n} : (s.sendCplane k f n).canonical := by
  have ht : (s.sendAt k f n).canonical := canonical_sendAt hs
  unfold State.sendCplane
  generalize s.sendAt k f n = t at ht ⊢
  refine canonical_ite hs (canonical_ite (canonical_countFlow ht) ?_)
  cases t.badIn (t.recordAt k f n) 1024 with
  | some b => exact canonical_countFlow (canonical_memError ht)
  | none =>
    extract_lets bytes s₁ q
    have hs₁ : s₁.canonical := canonical_access ht
    clear_value s₁
    have hq : q.2.canonical := canonical_nextSeq hs₁
    clear_value q
    exact canonical_ite (canonical_countFlow hs₁) (canonical_addTx hq)

theorem canonical_loseLanes (hs : s.canonical) {d} : (s.loseLanes d).canonical :=
  canonical_foldl (fun h => canonical_setSeq h) hs

theorem canonical_loseDahlia (hs : s.canonical) {d} : (s.loseDahlia d).canonical :=
  canonical_zeroRange (canonical_zeroRange hs)

theorem canonical_loseCores (hs : s.canonical) {i} : (s.loseCores i).canonical :=
  hs

theorem canonical_loseEngines (hs : s.canonical) {i} : (s.loseEngines i).canonical :=
  canonical_zeroRange hs

theorem canonical_losePorts (hs : s.canonical) {c} : (s.losePorts c).canonical :=
  hs

theorem canonical_loseFront (hs : s.canonical) {c} : (s.loseFront c).canonical :=
  hs

theorem canonical_loseLupin (hs : s.canonical) {k} : (s.loseLupin k).canonical :=
  hs

theorem canonical_loseFar (hs : s.canonical) : s.loseFar.canonical :=
  canonical_zeroRange hs

theorem canonical_loseDomain (hs : s.canonical) {n} : (s.loseDomain n).canonical := by
  unfold State.loseDomain
  extract_lets s₁ s₂
  have hs₁ : s₁.canonical := by
    refine canonical_ite (canonical_ite (canonical_loseLanes hs) (canonical_loseDahlia hs))
      (canonical_ite (canonical_ite (canonical_loseCores hs) (canonical_loseEngines hs))
      (canonical_ite (canonical_ite (canonical_losePorts hs) (canonical_loseFront hs))
      (canonical_ite (canonical_loseLupin hs) (canonical_ite ?_ (canonical_ite (canonical_loseFar hs) hs)))))
    exact hs
  clear_value s₁
  have hs₂ : s₂.canonical := by
    unfold s₂
    split <;> exact hs₁
  exact hs₂

theorem canonical_showWithdrawn (hs : s.canonical) {d} : (s.showWithdrawn d).canonical :=
  canonical_foldl (fun h => canonical_ite (canonical_setFld h) h) hs

theorem canonical_enterDomain (hs : s.canonical) {n} : (s.enterDomain n).canonical := by
  unfold State.enterDomain
  extract_lets s₁ d s₂
  have hs₁ : s₁.canonical := by
    unfold s₁
    split <;> exact hs
  clear_value s₁
  have hs₂ : s₂.canonical := canonical_showWithdrawn hs₁
  clear_value s₂
  refine canonical_ite (canonical_ite hs₁ ?_) (canonical_ite ?_ hs₁)
  · exact hs₂
  · exact hs₁

theorem canonical_lsPut (hs : s.canonical) {seq kind status digest} : (s.lsPut seq kind status digest).canonical :=
  canonical_fabIssue hs

theorem canonical_lsDropPuts (hs : s.canonical) : s.lsDropPuts.canonical :=
  hs

theorem canonical_lsStop (hs : s.canonical) {cause seq} : (s.lsStop cause seq).canonical :=
  canonical_ite hs (canonical_setFld (canonical_setFld (canonical_setFld
    (canonical_lsDropPuts (canonical_lsPut (canonical_globalStop hs))))))

theorem canonical_lsPutDone (hs : s.canonical) {status seq} : (s.lsPutDone status seq).canonical :=
  canonical_ite hs (canonical_lsStop hs)

theorem canonical_lsCompare (hs : s.canonical) {seq} : (s.lsCompare seq).canonical := by
  unfold State.lsCompare
  split
  · exact canonical_ite (by exact hs) (canonical_lsStop hs)
  · exact hs

theorem canonical_lsAdvance (hs : s.canonical) {n} : (s.lsAdvance n).canonical := by
  induction n generalizing s with
  | zero => exact hs
  | succ n ih =>
    unfold State.lsAdvance
    dsimp only
    split
    · exact ih (canonical_setFld (by exact hs))
    · exact hs

theorem canonical_lsLook (hs : s.canonical) {seq} : (s.lsLook seq).canonical := by
  unfold State.lsLook
  refine canonical_ite hs ?_
  split
  · exact canonical_lsStop hs
  · exact canonical_lsAdvance (canonical_lsCompare hs)
  · exact hs

end Sys2Proof.Machine
end

section
/-! SUPPORT. The form of the memories under the fabric: homes, requests and replies, mirrors, links. -/

namespace Sys2Proof.Machine

variable {s : State}

theorem canonical_setMirror (hs : s.canonical) {i st} : (s.setMirror i st).canonical :=
  canonical_stateEvent (canonical_setFld hs)

theorem canonical_putMirror (hs : s.canonical) {i m} : (s.putMirror i m).canonical :=
  hs

theorem canonical_sendReply (hs : s.canonical) {p} : (s.sendReply p).canonical :=
  canonical_ite hs (canonical_ite hs (canonical_linkPush hs))

theorem canonical_setHome (hs : s.canonical) {k h} : (s.setHome k h).canonical :=
  hs

theorem canonical_allocReceipt (hs : s.canonical) {k r} : (s.allocReceipt k r).canonical :=
  canonical_ite hs (canonical_ite (canonical_setFld (canonical_setHome hs)) (canonical_setHome hs))

theorem canonical_closeReceipt (hs : s.canonical) {k p} : (s.closeReceipt k p).canonical :=
  canonical_ite (canonical_setHome hs) (canonical_setHome hs)

theorem canonical_finishReq (hs : s.canonical) {k r p} : (s.finishReq k r p).canonical :=
  canonical_sendReply (canonical_ite (canonical_closeReceipt hs) hs)

theorem canonical_fabStore (hs : s.canonical) {off bs} : (s.fabStore off bs).canonical :=
  canonical_store (canonical_intrude hs)

theorem canonical_applyReq (hs : s.canonical) {r} : (s.applyReq r).2.canonical := by
  unfold State.applyReq
  cases s.fabBad r with
  | some a =>
    dsimp only
    exact canonical_memError hs
  | none =>
    extract_lets old data m s₁ s₂
    have hs₁ : s₁.canonical := canonical_ite (canonical_access (canonical_fabStore hs)) hs
    have hs₂ : s₂.canonical := canonical_ite (canonical_access hs₁) hs₁
    exact hs₂

theorem canonical_sendCopy (hs : s.canonical) {i r p} : (s.sendCopy i r p).canonical := by
  unfold State.sendCopy
  extract_lets m id s₁
  have hs₁ : s₁.canonical := canonical_putMirror hs
  exact canonical_fabIssue hs₁

theorem canonical_serveReq (hs : s.canonical) {k r} : (s.serveReq k r).canonical := by
  have ha : (s.applyReq r).2.canonical := canonical_applyReq hs
  refine canonical_ite (canonical_finishReq ha) ?_
  split
  · exact canonical_finishReq ha
  · exact canonical_sendCopy ha

theorem canonical_setLine (hs : s.canonical) {k x} : (s.setLine k x).canonical :=
  canonical_setHome hs

theorem canonical_busyReq (hs : s.canonical) {k r d} : (s.busyReq k r d).canonical :=
  canonical_sendReply (canonical_ite (canonical_setHome (canonical_pmu (canonical_bumpFld hs)))
    (canonical_pmu (canonical_bumpFld hs)))

theorem canonical_lineReq (hs : s.canonical) {k r} : (s.lineReq k r).canonical :=
  canonical_ite (canonical_serveReq (canonical_allocReceipt (canonical_setLine
    (canonical_ite (canonical_setHome hs) hs)))) (canonical_ite (canonical_busyReq hs)
    (canonical_ite (canonical_busyReq hs) (canonical_allocReceipt
    (canonical_setLine (canonical_ite (canonical_bumpFld (canonical_ite (canonical_setHome hs) hs))
    (canonical_ite (canonical_setHome hs) hs))))))

theorem canonical_applyCopies (hs : s.canonical) {k i n} : (s.applyCopies k i n).canonical := by
  induction n generalizing s with
  | zero => exact hs
  | succ n ih =>
    unfold State.applyCopies
    dsimp only
    split
    · exact hs
    · exact ih (canonical_finishReq (canonical_applyReq (canonical_putMirror hs)))

theorem canonical_copyReq (hs : s.canonical) {k r} : (s.copyReq k r).canonical := by
  unfold State.copyReq
  split
  · exact hs
  next i _ =>
    extract_lets first s₁ m m'
    have hs₁ : s₁.canonical := canonical_ite (canonical_setMirror hs) hs
    clear_value s₁ m'
    split
    · exact canonical_putMirror hs₁
    · exact canonical_ite (canonical_sendReply (canonical_putMirror hs₁))
        (canonical_applyCopies (canonical_putMirror hs₁))

theorem canonical_released (hs : s.canonical) {i} : (s.released i).canonical :=
  canonical_ite (canonical_putMirror (canonical_setMirror hs)) hs

theorem canonical_arriveReq (hs : s.canonical) {r} : (s.arriveReq r).canonical := by
  unfold State.arriveReq
  extract_lets die k s₁ st
  have hs₁ : s₁.canonical := canonical_pmu hs
  clear_value s₁ st
  refine canonical_ite hs (canonical_ite (canonical_bumpFld hs₁) (canonical_ite (canonical_sendReply hs₁) ?_))
  split
  · split
    · exact hs₁
    · exact canonical_sendReply (canonical_pmu (canonical_bumpFld hs₁))
  · refine canonical_ite ?_ (canonical_ite (canonical_sendReply hs₁)
      (canonical_ite (canonical_sendReply (canonical_bumpFld hs₁)) ?_))
    · split
      · exact canonical_sendReply (canonical_ite (canonical_released hs₁) hs₁)
      · exact canonical_sendReply hs₁
    · split
      · exact canonical_ite (canonical_setLine hs₁) (canonical_serveReq hs₁)
      · exact canonical_ite (canonical_setLine hs₁) (canonical_serveReq hs₁)
      · exact canonical_copyReq hs₁
      · exact canonical_lineReq hs₁

theorem canonical_ackWait (hs : s.canonical) {w} : (s.ackWait w).canonical :=
  canonical_finishReq hs

theorem canonical_copyAcked (hs : s.canonical) {i op status} : (s.copyAcked i op status).canonical := by
  unfold State.copyAcked
  dsimp only
  split
  · exact hs
  · exact canonical_ite hs (canonical_ackWait (canonical_putMirror hs))

theorem canonical_dropOp (hs : s.canonical) {id} : (s.dropOp id).canonical :=
  hs

theorem canonical_closeOp (hs : s.canonical) {o} : (s.closeOp o).canonical := by
  unfold State.closeOp
  extract_lets st s₁
  have hs₁ : s₁.canonical := canonical_ite (canonical_bumpFld hs) hs
  clear_value s₁
  cases o.issuer with
  | ctx u k => exact canonical_onOp hs₁
  | ring r c => exact canonical_completeId (canonical_dropOp hs₁)
  | core n => exact canonical_dropOp hs₁
  | lockstep => exact canonical_lsPutDone (canonical_dropOp hs₁)
  | mirror i => exact canonical_copyAcked (canonical_dropOp hs₁)

theorem canonical_answerPkt (hs : s.canonical) {id j status hint value} :
    (s.answerPkt id j status hint value).canonical := by
  unfold State.answerPkt
  extract_lets s₁
  have hs₁ : s₁.canonical := canonical_onOp hs
  clear_value s₁
  split
  · exact hs₁
  · exact canonical_ite (canonical_closeOp hs₁) hs₁

theorem canonical_landGet (hs : s.canonical) {o p} : (s.landGet o p).canonical :=
  canonical_ite (canonical_access (canonical_store hs)) hs

theorem canonical_arriveReply (hs : s.canonical) {d p} : (s.arriveReply d p).canonical := by
  unfold State.arriveReply
  split
  · exact canonical_bumpFld hs
  next o _ =>
    refine canonical_ite ?_ (canonical_answerPkt (canonical_landGet hs))
    extract_lets s₁
    have hs₁ : s₁.canonical := canonical_onOp hs
    clear_value s₁
    split
    · exact canonical_ite (canonical_answerPkt hs₁) hs₁
    · exact hs₁

theorem canonical_lossRetry (hs : s.canonical) {id} : (s.lossRetry id).canonical := by
  unfold State.lossRetry
  split
  · exact hs
  · dsimp only
    split
    · exact hs
    · exact canonical_ite hs (canonical_foldl (fun h => canonical_resend h) (canonical_advanceTo hs))

theorem canonical_hotRetry (hs : s.canonical) {id} : (s.hotRetry id).canonical := by
  unfold State.hotRetry
  split
  · exact hs
  · dsimp only
    split
    · exact hs
    · exact canonical_ite hs (canonical_foldl (fun h => canonical_resend h) (canonical_advanceTo hs))

theorem canonical_windowClose (hs : s.canonical) {id} : (s.windowClose id).canonical := by
  unfold State.windowClose
  split
  · exact hs
  · exact canonical_ite hs (canonical_foldl (fun h => canonical_answerPkt h) (canonical_advanceTo hs))

theorem canonical_unknownTimeout (hs : s.canonical) {id} : (s.unknownTimeout id).canonical := by
  unfold State.unknownTimeout
  split
  · exact hs
  · exact canonical_ite hs (canonical_foldl (fun h => canonical_answerPkt h) (canonical_advanceTo hs))

theorem canonical_endOps (hs : s.canonical) {p status} : (s.endOps p status).canonical :=
  canonical_foldl (fun h => canonical_foldl (fun h => canonical_answerPkt h) h) hs

theorem canonical_toSingle (hs : s.canonical) {i} : (s.toSingle i).canonical := by
  unfold State.toSingle
  extract_lets m s₁ s₂ s₃ s₄
  have hs₁ : s₁.canonical := canonical_setMirror hs
  clear_value s₁
  have hs₃ : s₃.canonical := hs₁
  have hs₄ : s₄.canonical := canonical_foldl (fun h => by exact canonical_ackWait h) hs₃
  exact canonical_fabIssue hs₄

theorem canonical_partnerDown (hs : s.canonical) {node} : (s.partnerDown node).canonical :=
  canonical_foldl (fun h => canonical_ite h (canonical_ite (canonical_toSingle h)
    (canonical_ite (canonical_setMirror h) h))) (by exact hs)

/-- A write of a node-wide register keeps the form where its effect does. -/
theorem canonical_nodeWide (hs : s.canonical) {m r die ix v} {k : State → State} (hk : (k s).canonical) :
    (s.nodeWide m r die ix v k).canonical :=
  canonical_ite hk (canonical_refuseReg hs)

theorem canonical_writeNode (hs : s.canonical) {m v part} : (s.writeNode m v part).canonical :=
  canonical_ite (canonical_plainWrite hs) (canonical_ite (canonical_setReg hs)
    (canonical_ite (canonical_refuseReg hs) (canonical_setReg hs)))

theorem canonical_writeRegion (hs : s.canonical) {m ix v part} : (s.writeRegion m ix v part).canonical :=
  canonical_ite (canonical_ite (canonical_setFld hs) hs) (canonical_ite (canonical_setReg hs)
    (canonical_ite (canonical_setReg hs) (canonical_ite (canonical_refuseReg (canonical_setReg hs))
    (canonical_putMirror (canonical_setReg hs)))))

theorem canonical_writePeer (hs : s.canonical) {k v part} : (s.writePeer k v part).canonical :=
  canonical_foldl (fun h => canonical_ite (canonical_partnerDown (canonical_endOps h)) h) (canonical_setReg hs)

theorem canonical_writeMirrorCmd (hs : s.canonical) {m die v} : (s.writeMirrorCmd m die v).canonical := by
  refine canonical_ite ?_ (canonical_ite (canonical_putMirror (canonical_setMirror ?_))
    (canonical_ite (canonical_setMirror (canonical_setFld ?_))
    (canonical_ite (canonical_toSingle ?_) (canonical_refuseReg ?_))))
  all_goals exact hs

theorem canonical_setLinkSt (hs : s.canonical) {die j st} : (s.setLinkSt die j st).canonical :=
  canonical_traceLink (canonical_setFld hs)

theorem canonical_linkDown (hs : s.canonical) {die j} : (s.linkDown die j).canonical :=
  canonical_linkEvent (canonical_setLink (canonical_bumpFld (canonical_setFld hs)))

theorem canonical_writeLink (hs : s.canonical) {m die j v part} : (s.writeLink m die j v part).canonical := by
  unfold State.writeLink
  extract_lets r old w bad w' same s₁ s₂ s₃
  have hs₁ : s₁.canonical := canonical_ite (canonical_linkDown hs) hs
  have hs₂ : s₂.canonical := canonical_setReg hs₁
  have hs₃ : s₃.canonical := canonical_ite (canonical_setLinkSt (canonical_setLink hs₂)) hs₂
  exact canonical_ite (canonical_refuseReg hs₃) hs₃

theorem canonical_laneUp (hs : s.canonical) {die l} : (s.laneUp die l).canonical :=
  canonical_setFld (canonical_setFld hs)

theorem canonical_laneFault (hs : s.canonical) {die l optical codewords} :
    (s.laneFault die l optical codewords).canonical := by
  unfold State.laneFault
  extract_lets s₁ s₂ w s₃
  have hs₁ : s₁.canonical := canonical_ite hs (canonical_bumpFld hs)
  have hs₂ : s₂.canonical := canonical_setFld hs₁
  have hs₃ : s₃.canonical := canonical_ite (canonical_pmu (canonical_bumpFld (canonical_setFld hs₂))) hs₂
  clear_value s₁ s₃
  refine canonical_ite hs₁ ?_
  split
  · exact hs₃
  · refine canonical_ite hs₃ ?_
    split
    · exact canonical_linkDown hs₃
    · exact canonical_setLinkSt (canonical_setLink (canonical_ite hs₃ (by exact hs₃)))

theorem canonical_laneSpared (hs : s.canonical) {die j p} : (s.laneSpared die j p).canonical :=
  canonical_traceLink (canonical_laneUp (canonical_ite (canonical_setFld (canonical_setFld (canonical_bumpFld hs)))
    (canonical_setFld (canonical_bumpFld hs))))

theorem canonical_spareResume (hs : s.canonical) {die j} : (s.spareResume die j).canonical :=
  canonical_ite hs (canonical_setLinkSt (canonical_setLink (canonical_foldl (fun h => canonical_laneSpared h) hs)))

theorem canonical_sendFlit (hs : s.canonical) {die j} : (s.sendFlit die j).canonical := by
  unfold State.sendFlit
  extract_lets k s₁ s₂
  have hs₁ : s₁.canonical := canonical_pmu (canonical_bumpFld hs)
  have hs₂ : s₂.canonical := canonical_pmu hs
  clear_value s₁ s₂
  refine canonical_ite hs ?_
  split
  · exact canonical_setLink hs₁
  · split
    · exact hs
    · exact canonical_ite hs (canonical_setLink hs₂)

theorem canonical_ackFlits (hs : s.canonical) {die j seq} : (s.ackFlits die j seq).canonical :=
  canonical_ite hs (canonical_setLink hs)

theorem canonical_replayLink (hs : s.canonical) {die j} : (s.replayLink die j).canonical :=
  canonical_ite hs (canonical_setLink hs)

theorem canonical_ackTimeout (hs : s.canonical) {die j} : (s.ackTimeout die j).canonical :=
  canonical_ite hs (canonical_replayLink (canonical_advanceTo hs))

theorem canonical_stallDown (hs : s.canonical) {die j} : (s.stallDown die j).canonical :=
  canonical_ite hs (canonical_linkDown (canonical_advanceTo hs))

theorem canonical_linkTrained (hs : s.canonical) {die j} : (s.linkTrained die j).canonical :=
  canonical_ite hs (canonical_setLinkSt (canonical_foldl (fun h => canonical_laneUp h) hs))

theorem canonical_yellowSend (hs : s.canonical) {die} : (s.yellowSend die).canonical := by
  unfold State.yellowSend
  extract_lets s₁ green
  have hs₁ : s₁.canonical := canonical_pumpEgress hs
  clear_value s₁
  split
  · exact hs₁
  · exact canonical_ite hs₁ (canonical_pumpEgress (canonical_linkPush (by exact hs₁)))

theorem canonical_startFabric (hs : s.canonical) {r op} : (s.startFabric r op).canonical := by
  unfold State.startFabric
  split
  · exact hs
  next c _ =>
    refine canonical_ite hs ?_
    dsimp only
    split
    · exact canonical_finishCmd (canonical_memError hs)
    · have hi {o t} : ((s.startCmd c).fabIssue o t).canonical := canonical_fabIssue (canonical_startCmd hs)
      have ha {o t m off n b} {p : Prop} {inst : Decidable p} : State.canonical
          (if p then ((s.startCmd c).fabIssue o t).access m off n b else (s.startCmd c).fabIssue o t) :=
        canonical_ite (canonical_access hi) hi
      split
      · split
        · exact canonical_finishCmd (canonical_dropOp ha)
        · exact ha
      · exact ha

end Sys2Proof.Machine
end

section
/-! SUPPORT. The form of the memories under the engines and the events of the sequencers. -/

namespace Sys2Proof.Machine

variable {s : State}

theorem canonical_startJob (hs : s.canonical) {iris q} : (s.startJob iris q).canonical := by
  unfold State.startJob
  dsimp only
  split
  · exact hs
  · exact canonical_ite hs (canonical_setEngq (canonical_advanceTo hs))

theorem canonical_engine (hs : s.canonical) {kind iris q} : (s.engine kind iris q).canonical := by
  refine canonical_ite ?_ (canonical_setEngq ?_)
  all_goals exact hs

theorem canonical_endJob (hs : s.canonical) {iris q} : (s.endJob iris q).canonical := by
  unfold State.endJob
  extract_lets e d
  split
  · refine canonical_ite hs ?_
    extract_lets s₁ m s₂ s₃ s₄ word s₅ s₆ s₇ k s₈ s₉
    have hs₂ : s₂.canonical := canonical_foldl (fun h => canonical_accessBy h) (canonical_advanceTo hs)
    have hs₃ : s₃.canonical := canonical_foldl (fun h => by exact canonical_accessBy (canonical_store h)) hs₂
    clear_value s₃
    have hs₄ : s₄.canonical := by
      unfold s₄
      split
      · exact canonical_memError hs₃
      · exact hs₃
    clear_value s₄
    have hs₅ : s₅.canonical := canonical_store hs₄
    have hs₇ : s₇.canonical := canonical_bumpFld (canonical_bumpFld (canonical_bumpFld (canonical_bumpFld hs₅)))
    have hs₈ : s₈.canonical := canonical_pmuAt hs₇
    clear_value s₈ k
    have hs₉ : s₉.canonical := by
      unfold s₉
      split
      · exact canonical_pmuAt hs₈
      · exact canonical_pmuAt hs₈
      · exact hs₈
    exact canonical_sendToken (canonical_setEngq (canonical_trace hs₉))
  · exact hs

theorem canonical_deliverToken (hs : s.canonical) {m dt} : (s.deliverToken m dt).canonical := by
  unfold State.deliverToken
  extract_lets discard u t i n e
  have hd : discard.canonical := canonical_tokenEvent hs
  clear_value discard
  refine canonical_ite ?_ (canonical_ite hd (canonical_ite (canonical_ite hd
    (canonical_arriveToken (canonical_settle hs))) (canonical_ite hd
    (canonical_ite (canonical_tokenEvent (canonical_setEngq hs)) (canonical_setEngq hs)))))
  split
  · exact hd
  · exact canonical_ite hd (canonical_arriveToken (canonical_settle hs))

theorem canonical_countBank (hs : s.canonical) {die m won} : (s.countBank die m won).canonical :=
  canonical_ite hs (canonical_ite (canonical_bumpFld hs) (canonical_bumpFld hs))

end Sys2Proof.Machine
end

section
/-! SUPPORT. The form of the memories under the slot timers, the resets and the boot and security unit. Two operations
empty a memory: the reset of the chip and the loss of power. -/

namespace Sys2Proof.Machine

variable {s : State}

theorem canonical_setImg (hs : s.canonical) {i c v} : (s.setImg i c v).canonical :=
  canonical_setFld hs

theorem canonical_startImage (hs : s.canonical) {i c} : (s.startImage i c).canonical :=
  canonical_setImg (canonical_setSeq hs)

theorem canonical_writeImg (hs : s.canonical) {m i c v part} : (s.writeImg m i c v part).canonical :=
  canonical_ite (canonical_refuseReg hs) (canonical_ite (canonical_setReg hs)
    (canonical_ite (canonical_refusedIn (canonical_setReg hs))
    (canonical_ite (canonical_refusedIn (canonical_setImg (canonical_setReg hs)))
    (canonical_ite (canonical_setImg (canonical_setReg hs)) (canonical_startImage (canonical_setReg hs))))))

theorem canonical_runImage (hs : s.canonical) {i c} : (s.runImage i c).canonical :=
  canonical_ite hs (canonical_setImg (canonical_setSeq (canonical_advanceTo hs)))

theorem canonical_timerToken (hs : s.canonical) {u n dt} : (s.timerToken u n dt).canonical :=
  canonical_arriveToken (canonical_settle (canonical_draw hs))

theorem canonical_timerCore (hs : s.canonical) {i t dt c} : (s.timerCore i t dt c).canonical := by
  refine canonical_ite (canonical_ite (canonical_startImage ?_) ?_)
    (canonical_timerToken (canonical_ite (canonical_emit (canonical_bumpFld
    (canonical_ite (canonical_startImage ?_) ?_))) (canonical_ite (canonical_startImage ?_) ?_)))
  all_goals exact hs

theorem canonical_timerTick (hs : s.canonical) {i t dt} : (s.timerTick i t dt).canonical := by
  unfold State.timerTick
  extract_lets d ns s₁ s₂ s₃
  have hs₁ : s₁.canonical := canonical_advanceTo hs
  clear_value s₁
  have hs₃ : s₃.canonical := by exact hs₁
  exact canonical_ite hs (canonical_ite (canonical_foldl (fun h => canonical_timerCore h) hs₃) hs₃)

theorem canonical_writeStimer (hs : s.canonical) {m i t v part} : (s.writeStimer m i t v part).canonical :=
  canonical_ite (canonical_refuseReg (canonical_setReg hs)) (canonical_ite (by exact hs) (canonical_setReg hs))

theorem canonical_writeEq (hs : s.canonical) {i q v part} : (s.writeEq i q v part).canonical :=
  canonical_ite (canonical_setEngq hs) (canonical_setEngq hs)

theorem canonical_setBh (hs : s.canonical) {i b} : (s.setBh i b).canonical :=
  hs

theorem canonical_showReset (hs : s.canonical) {r old new_ result} : (s.showReset r old new_ result).canonical :=
  canonical_stateEvent (canonical_setFld (canonical_setFld (canonical_setFld
    (canonical_setFld (canonical_setFld hs)))))

theorem canonical_setReset (hs : s.canonical) {r} : (s.setReset r).canonical :=
  hs

theorem canonical_moveReset (hs : s.canonical) {r st} : (s.moveReset r st).canonical :=
  canonical_showReset (canonical_setReset hs)

theorem canonical_lastReset (hs : s.canonical) {level cause} : (s.lastReset level cause).canonical :=
  canonical_ite hs (canonical_setFld (canonical_setFld (canonical_setFld hs)))

theorem canonical_abortDump (hs : s.canonical) : s.abortDump.canonical :=
  canonical_ite (by exact hs) hs

theorem canonical_triggerReset (hs : s.canonical) {level target cause hold} :
    (s.triggerReset level target cause hold).canonical := by
  unfold State.triggerReset
  extract_lets id r covered s₁ s₂ s₃ s₄ s₅
  have hs₁ : s₁.canonical := hs
  have hs₂ : s₂.canonical := canonical_lastReset (canonical_bumpFld hs₁)
  clear_value s₂
  have hs₃ : s₃.canonical := canonical_ite (by exact hs₂) hs₂
  clear_value s₃
  have hs₄ : s₄.canonical := canonical_ite (by exact hs₃) hs₃
  exact canonical_ite hs (canonical_showReset (canonical_ite (canonical_setFld (canonical_abortDump hs₄)) hs₄))

theorem canonical_dropStepOps (hs : s.canonical) {r} : (s.dropStepOps r).canonical :=
  hs

theorem canonical_fenceStep (hs : s.canonical) {r} : (s.fenceStep r).canonical := by
  unfold State.fenceStep
  have hf : ∀ {cs : List Nat} {x : StepRec}, State.canonical (cs.foldl (fun s p =>
      (s.resumeUnit (.cluster p)).setSeq (.cluster p)
        { (s.resumeUnit (.cluster p)).seq (.cluster p) with stopped := true, run := none })
      ((s.setStep x).dropStepOps x)) :=
    canonical_foldl (fun h => canonical_setSeq (canonical_resumeUnit h))
      (canonical_dropStepOps (canonical_setStep hs))
  split
  · exact hs
  · exact canonical_endStep hs
  · exact canonical_ite (canonical_commitStep hs) hf

theorem canonical_fenceSteps (hs : s.canonical) {p} : (s.fenceSteps p).canonical := by
  refine canonical_foldl (fun h => ?_) hs
  split
  · exact h
  · exact canonical_fenceStep h

theorem canonical_fenceCmds (hs : s.canonical) {p} : (s.fenceCmds p).canonical :=
  canonical_foldl (fun h => canonical_ite (canonical_ite h (canonical_endCmdStep h))
    (canonical_finishCmd (by exact h))) hs

theorem canonical_fenceQueue (hs : s.canonical) {i q n} : (s.fenceQueue i q n).canonical := by
  induction n generalizing s with
  | zero => exact hs
  | succ n ih =>
    unfold State.fenceQueue
    extract_lets e job
    clear_value job
    split
    · exact hs
    · exact ih (canonical_sendToken (canonical_setEngq (canonical_store hs)))

theorem canonical_fenceCore (hs : s.canonical) {n} : (s.fenceCore n).canonical :=
  have h : (s.resumeUnit (.iris n)).canonical := canonical_resumeUnit hs
  h

theorem canonical_fenceTier (hs : s.canonical) {e} : (s.fenceTier e).canonical :=
  canonical_stopTier (by exact hs)

theorem canonical_fenceRemote (hs : s.canonical) : s.fenceRemote.canonical :=
  hs

theorem canonical_fenceWork (hs : s.canonical) {level target} : (s.fenceWork level target).canonical := by
  unfold State.fenceWork
  extract_lets s₁ s₂ s₃
  have hs₁ : s₁.canonical := canonical_fenceCmds (canonical_fenceSteps hs)
  have hs₂ : s₂.canonical := canonical_foldl (fun h => canonical_fenceCore h) hs₁
  have hs₃ : s₃.canonical := canonical_foldl (fun h => by exact canonical_fenceQueue h) hs₂
  have hs₄ : s₃.fenceRemote.canonical := canonical_fenceRemote hs₃
  clear_value s₃
  refine canonical_ite (canonical_ite ?_ (canonical_ite (canonical_fenceCmds hs) (canonical_fenceTier hs)))
    (canonical_ite (canonical_ite ?_ (canonical_ite (canonical_fenceCore hs) ?_))
      (canonical_ite (canonical_fenceCmds (canonical_fenceSteps hs)) hs₄))
  · split
    · exact hs
    · exact canonical_fenceSteps hs
  · split
    · exact hs
    · exact canonical_fenceSteps hs
  · exact canonical_fenceQueue hs

theorem canonical_endFencing (hs : s.canonical) {r} : (s.endFencing r).canonical :=
  canonical_fenceWork (canonical_moveReset hs)

theorem canonical_drainStep (hs : s.canonical) {r} : (s.drainStep r).canonical :=
  canonical_ite hs (canonical_endDrained hs)

theorem canonical_dropLinks (hs : s.canonical) : s.dropLinks.canonical :=
  canonical_foldl (fun h => canonical_ite (canonical_linkEvent (canonical_setPortLanes h)) h)
    (canonical_foldl (fun h => canonical_ite h (canonical_linkDown h)) hs)

theorem canonical_drainCore (hs : s.canonical) {n} : (s.drainCore n).canonical := by
  unfold State.drainCore
  dsimp only
  split
  · exact hs
  · exact canonical_settle hs

theorem canonical_endDraining (hs : s.canonical) {r} : (s.endDraining r).canonical := by
  unfold State.endDraining
  extract_lets s₁ s₂ s₃ s₄
  have hs₁ : s₁.canonical := by
    refine canonical_foldl (fun h => ?_) hs
    split
    · exact h
    · exact canonical_drainStep h
  have hs₂ : s₂.canonical := canonical_ite (canonical_drainCore hs₁) hs₁
  have hs₃ : s₃.canonical := canonical_ite (canonical_dropLinks hs₂) hs₂
  have hs₄ : s₄.canonical := canonical_ite (canonical_setFld hs₃) hs₃
  clear_value s₂ s₃ s₄
  exact canonical_ite hs₂ (canonical_ite (canonical_setReset (canonical_moveReset hs₃)) (canonical_moveReset hs₄))

theorem canonical_clearClusterRegs (hs : s.canonical) {p} : (s.clearClusterRegs p).canonical :=
  hs

theorem canonical_resetCluster (hs : s.canonical) {p} : (s.resetCluster p).canonical :=
  canonical_clearClusterRegs (canonical_setSeq (canonical_deadTokens (canonical_release (by exact hs))))

theorem canonical_resetCore (hs : s.canonical) {n} : (s.resetCore n).canonical :=
  hs

theorem canonical_resetQueue (hs : s.canonical) {i q} : (s.resetQueue i q).canonical :=
  canonical_setEngq hs

theorem canonical_resetRing (hs : s.canonical) {r} : (s.resetRing r).canonical :=
  hs

theorem canonical_resetRings (hs : s.canonical) {part} : (s.resetRings part).canonical :=
  canonical_foldl (fun h => canonical_resetRing h) hs

theorem canonical_resetFn (hs : s.canonical) {n} : (s.resetFn n).canonical :=
  hs

theorem canonical_resetCounters (hs : s.canonical) {p} : (s.resetCounters p).canonical :=
  canonical_foldl (fun h => canonical_setReg h) hs

theorem canonical_resetPartition (hs : s.canonical) {n} : (s.resetPartition n).canonical :=
  have h : (((s.resetRings n).resetFn n).resetCounters n).canonical :=
    canonical_resetCounters (canonical_resetFn (canonical_resetRings hs))
  h

/-- Only the host's memory is left, in the form in which it was. -/
theorem canonical_bare (hs : s.canonical) : s.bare.canonical :=
  canonical_of_imp hs (fun _ => rfl) id

theorem canonical_chipReset (hs : s.canonical) : s.chipReset.canonical := by
  unfold State.chipReset
  extract_lets s₁ s₂ s₃ s₄ s₅ s₆ s₇ s₈ s₉
  have hs₁ : s₁.canonical := canonical_foldl (fun h => canonical_setPd (canonical_loseDomain h)) hs
  have hs₂ : s₂.canonical := canonical_abortDump hs₁
  clear_value s₂
  have hs₃ : s₃.canonical := canonical_bare (by exact hs₂)
  clear_value s₃
  have hs₅ : s₅.canonical := canonical_setReg (canonical_setFld hs₃)
  clear_value s₅
  have hs₆ : s₆.canonical := hs₅
  clear_value s₆
  have hs₇ : s₇.canonical := canonical_setFld (canonical_setFld (canonical_setFld hs₆))
  clear_value s₇
  have hs₈ : s₈.canonical := canonical_loseDomain hs₇
  clear_value s₈
  have hs₉ : s₉.canonical := canonical_ite (by exact hs₈) hs₇
  exact canonical_setFld (canonical_setFld hs₉)

theorem canonical_resetDomain (hs : s.canonical) {level target} : (s.resetDomain level target).canonical := by
  unfold State.resetDomain
  refine canonical_ite hs (canonical_ite (canonical_ite ?_ (canonical_ite (canonical_resetCore hs)
    (canonical_resetQueue hs))) (canonical_ite (canonical_resetPartition hs) (canonical_chipReset hs)))
  split
  · exact hs
  · exact canonical_resetCluster hs

theorem canonical_endReset (hs : s.canonical) {r} : (s.endReset r).canonical :=
  have h : (s.resetDomain r.level r.target).canonical := canonical_resetDomain hs
  canonical_ite hs (canonical_showReset (by exact h))

theorem canonical_withdrawUnit (hs : s.canonical) {target} : (s.withdrawUnit target).canonical := by
  refine canonical_ite ?_ (canonical_ite (by exact hs) (by exact hs))
  split
  · exact hs
  · exact canonical_withdraw hs

theorem canonical_escalate (hs : s.canonical) {r} : (s.escalate r).canonical := by
  unfold State.escalate
  extract_lets s₁ s₂ t s₃
  have hs₂ : s₂.canonical := canonical_setFld (canonical_setReset (canonical_advanceTo hs))
  clear_value s₂ t
  have hs₃ : s₃.canonical := canonical_withdrawUnit hs₂
  clear_value s₃
  refine canonical_ite (canonical_ite (canonical_triggerReset hs₂) (canonical_triggerReset hs₂))
    (canonical_ite ?_ (canonical_ite (canonical_triggerReset hs₂) (canonical_triggerReset hs₂)))
  split
  · exact hs₃
  · exact canonical_triggerReset hs₃

theorem canonical_wipeAll (hs : s.canonical) {cause} : (s.wipeAll cause).canonical :=
  hs

theorem canonical_tamper (hs : s.canonical) {c} : (s.tamper c).canonical := by
  unfold State.tamper
  extract_lets b s₁ s₂ old s₃
  have hs₁ : s₁.canonical := hs
  have hs₂ : s₂.canonical := canonical_wipeAll (canonical_fenceSteps hs₁)
  clear_value s₂
  have hs₃ : s₃.canonical := hs₂
  exact canonical_emit hs₃

theorem canonical_writeBoot (hs : s.canonical) {v} : (s.writeBoot v).canonical :=
  canonical_ite hs (by exact hs)

theorem canonical_release_ (hs : s.canonical) : s.release_.canonical :=
  have hb {t : State} {win hdr tabs n} (ht : t.canonical) :
      State.canonical { t with bootWin := win, bootHdr := hdr, bootTabs := tabs, boots := n } := ht
  hb (canonical_setFld (canonical_setFld (canonical_setFld (canonical_setReg (canonical_setReg hs)))))

theorem canonical_endBoot (hs : s.canonical) : s.endBoot.canonical := by
  refine canonical_ite ?_ (canonical_ite (canonical_release_ ?_) (canonical_setFld (canonical_setFld ?_)))
  all_goals exact hs

theorem canonical_awaitImage (hs : s.canonical) : s.awaitImage.canonical :=
  canonical_ite (canonical_setFld hs) hs

theorem canonical_perst (hs : s.canonical) : s.perst.canonical :=
  canonical_triggerReset (by exact hs)

/-- The memory of the node is empty after it; the host's stays. -/
theorem canonical_powerDown (hs : s.canonical) : s.powerDown.canonical :=
  canonical_foldl (fun h => canonical_setPd h) (canonical_of_imp hs (fun _ => rfl) id)

theorem canonical_powerUp (hs : s.canonical) : s.powerUp.canonical :=
  canonical_ite hs (canonical_foldl (fun h => canonical_enterDomain (canonical_setPd h)) hs)

theorem canonical_programLc (hs : s.canonical) {t} : (s.programLc t).canonical := by
  unfold State.programLc
  extract_lets d keys old s₁
  have hs₁ : s₁.canonical := canonical_ite hs (canonical_draw hs)
  clear_value s₁
  exact canonical_stateEvent (by exact hs₁)

theorem canonical_writeLc (hs : s.canonical) {m v} : (s.writeLc m v).canonical := by
  refine canonical_ite ?_ (canonical_ite (canonical_refuseReg ?_)
    (canonical_triggerReset (canonical_setFld (canonical_programLc (canonical_wipeAll (canonical_fenceSteps ?_))))))
  all_goals exact hs

theorem canonical_flrVf (hs : s.canonical) {n} : (s.flrVf n).canonical := by
  refine canonical_ite (canonical_triggerReset ?_) ?_
  all_goals exact hs

theorem canonical_flrPf (hs : s.canonical) : s.flrPf.canonical :=
  have h : ((s.resetRings 0).resetFn 0).canonical := canonical_resetFn (canonical_resetRings hs)
  canonical_ite hs (by exact h)

theorem canonical_spdmReply (hs : s.canonical) {r} : (s.spdmReply r).canonical :=
  hs

theorem canonical_spdmVersion (hs : s.canonical) : s.spdmVersion.canonical :=
  canonical_ite hs hs

theorem canonical_spdmCapabilities (hs : s.canonical) {v14} : (s.spdmCapabilities v14).canonical :=
  canonical_ite hs (canonical_ite (canonical_spdmReply hs) hs)

theorem canonical_spdmAlgorithms (hs : s.canonical) {sha3Offered} : (s.spdmAlgorithms sha3Offered).canonical :=
  canonical_ite hs (canonical_ite (canonical_spdmReply hs) hs)

/-- A negotiated request keeps the form where its effect does. -/
theorem canonical_spdmNegotiated (hs : s.canonical) {k : State → State} (hk : (k s).canonical) :
    (s.spdmNegotiated k).canonical :=
  canonical_ite hs (canonical_ite (canonical_spdmReply hs) hk)

theorem canonical_spdmDigests (hs : s.canonical) : s.spdmDigests.canonical :=
  canonical_spdmNegotiated hs (canonical_spdmReply hs)

theorem canonical_spdmCertificate (hs : s.canonical) {slot} : (s.spdmCertificate slot).canonical :=
  canonical_spdmNegotiated hs (canonical_ite (canonical_spdmReply hs) (canonical_spdmReply hs))

theorem canonical_spdmChallenge (hs : s.canonical) {slot nonce} : (s.spdmChallenge slot nonce).canonical := by
  refine canonical_spdmNegotiated hs (canonical_ite (canonical_spdmReply hs) ?_)
  split
  · exact canonical_spdmReply hs
  · exact canonical_spdmReply hs

theorem canonical_spdmMeasurements (hs : s.canonical) {i slot} : (s.spdmMeasurements i slot).canonical := by
  refine canonical_spdmNegotiated hs (canonical_ite (canonical_spdmReply hs) ?_)
  split
  · exact canonical_spdmReply hs
  · refine canonical_ite (canonical_spdmReply hs) ?_
    split
    · exact canonical_spdmReply hs
    · exact canonical_spdmReply hs

theorem canonical_spdmKeyExchange (hs : s.canonical) {slot} : (s.spdmKeyExchange slot).canonical :=
  canonical_spdmNegotiated hs (canonical_ite (canonical_spdmReply hs) (by exact hs))

theorem canonical_spdmFinish (hs : s.canonical) : s.spdmFinish.canonical :=
  canonical_spdmNegotiated hs (canonical_ite (canonical_spdmReply hs) (by exact hs))

theorem canonical_spdmEnd (hs : s.canonical) : s.spdmEnd.canonical :=
  canonical_spdmNegotiated hs (canonical_ite (canonical_spdmReply hs) (by exact hs))

end Sys2Proof.Machine
end

section
/-! SUPPORT. The form of the memories under the radio paths, the egress ports and the digests. -/

namespace Sys2Proof.Machine

variable {s : State}

theorem canonical_setPath (hs : s.canonical) {k p x} : (s.setPath k p x).canonical :=
  hs

theorem canonical_writePath (hs : s.canonical) {m k p u v part} : (s.writePath m k p u v part).canonical :=
  canonical_ite (canonical_setReg hs) (canonical_ite (canonical_refuseReg (canonical_setReg hs))
    (canonical_ite (canonical_setPath (canonical_setReg hs)) (canonical_setPath (canonical_setReg hs))))

theorem canonical_takeWord (hs : s.canonical) {k f rate w} : (s.takeWord k f rate w).canonical :=
  canonical_foldl (fun h => canonical_setPath h) hs

theorem canonical_putSample (hs : s.canonical) {k p iris rate i} : (s.putSample k p iris rate i).canonical :=
  canonical_setPath (canonical_crkStore (canonical_draw hs))

theorem canonical_takeBlock (hs : s.canonical) {k f rate i p} : (s.takeBlock k f rate i p).2.canonical :=
  canonical_snd_ite hs (canonical_foldl (fun h => canonical_putSample h) hs)

theorem canonical_takeBlocks (hs : s.canonical) {k f rate i ex} : (s.takeBlocks k f rate i ex).canonical := by
  unfold State.takeBlocks
  extract_lets s₁ r
  have hs₁ : s₁.canonical := canonical_ite (canonical_countFlow hs) hs
  have hf : ∀ {l : List Nat} {a : Bool × State}, a.2.canonical → (l.foldl (fun (a : Bool × State) p =>
      (a.1 || (a.2.takeBlock k f rate i p).1, (a.2.takeBlock k f rate i p).2)) a).2.canonical := by
    intro l
    induction l with
    | nil => exact id
    | cons p l ih => exact fun h => ih (canonical_takeBlock h)
  have hr : r.2.canonical := hf hs₁
  clear_value r
  exact canonical_ite (canonical_countFlow hr) hr

theorem canonical_takeStream (hs : s.canonical) {k f m} : (s.takeStream k f m).canonical :=
  canonical_ite (canonical_countFlow (canonical_takeSeq hs)) (canonical_foldl (fun h => canonical_takeBlocks h)
    (canonical_foldl (fun h => canonical_takeWord h) (canonical_setFlow (canonical_takeSeq hs))))

theorem canonical_sendBlock (hs : s.canonical) {k f rate own} : (s.sendBlock k f rate own).canonical := by
  unfold State.sendBlock
  extract_lets w comp code size free block s₁ mine words cw s₂ raw flow s₃ q
  have hs₁ : s₁.canonical := canonical_ite (by exact hs) hs
  clear_value s₁
  have hs₃ : s₃.canonical := hs₁
  have hq : q.2.canonical := canonical_nextSeq hs₃
  exact canonical_addTx hq

theorem canonical_txBlock (hs : s.canonical) {k p rate sat} : (s.txBlock k p rate sat).canonical :=
  canonical_ite hs (canonical_ite (canonical_sendBlock (canonical_setPath (canonical_bumpFld hs)))
    (canonical_setPath (canonical_bumpFld hs)))

theorem canonical_agcPeriod (hs : s.canonical) {k p P C} : (s.agcPeriod k p P C).canonical := by
  unfold State.agcPeriod
  refine canonical_ite hs ?_
  extract_lets per s₁
  rename_i s₂ _ s₃ s₄
  have hs₁ : s₁.canonical := canonical_advanceTo hs
  clear_value s₁
  have hs₃ : s₃.canonical := hs₁
  clear_value s₃
  have hs₄ : s₄.canonical := by
    unfold s₄
    split
    · exact canonical_setFld hs₃
    · exact hs₃
  exact canonical_bumpFld hs₄

theorem canonical_freezeStart (hs : s.canonical) {k p e} : (s.freezeStart k p e).canonical :=
  canonical_ite hs (canonical_ite (canonical_setFld (canonical_advanceTo hs)) (canonical_advanceTo hs))

theorem canonical_writeFrz (hs : s.canonical) {k p j v part} : (s.writeFrz k p j v part).canonical :=
  canonical_ite (canonical_bumpFld (canonical_setReg hs)) (canonical_setReg hs)

theorem canonical_writeMark (hs : s.canonical) {k p n} : (s.writeMark k p n).canonical :=
  canonical_ite hs (canonical_crkToken (canonical_setFld (canonical_setPath
    (canonical_crkStore (canonical_advanceTo hs)))))

theorem canonical_preamble (hs : s.canonical) {k p} : (s.preamble k p).canonical :=
  canonical_ite hs (canonical_setPath hs)

theorem canonical_sendGain (hs : s.canonical) {k p n} : (s.sendGain k p n).canonical := by
  refine canonical_ite ?_ (canonical_setFld (canonical_setFld (canonical_setPath ?_)))
  all_goals exact hs

theorem canonical_limitEvent (hs : s.canonical) {k p} : (s.limitEvent k p).canonical :=
  canonical_stateEvent (canonical_setFld hs)

theorem canonical_offsetEstimate (hs : s.canonical) {k p f} : (s.offsetEstimate k p f).canonical := by
  unfold State.offsetEstimate
  refine canonical_ite hs ?_
  extract_lets
  rename_i d s₁ _ _ _ _ _ _ _ _ s₂ s₃
  have hs₁ : s₁.canonical := canonical_snd_ite (canonical_draw hs) hs
  clear_value s₁
  have hs₂ : s₂.canonical := canonical_setPath hs₁
  have hs₃ : s₃.canonical := canonical_ite hs₂ (canonical_setFld hs₂)
  exact canonical_ite (canonical_limitEvent hs₃) hs₃

theorem canonical_takeMsg (hs : s.canonical) {k x m stamp} : (s.takeMsg k x m stamp).canonical := by
  unfold State.takeMsg
  split
  · exact canonical_bumpFld hs
  · exact canonical_ite (canonical_takeUplane hs) (canonical_ite (canonical_takeStream hs) (canonical_countFlow hs))

theorem canonical_dropAtPort (hs : s.canonical) {k l} : (s.dropAtPort k l).canonical :=
  canonical_bumpFld hs

theorem canonical_takeHostFrame (hs : s.canonical) {k x fill} : (s.takeHostFrame k x fill).canonical := by
  unfold State.takeHostFrame
  extract_lets p key c s₁ pass
  have hp : p.2.canonical := canonical_police hs
  clear_value p
  have hs₁ : s₁.canonical := canonical_meet hp
  clear_value s₁
  have hpass : (pass s₁).canonical := canonical_ite (by exact hs₁) (canonical_dropAtPort hs₁)
  clear_value pass
  refine canonical_ite (canonical_pmu hp) ?_
  split
  · exact hs₁
  · exact hpass
  · exact canonical_ite hpass (canonical_countIdle hs₁)

theorem canonical_frameRx (hs : s.canonical) {k x fill} : (s.frameRx k x fill).canonical := by
  unfold State.frameRx
  extract_lets s₁ radio
  have hs₁ : s₁.canonical := canonical_pmu (canonical_pmu hs)
  clear_value s₁
  refine canonical_ite hs (canonical_ite (canonical_dropAtPort hs₁) ?_)
  split
  next f _ =>
    have hp : (s₁.police (R.crkFpol.at (20 + k) [f]) x.len).2.canonical := canonical_police hs₁
    exact canonical_ite (canonical_pmu hp) (canonical_ite (canonical_dropAtPort hp)
      (canonical_ite hp (canonical_foldl (fun h => canonical_takeMsg h) hp)))
  · exact canonical_ite (canonical_bumpFld hs₁) (canonical_takeHostFrame hs₁)

theorem canonical_joinQueue (hs : s.canonical) {k l x} : (s.joinQueue k l x).canonical :=
  canonical_ite (canonical_bumpFld hs) (canonical_setPort hs)

theorem canonical_enqueueTx (hs : s.canonical) {k l} : (s.enqueueTx k l).canonical := by
  unfold State.enqueueTx
  dsimp only
  split
  · exact hs
  · exact canonical_joinQueue (by exact hs)

theorem canonical_stampFrame (hs : s.canonical) {k l x} : (s.stampFrame k l x).canonical := by
  unfold State.stampFrame
  extract_lets c d w
  have hd : d.2.canonical := by
    unfold d
    split
    · exact hs
    · exact canonical_draw hs
  exact canonical_ite hs (canonical_emit hd)

theorem canonical_markWait (hs : s.canonical) {k l q} : (s.markWait k l q).canonical := by
  unfold State.markWait
  dsimp only
  split
  · exact hs
  · exact canonical_ite hs (canonical_pmu (canonical_bumpFld (canonical_setPort hs)))

theorem canonical_sendFrame (hs : s.canonical) {k l q start} : (s.sendFrame k l q start).canonical := by
  unfold State.sendFrame
  dsimp only
  split
  · exact hs
  · exact canonical_stampFrame (canonical_pmu (canonical_setPort hs))

theorem canonical_tryQueues (hs : s.canonical) {k l start qs} : (s.tryQueues k l start qs).canonical := by
  induction qs generalizing s with
  | nil => exact hs
  | cons q t ih =>
    unfold State.tryQueues
    split
    · exact ih hs
    · dsimp only
      split
      · exact ih hs
      · exact canonical_ite (canonical_sendFrame hs) (ih (canonical_markWait hs))

theorem canonical_startFrame (hs : s.canonical) {k l} : (s.startFrame k l).canonical :=
  canonical_ite hs (canonical_tryQueues (canonical_advanceTo hs))

theorem canonical_writeGate (hs : s.canonical) {m k l v part} : (s.writeGate m k l v part).canonical := by
  unfold State.writeGate
  extract_lets r old armed w w' s₁ s₂ base
  have hs₁ : s₁.canonical := canonical_setReg hs
  have hs₂ : s₂.canonical := canonical_ite (canonical_refuseReg hs₁) hs₁
  exact canonical_ite hs₂ (canonical_ite (canonical_refuseReg (canonical_setReg hs₂))
    (canonical_setPort (canonical_setReg hs₂)))

theorem canonical_writeGateSet (hs : s.canonical) {m r k ix v part} : (s.writeGateSet m r k ix v part).canonical :=
  canonical_ite (canonical_refuseReg hs) (canonical_setReg hs)

theorem canonical_gateSwitch (hs : s.canonical) {k l} : (s.gateSwitch k l).canonical := by
  unfold State.gateSwitch
  split
  · exact hs
  · exact canonical_foldl (fun h => canonical_foldl (fun h => canonical_joinQueue h) h)
      (canonical_setPort (canonical_setFld (canonical_foldl (fun h => canonical_setReg h) (canonical_advanceTo hs))))

theorem canonical_runFrame (hs : s.canonical) {c} : (s.runFrame c).canonical := by
  refine canonical_ite (canonical_finishCmd ?_) (canonical_ite (canonical_finishCmd ?_)
    (canonical_finishCmd (canonical_addTx ?_)))
  all_goals exact hs

theorem canonical_gateWrite (hs : s.canonical) {m k l v} : (s.gateWrite m k l v).canonical :=
  canonical_guardWrite hs (canonical_writeGate hs)

theorem canonical_emitDigests (hs : s.canonical) {part cmdId code a b} :
    (s.emitDigests part cmdId code a b).canonical := by
  refine canonical_ite (canonical_bumpFld ?_) (canonical_emit (canonical_emit ?_))
  all_goals exact hs

theorem canonical_endInput (hs : s.canonical) {r} : (s.endInput r).canonical := by
  unfold State.endInput
  dsimp only
  split
  · exact canonical_endStep (canonical_memError hs)
  · exact canonical_setStep hs

theorem canonical_closeStep (hs : s.canonical) {r res prov} : (s.closeStep r res prov).canonical :=
  canonical_ite (canonical_setStep hs) hs

theorem canonical_endResult (hs : s.canonical) {r} : (s.endResult r).canonical := by
  unfold State.endResult
  extract_lets p record
  have hr {t : State} {c a b} (ht : t.canonical) : (record t c a b).canonical := canonical_ite
    (canonical_emitDigests ht) ht
  clear_value record
  refine canonical_ite (canonical_closeStep (hr hs)) ?_
  split
  · exact canonical_closeStep (hr (canonical_memError hs))
  · exact canonical_closeStep (hr hs)

theorem canonical_endWset (hs : s.canonical) {c} : (s.endWset c).canonical := by
  unfold State.endWset
  dsimp only
  split
  · exact canonical_finishCmd (canonical_memError hs)
  · exact canonical_finishCmd (canonical_hostStore (by exact hs))

theorem canonical_writeLs (hs : s.canonical) {m v part} : (s.writeLs m v part).canonical := by
  unfold State.writeLs
  extract_lets r w₁ t w₂ st s₁ s₂
  have hs₁ : s₁.canonical := hs
  have hs₂ : s₂.canonical := hs
  exact canonical_ite (canonical_ite (canonical_setReg hs) (canonical_ite (canonical_refuseReg (canonical_setReg hs))
    hs₁))
    (canonical_ite (canonical_setFld (canonical_lsDropPuts hs₂)) hs₂)

theorem canonical_lsRecordPut (hs : s.canonical) {r} : (s.lsRecordPut r).canonical := by
  unfold State.lsRecordPut
  split
  · exact hs
  · extract_lets s₁
    have hs₁ : s₁.canonical := hs
    exact canonical_ite hs₁ (canonical_lsLook (canonical_lsPut (by exact hs₁)))

end Sys2Proof.Machine
end

section
/-! SUPPORT. The form of the memories under recovery, power measurement and the debug commands. -/

namespace Sys2Proof.Machine

variable {s : State}

theorem canonical_cmdReset (hs : s.canonical) {m v} : (s.cmdReset m v).canonical := by
  refine canonical_ite (canonical_triggerReset ?_) (canonical_refuseReg ?_)
  all_goals exact hs

theorem canonical_cmdRelease (hs : s.canonical) {m v} : (s.cmdRelease m v).canonical := by
  unfold State.cmdRelease
  split
  · exact canonical_refuseReg hs
  · exact canonical_moveReset hs

theorem canonical_cmdQuarantine (hs : s.canonical) {m v} : (s.cmdQuarantine m v).canonical := by
  unfold State.cmdQuarantine
  dsimp only
  split
  · exact canonical_refuseReg hs
  · exact canonical_ite (canonical_refuseReg hs) (canonical_ite (by exact hs) (by exact hs))

theorem canonical_cmdUnquarantine (hs : s.canonical) {m v} : (s.cmdUnquarantine m v).canonical := by
  unfold State.cmdUnquarantine
  dsimp only
  split
  · exact canonical_refuseReg hs
  · exact canonical_ite (canonical_refuseReg hs) (by exact hs)

theorem canonical_writeRst (hs : s.canonical) {m v} : (s.writeRst m v).canonical :=
  canonical_ite hs (canonical_ite (canonical_refuseReg hs) (canonical_ite (canonical_cmdReset hs)
    (canonical_ite (canonical_cmdRelease hs) (canonical_ite (canonical_cmdQuarantine hs)
    (canonical_cmdUnquarantine hs)))))

theorem canonical_writeWdog (hs : s.canonical) {v part} : (s.writeWdog v part).canonical :=
  canonical_ite (by exact hs) (canonical_setReg hs)

theorem canonical_writeHb (hs : s.canonical) : s.writeHb.canonical :=
  hs

theorem canonical_remoteWdog (hs : s.canonical) {u k} : (s.remoteWdog u k).canonical := by
  unfold State.remoteWdog
  dsimp only
  split
  · exact canonical_ite hs (canonical_triggerReset (canonical_advanceTo hs))
  · exact hs

theorem canonical_engineWdog (hs : s.canonical) {i q} : (s.engineWdog i q).canonical := by
  refine canonical_ite ?_ (canonical_triggerReset (canonical_advanceTo ?_))
  all_goals exact hs

theorem canonical_heartbeatWdog (hs : s.canonical) : s.heartbeatWdog.canonical := by
  refine canonical_ite ?_ (canonical_triggerReset (canonical_advanceTo ?_))
  all_goals exact hs

theorem canonical_setReplay (hs : s.canonical) {st result cycles} : (s.setReplay st result cycles).canonical := by
  unfold State.setReplay
  extract_lets d old s₁
  have hs₁ : s₁.canonical := canonical_setFld (canonical_setFld (canonical_setFld hs))
  exact canonical_ite hs₁ (canonical_stateEvent hs₁)

theorem canonical_writeReplay (hs : s.canonical) {m v} : (s.writeReplay m v).canonical := by
  unfold State.writeReplay
  have hr : (s.setReplay 1 0 0).canonical := canonical_setReplay hs
  refine canonical_ite hs (canonical_ite (canonical_refuseReg hs) ?_)
  dsimp only
  split
  · exact canonical_refuseReg (canonical_setReplay hs)
  · exact canonical_ite (canonical_refuseReg (canonical_setReplay hs)) (canonical_place (by exact hr))

theorem canonical_closeReplay (hs : s.canonical) {r result} : (s.closeReplay r result).canonical := by
  unfold State.closeReplay
  extract_lets n s₁
  have hs₁ : s₁.canonical := canonical_foldl (fun h => canonical_release (canonical_traceEnd h)) hs
  clear_value s₁
  exact canonical_setReplay (by exact hs₁)

theorem canonical_hangReplay (hs : s.canonical) {r cause cycles} : (s.hangReplay r cause cycles).canonical :=
  canonical_foldl (fun h => canonical_triggerReset h) (canonical_setReplay (by exact hs))

theorem canonical_endReplay (hs : s.canonical) : s.endReplay.canonical := by
  unfold State.endReplay
  refine canonical_ite hs ?_
  split
  · exact canonical_setReplay hs
  · extract_lets t d
    have ht : t.canonical := canonical_ite (canonical_foldl (fun h => canonical_drainUnit h) hs) hs
    exact canonical_ite (canonical_closeReplay hs) (canonical_ite (canonical_closeReplay ht)
      (canonical_hangReplay (canonical_advanceTo (canonical_draw hs))))

theorem canonical_quiesceWdog (hs : s.canonical) {c} : (s.quiesceWdog c).canonical := by
  unfold State.quiesceWdog
  split
  · exact hs
  · split
    · exact hs
    · exact canonical_ite hs (canonical_ite (canonical_hangReplay (canonical_advanceTo hs))
        (canonical_triggerReset (canonical_advanceTo hs)))

theorem canonical_writePd (hs : s.canonical) {m v} : (s.writePd m v).canonical :=
  canonical_ite hs (canonical_ite (canonical_refuseReg hs) (canonical_ite hs
    (canonical_setPd (canonical_ite hs (canonical_loseDomain hs)))))

theorem canonical_endPd (hs : s.canonical) {n} : (s.endPd n).canonical := by
  unfold State.endPd
  split
  · exact hs
  next t _ =>
    have hp : (s.setPd n t).canonical := canonical_setPd hs
    generalize s.setPd n t = u at hp ⊢
    exact canonical_ite (canonical_enterDomain (by exact hp)) (by exact hp)

theorem canonical_setCause (hs : s.canonical) {b high low} : (s.setCause b high low).canonical :=
  canonical_ite (by exact hs) (canonical_ite hs (canonical_ite (by exact hs)
    (canonical_ite (by exact hs) (by exact hs))))

theorem canonical_shed (hs : s.canonical) : s.shed.canonical := by
  refine canonical_foldl (fun h => ?_) hs
  split
  · exact h
  · exact canonical_abortNow h

theorem canonical_setLevel (hs : s.canonical) : s.setLevel.canonical :=
  canonical_ite (canonical_shed (canonical_setFld (canonical_setFld hs))) (canonical_setFld (canonical_setFld hs))

theorem canonical_powerSample (hs : s.canonical) {power rail} : (s.powerSample power rail).canonical := by
  unfold State.powerSample
  extract_lets s₁ l old s₂ s₃
  have hs₁ : s₁.canonical := canonical_advanceTo hs
  clear_value s₁
  have hs₃ : s₃.canonical := hs₁
  exact canonical_setLevel (canonical_setCause (canonical_setCause (canonical_setCause (canonical_setCause hs₃))))

theorem canonical_tempSample (hs : s.canonical) {temps} : (s.tempSample temps).canonical := by
  unfold State.tempSample
  extract_lets s₁ dies t old s₂ s₃
  have hs₁ : s₁.canonical := canonical_advanceTo hs
  clear_value s₁
  have hs₂ : s₂.canonical := hs₁
  have hs₃ : s₃.canonical := canonical_foldl (fun h => canonical_setFld h) hs₂
  exact canonical_setLevel (canonical_setCause (canonical_setCause (canonical_setFld (canonical_setFld hs₃))))

theorem canonical_writePwr (hs : s.canonical) {m v part} : (s.writePwr m v part).canonical :=
  canonical_ite (canonical_refuseReg hs) (canonical_setReg hs)

theorem canonical_setResult (hs : s.canonical) {st} : (s.setResult st).canonical :=
  canonical_setFld hs

theorem canonical_dbgDenied (hs : s.canonical) {p} : (s.dbgDenied p).canonical := by
  refine canonical_ite (canonical_tamper (canonical_setResult ?_)) (canonical_setResult ?_)
  all_goals exact hs

theorem canonical_dbgRefused (hs : s.canonical) : s.dbgRefused.canonical :=
  canonical_setResult hs

/-- A debug command keeps the form where its effect does. -/
theorem canonical_dbgRun (hs : s.canonical) {p level} {k : State → State} (hk : (k s).canonical) :
    (s.dbgRun p level k).canonical :=
  canonical_ite (canonical_dbgDenied hs) hk

theorem canonical_dbgHalt (hs : s.canonical) {t force} : (s.dbgHalt t force).canonical := by
  unfold State.dbgHalt
  split
  · exact canonical_dbgRefused hs
  · exact canonical_ite (canonical_dbgRefused hs) (canonical_setResult (canonical_haltUnit hs))

theorem canonical_dbgResume (hs : s.canonical) {t} : (s.dbgResume t).canonical := by
  unfold State.dbgResume
  split
  · exact canonical_dbgRefused hs
  · exact canonical_ite (canonical_setResult (canonical_ite (canonical_setSeq hs) hs))
      (canonical_setResult (canonical_resumeUnit hs))

theorem canonical_dbgStep (hs : s.canonical) {t n} : (s.dbgStep t n).canonical := by
  unfold State.dbgStep
  split
  · exact canonical_dbgRefused hs
  · exact canonical_ite (canonical_dbgRefused hs) (canonical_setResult (canonical_setSeq (canonical_resumeUnit hs)))

theorem canonical_stepEnd (hs : s.canonical) {u} : (s.stepEnd u).canonical := by
  unfold State.stepEnd
  have hq {t : Nat} {c : Nat} : ((s.advanceTo t).settle u c).canonical := canonical_settle (canonical_advanceTo hs)
  dsimp only
  split
  · exact hs
  · exact canonical_ite hs (canonical_ite (canonical_setSeq hq) (canonical_haltUnit (canonical_setSeq hq)))

theorem canonical_dbgGresume (hs : s.canonical) : s.dbgGresume.canonical := by
  unfold State.dbgGresume
  split
  · exact canonical_dbgRefused hs
  · exact canonical_setResult (by exact hs)

theorem canonical_globalResume (hs : s.canonical) : s.globalResume.canonical := by
  unfold State.globalResume
  split
  · exact hs
  · extract_lets s₁ s₂ s₃ s₄ n
    have hs₁ : s₁.canonical := canonical_advanceTo hs
    have hs₂ : s₂.canonical := canonical_foldl (fun h => canonical_ite (canonical_pmuSync h) h) hs₁
    have hs₃ : s₃.canonical := canonical_setFld hs₂
    have hs₄ : s₄.canonical := canonical_foldl (fun h => canonical_ite (canonical_resumeUnit h) h) hs₃
    clear_value s₄
    exact canonical_ite hs (by exact hs₄)

theorem canonical_setAuth (hs : s.canonical) {off v} : (s.setAuth off v).canonical :=
  canonical_setFld hs

theorem canonical_authNonce (hs : s.canonical) : s.authNonce.canonical :=
  canonical_setResult (canonical_foldl (fun h => canonical_setAuth h) (by exact hs))

theorem canonical_authToken (hs : s.canonical) {p} : (s.authToken p).canonical :=
  canonical_ite (canonical_setResult (by exact hs)) (canonical_dbgDenied hs)

theorem canonical_writeTrcCfg (hs : s.canonical) {m die v part} : (s.writeTrcCfg m die v part).canonical := by
  refine canonical_ite (canonical_setReg (canonical_trcFlush (canonical_trcLoss (canonical_trcFlush ?_))))
    (canonical_ite (canonical_ite (canonical_setReg (canonical_setFld ?_))
    (canonical_refuseReg (canonical_setReg ?_))) (canonical_setReg ?_))
  all_goals exact hs

theorem canonical_writeTrcBase (hs : s.canonical) {m die v part} : (s.writeTrcBase m die v part).canonical :=
  canonical_ite (canonical_setReg hs) (canonical_refuseReg (canonical_ite
    (canonical_setFld (canonical_trcFlush (canonical_setReg hs))) (canonical_setReg hs)))

theorem canonical_writePmu (hs : s.canonical) {r die ix v part} : (s.writePmu r die ix v part).canonical :=
  canonical_setReg (canonical_pmuSync (by exact hs))

theorem canonical_writeWp (hs : s.canonical) {r die ix v part} : (s.writeWp r die ix v part).canonical :=
  canonical_setReg hs

theorem canonical_writeBp (hs : s.canonical) {r die ix v part} : (s.writeBp r die ix v part).canonical :=
  canonical_ite hs (canonical_setReg hs)

theorem canonical_breakHit (hs : s.canonical) {u k} : (s.breakHit u k).canonical := by
  unfold State.breakHit
  dsimp only
  split
  · exact hs
  · refine canonical_ite (canonical_haltUnit ?_) (canonical_ite (canonical_globalStop ?_) (canonical_trace ?_))
    all_goals exact canonical_setSeq (canonical_foldl (fun h => canonical_setBp h) hs)

theorem canonical_writeTw (hs : s.canonical) {fn w v part} : (s.writeTw fn w v part).canonical :=
  canonical_setReg (by exact hs)

theorem canonical_shadowSnap (hs : s.canonical) {p} : (s.shadowSnap p).canonical := by
  unfold State.shadowSnap
  extract_lets d q v temp busy w s₁ s₂
  have hv : v.2.canonical := canonical_draw hs
  clear_value v
  have hs₂ : s₂.canonical := canonical_setFld (canonical_setFld (canonical_setReg (canonical_setReg hv)))
  exact canonical_stateEvent (canonical_bumpFld hs₂)

theorem canonical_shadowMismatch (hs : s.canonical) {p} : (s.shadowMismatch p).canonical := by
  unfold State.shadowMismatch
  split
  · exact hs
  · exact canonical_withdraw (canonical_abortNow (canonical_shadowSnap hs))

theorem canonical_retireRow (hs : s.canonical) {p k} : (s.retireRow p k).canonical :=
  canonical_ite (canonical_setFld (canonical_setSeq hs)) (canonical_withdraw hs)

theorem canonical_writeSpare (hs : s.canonical) {m d l v} : (s.writeSpare m d l v).canonical :=
  canonical_ite hs (canonical_ite (canonical_refuseReg hs) (canonical_retireRow hs))

end Sys2Proof.Machine
end

section
/-! SUPPORT. The form of the memories under the registers' writes, the accesses from outside and the dump of the
state; and what it means for an outcome. -/

namespace Sys2Proof.Machine

variable {s : State}

theorem canonical_holdoverRate (hs : s.canonical) {n} : (s.holdoverRate n).2.canonical :=
  canonical_snd_ite (canonical_draw hs) (canonical_snd_ite hs (canonical_snd_ite hs (canonical_draw hs)))

theorem canonical_servoTo (hs : s.canonical) {n st} : (s.servoTo n st).canonical := by
  unfold State.servoTo
  extract_lets old h s₁ s₂ base s₃
  have hs₁ : s₁.canonical := canonical_ite (canonical_setFld (canonical_holdoverRate hs)) hs
  have hs₂ : s₂.canonical := canonical_setFld hs₁
  have hs₃ : s₃.canonical := canonical_ite (canonical_setBase hs₂) hs₂
  exact canonical_ite hs (canonical_stateEvent hs₃)

theorem canonical_writeTbRate (hs : s.canonical) {n v} : (s.writeTbRate n v).canonical :=
  canonical_setBase (canonical_ite (canonical_setFld hs) (canonical_setFld (canonical_setFld hs)))

theorem canonical_writeTbStep (hs : s.canonical) {n v} : (s.writeTbStep n v).canonical :=
  canonical_setBase hs

theorem canonical_writeSlew (hs : s.canonical) {v part} : (s.writeSlew v part).canonical :=
  canonical_ite hs (canonical_setFld hs)

theorem canonical_requestSwitch (hs : s.canonical) : s.requestSwitch.canonical :=
  canonical_setFld hs

theorem canonical_requestAlign (hs : s.canonical) {m v} : (s.requestAlign m v).canonical :=
  canonical_ite (canonical_refuseReg hs) hs

theorem canonical_writeTbCtrl (hs : s.canonical) {m v part} : (s.writeTbCtrl m v part).canonical := by
  unfold State.writeTbCtrl
  extract_lets s₁ s₂
  have hs₁ : s₁.canonical := canonical_writeSlew hs
  have hs₂ : s₂.canonical := canonical_ite (canonical_requestSwitch hs₁) hs₁
  exact canonical_ite (canonical_requestAlign hs₂) hs₂

theorem canonical_writeTbCfg (hs : s.canonical) {m n v} : (s.writeTbCfg m n v).canonical := by
  unfold State.writeTbCfg
  extract_lets r wd av s₁ s₂ s₃ st s₄
  have hs₃ : s₃.canonical := canonical_setFld (canonical_setFld (canonical_setFld hs))
  have hs₄ : s₄.canonical := canonical_ite hs₃ (canonical_servoTo hs₃)
  exact canonical_ite (canonical_refuseReg hs₄) hs₄

theorem canonical_takeSnap (hs : s.canonical) : s.takeSnap.canonical :=
  have hw {t : State} {k x} (ht : t.canonical) : (t.setReg R.prmTbSnapv 31 [k] x).canonical := canonical_setReg ht
  canonical_setFld (hw (hw (hw (hw (hw (hw hs))))))

theorem canonical_shapedWrite (hs : s.canonical) {r die ix v part shape} :
    (s.shapedWrite r die ix v part shape).canonical :=
  canonical_setReg hs

theorem canonical_writeArith (hs : s.canonical) {m r d l k v part} : (s.writeArith m r d l k v part).canonical :=
  canonical_ite (canonical_refuseReg hs) (canonical_setSeq hs)

theorem canonical_writeAflags (hs : s.canonical) {d l k v part} : (s.writeAflags d l k v part).canonical :=
  canonical_setSeq hs

theorem canonical_writeToken (hs : s.canonical) {u n v part} : (s.writeToken u n v part).canonical :=
  canonical_ite (canonical_setSeq hs) hs

theorem canonical_writeDhl (hs : s.canonical) {m r d ix v part} : (s.writeDhl m r d ix v part).canonical :=
  canonical_ite (canonical_writeSpare hs) (canonical_ite (canonical_writeArith hs)
    (canonical_ite (canonical_writeAflags hs) (canonical_ite (canonical_writeToken hs)
    (canonical_ite (canonical_writeBp hs) (canonical_ite (canonical_writeSpPwr hs)
    (canonical_ite (canonical_shapedWrite hs) (canonical_plainWrite hs)))))))

theorem canonical_writeIrs (hs : s.canonical) {m r d ix v part} : (s.writeIrs m r d ix v part).canonical :=
  canonical_ite (canonical_writeImg hs) (canonical_ite (canonical_writeToken hs)
    (canonical_ite (canonical_writeBp hs) (canonical_ite (canonical_writeEq hs)
    (canonical_ite (canonical_writeStimer hs) (canonical_plainWrite hs)))))

theorem canonical_writeCrk (hs : s.canonical) {m r d ix v part} : (s.writeCrk m r d ix v part).canonical :=
  canonical_ite (canonical_writePortCfg hs) (canonical_ite (canonical_writeCrkSpare hs)
    (canonical_ite (canonical_writeFlow hs) (canonical_ite (canonical_writeFlowWin hs)
    (canonical_ite (canonical_writePath hs) (canonical_ite (canonical_writeCrkWin hs)
    (canonical_ite (canonical_writeFrz hs) (canonical_ite (canonical_writeTcWord hs)
    (canonical_ite (canonical_writeMeter hs) (canonical_ite (canonical_writeMeter hs)
    (canonical_ite (canonical_writeGate hs) (canonical_ite (canonical_writeGateSet hs)
    (canonical_plainWrite hs))))))))))))

theorem canonical_writeLpn (hs : s.canonical) {m r d ix v part} : (s.writeLpn m r d ix v part).canonical :=
  canonical_ite (canonical_nodeWide hs (canonical_writeNode hs))
    (canonical_ite (canonical_nodeWide hs (canonical_writeRegion hs))
      (canonical_ite (canonical_nodeWide hs (canonical_writePeer hs))
      (canonical_ite (canonical_nodeWide hs (canonical_plainWrite hs))
      (canonical_ite (canonical_writeMirrorCmd hs) (canonical_ite (canonical_writeLink hs)
      (canonical_ite (canonical_writeMeter hs) (canonical_ite (canonical_writeMeter hs)
      (canonical_ite (canonical_writeTcWord hs) (canonical_ite (canonical_shapedWrite hs)
      (canonical_plainWrite hs))))))))))

theorem canonical_writeTlp (hs : s.canonical) {m r ix v part} : (s.writeTlp m r ix v part).canonical :=
  canonical_ite (canonical_writeTlpCfg hs) (canonical_ite (canonical_writeTierBase hs)
    (canonical_ite (canonical_writeTierTail hs) (canonical_plainWrite hs)))

theorem canonical_writeTb (hs : s.canonical) {m r ix v part} : (s.writeTb m r ix v part).canonical :=
  canonical_ite (canonical_writeTbCtrl hs) (canonical_ite (canonical_ite (canonical_takeSnap hs) hs)
    (canonical_ite (canonical_writeTbCfg hs) (canonical_ite (canonical_writeTbRate hs)
    (canonical_ite (canonical_writeTbStep hs) (canonical_plainWrite hs)))))

theorem canonical_writeDump (hs : s.canonical) {v} : (s.writeDump v).canonical :=
  canonical_ite hs (by exact hs)

theorem canonical_writePrm (hs : s.canonical) {m r ix v part} : (s.writePrm m r ix v part).canonical :=
  canonical_ite (canonical_writeTb hs) (canonical_ite (canonical_writeFxgCmd hs)
    (canonical_ite (canonical_writeLs hs) (canonical_ite (canonical_shapedWrite hs)
    (canonical_ite (canonical_shapedWrite hs) (canonical_ite hs
    (canonical_ite (canonical_writeTdone hs) (canonical_ite (canonical_writeLc hs)
    (canonical_ite (canonical_writeRst hs) (canonical_ite (canonical_writeWdog hs)
    (canonical_ite (canonical_writeHb hs) (canonical_ite (canonical_writeDump hs)
    (canonical_ite (canonical_shapedWrite hs) (canonical_ite (canonical_shapedWrite hs)
    (canonical_ite (canonical_writeReplay hs) (canonical_ite (canonical_shapedWrite hs)
    (canonical_ite hs (canonical_ite (canonical_writePd hs) (canonical_ite (canonical_writePwr hs)
    (canonical_ite (canonical_writeRingCfg hs) (canonical_ite (canonical_writeTcWord hs)
    (canonical_ite (canonical_writeMeter hs) (canonical_ite (canonical_writeMeter hs)
    (canonical_plainWrite hs)))))))))))))))))))))))

theorem canonical_writeDie (hs : s.canonical) {m r die ix v part} : (s.writeDie m r die ix v part).canonical :=
  canonical_ite (canonical_writeTrcCfg hs) (canonical_ite (canonical_writeTrcBase hs)
    (canonical_ite (canonical_plainWrite hs) (canonical_writePmu hs)))

theorem canonical_writeMsix (hs : s.canonical) {fn i v part} : (s.writeMsix fn i v part).canonical := by
  refine canonical_ite (canonical_sendMsix (canonical_setFld (canonical_shapedWrite ?_))) (canonical_shapedWrite ?_)
  all_goals exact hs

theorem canonical_writeWin (hs : s.canonical) {fn v part} : (s.writeWin fn v part).canonical :=
  canonical_shapedWrite hs

theorem canonical_writeFn (hs : s.canonical) {r fn ix v part} : (s.writeFn r fn ix v part).canonical :=
  canonical_ite (canonical_writeWin hs) (canonical_ite (canonical_writeEvtBase hs)
    (canonical_ite (canonical_writeEvtCfg hs) (canonical_ite (canonical_writeEvtHead hs)
    (canonical_ite (canonical_writeMbCtrl hs) (canonical_ite (canonical_writeMbH2f hs)
    (canonical_ite (canonical_writeTw hs) (canonical_ite (canonical_writeMsix hs) (canonical_plainWrite hs))))))))

theorem canonical_writeFnPf (hs : s.canonical) {r v part} : (s.writeFnPf r v part).canonical :=
  canonical_ite (canonical_writeBoot hs) (canonical_plainWrite hs)

theorem canonical_writeBarReg (hs : s.canonical) {fn r ix v part} : (s.writeBarReg fn r ix v part).canonical :=
  canonical_ite (canonical_writeDoorbell hs) (canonical_ite hs (canonical_writeRingReg hs))

theorem canonical_writeReg (hs : s.canonical) {m r die ix v part} : (s.writeReg m r die ix v part).canonical := by
  unfold State.writeReg
  cases r.kind with
  | dhl => exact canonical_writeDhl hs
  | irs => exact canonical_writeIrs hs
  | crk => exact canonical_writeCrk hs
  | lpn => exact canonical_writeLpn hs
  | phx => exact canonical_plainWrite hs
  | tlp => exact canonical_writeTlp hs
  | prm => exact canonical_writePrm hs
  | fxg => exact canonical_plainWrite hs
  | die => exact canonical_writeDie hs
  | diewp => exact canonical_writeWp hs
  | fn => exact canonical_writeFn hs
  | fnpf => exact canonical_writeFnPf hs
  | bar => exact canonical_writeBarReg hs

/-- A write of a register window keeps the form where a debug command does. -/
theorem canonical_writeWindow (hs : s.canonical) {m x o width v} {dbg : State → Word → State}
    (hd : ∀ {w}, (dbg s w).canonical) : (s.writeWindow m dbg x o width v).canonical := by
  unfold State.writeWindow
  refine canonical_ite (canonical_answer hs) ?_
  split
  · exact canonical_answer hs
  · exact canonical_guardWrite hs (canonical_ite hd (canonical_writeReg hs))

theorem canonical_readWindow (hs : s.canonical) {x o width} : (s.readWindow x o width).canonical := by
  unfold State.readWindow
  refine canonical_ite (canonical_answer hs) ?_
  split
  · exact canonical_answer hs
  · exact canonical_ite (canonical_answer hs) (canonical_answer hs)

theorem canonical_writeMem (hs : s.canonical) {m off data} : (s.writeMem m off data).canonical :=
  canonical_ite (canonical_answer (canonical_access (canonical_store (canonical_intrude hs))))
    (canonical_ite (canonical_answer (canonical_memError hs)) (canonical_answer hs))

theorem canonical_readMem (hs : s.canonical) {m off n} : (s.readMem m off n).canonical :=
  canonical_ite (canonical_answer (canonical_access hs)) (canonical_ite (canonical_answer (canonical_memError hs))
    (canonical_answer hs))

theorem canonical_dbgNested (hs : s.canonical) {m v} : (s.dbgNested m v).canonical :=
  canonical_refuseReg hs

theorem canonical_dbgMem (hs : s.canonical) {p write} : (s.dbgMem p write).canonical := by
  unfold State.dbgMem
  extract_lets a m v s₁ s₂
  have hs₁ : s₁.canonical := by
    unfold s₁
    split
    · exact canonical_ite (canonical_writeWindow hs (canonical_dbgNested hs)) (canonical_readWindow hs)
    · exact canonical_ite (canonical_writeMem hs) (canonical_readMem hs)
  have hs₂ : s₂.canonical := canonical_ite hs₁ (canonical_setReg hs₁)
  exact canonical_ite (canonical_dbgDenied hs) (canonical_ite hs (canonical_setResult (canonical_setFld hs₂)))

theorem canonical_dbgCommand (hs : s.canonical) {p v} : (s.dbgCommand p v).canonical := by
  unfold State.dbgCommand
  dsimp only
  split
  · exact canonical_dbgRun hs (canonical_dbgHalt hs)
  · exact canonical_dbgRun hs (canonical_dbgResume hs)
  · exact canonical_dbgRun hs (canonical_dbgStep hs)
  · exact canonical_dbgRun hs (canonical_setResult (canonical_globalStop hs))
  · exact canonical_dbgRun hs (canonical_dbgGresume hs)
  · exact canonical_dbgMem hs
  · exact canonical_dbgMem hs
  · exact canonical_dbgRun hs (canonical_authNonce hs)
  · exact canonical_dbgRun hs (canonical_authToken hs)
  · exact canonical_dbgRun hs (canonical_dbgRefused hs)

theorem canonical_regWrite (hs : s.canonical) {m off width v} : (s.regWrite m off width v).canonical := by
  unfold State.regWrite
  split
  · exact canonical_writeWindow hs (canonical_dbgCommand hs)
  · exact canonical_answer hs

theorem canonical_regRead (hs : s.canonical) {off width} : (s.regRead off width).canonical := by
  unfold State.regRead
  split
  · exact canonical_readWindow hs
  · exact canonical_answer hs

theorem canonical_dbgArrive (hs : s.canonical) {p v} : (s.dbgArrive p v).canonical := by
  cases p with
  | tap => exact canonical_ite (canonical_dbgCommand hs) hs
  | host m => exact canonical_guardWrite hs (canonical_dbgCommand hs)

theorem canonical_transfer (hs : s.canonical) {x} : (s.transfer x).canonical := by
  unfold State.transfer
  dsimp only
  split
  · exact canonical_ite (canonical_regWrite hs) (canonical_regRead hs)
  · exact canonical_ite hs (canonical_ite (canonical_writeMem hs) (canonical_readMem hs))

theorem canonical_meshRetries (hs : s.canonical) {die n} : (s.meshRetries die n).canonical := by
  induction n generalizing s with
  | zero => exact hs
  | succ n ih => exact ih (canonical_emit (canonical_draw (canonical_draw hs)))

theorem canonical_barDiscard (hs : s.canonical) {fn target space} : (s.barDiscard fn target space).canonical :=
  canonical_answer (canonical_protection hs)

theorem canonical_fnBlock (hs : s.canonical) {fn write o width v} : (s.fnBlock fn write o width v).canonical := by
  unfold State.fnBlock
  refine canonical_ite (canonical_ite (canonical_barDiscard hs) (canonical_answer hs)) ?_
  split
  · exact canonical_answer hs
  · exact canonical_ite (canonical_answer (canonical_writeReg hs)) (canonical_answer hs)

theorem canonical_ringBlock (hs : s.canonical) {fn write o width v} : (s.ringBlock fn write o width v).canonical := by
  unfold State.ringBlock
  generalize (if widthOk o width then findReg (regsOf .bar) (o / 8 * 8) else none) = found
  cases found with
  | none => exact canonical_ite (canonical_barDiscard hs) (canonical_answer hs)
  | some x =>
    exact canonical_ite (canonical_ite (canonical_barDiscard hs) (canonical_answer hs))
      (canonical_ite (canonical_answer (canonical_writeBarReg hs)) (canonical_answer hs))

theorem canonical_bootBlock (hs : s.canonical) {write o n v} : (s.bootBlock write o n v).canonical := by
  refine canonical_ite (canonical_answer ?_) (canonical_ite (canonical_answer ?_) (canonical_answer ?_))
  all_goals exact hs

theorem canonical_aperture (hs : s.canonical) {write o width v} : (s.aperture write o width v).canonical := by
  unfold State.aperture
  extract_lets x off t
  have ht : t.canonical := canonical_ite (canonical_regWrite hs) (canonical_regRead hs)
  exact canonical_ite ht (canonical_ite (canonical_barDiscard ht) (canonical_answer ht))

theorem canonical_bar0 (hs : s.canonical) {fn write off width v} : (s.bar0 fn write off width v).canonical :=
  canonical_ite (canonical_answer hs) (canonical_ite (canonical_fnBlock hs)
    (canonical_ite (canonical_bootBlock hs) (canonical_ite (canonical_answer hs)
    (canonical_ite (canonical_ringBlock hs) (canonical_ite (canonical_aperture hs) (canonical_answer hs))))))

theorem canonical_bar2 (hs : s.canonical) {fn write off len data} : (s.bar2 fn write off len data).canonical := by
  unfold State.bar2
  extract_lets n a t
  have ht : t.canonical := canonical_ite (canonical_writeMem hs) (canonical_readMem hs)
  exact canonical_ite (canonical_answer hs) (canonical_ite hs
    (canonical_ite ht (canonical_ite (canonical_answer ht) (canonical_ite (canonical_barDiscard ht)
    (canonical_answer ht)))))

/-- The host's memory loses the bytes under the scan, then takes its bytes one list after another. -/
theorem canonical_putScan (hs : s.canonical) {at_ x} : (s.putScan at_ x).canonical := by
  have hf : ∀ {l : List (Nat × List Byte)} {h : Tab Byte}, Memory.wf h →
      Memory.wf (l.foldl (fun h e => Memory.writeList h (at_ + e.1) e.2) h) := by
    intro l
    induction l with
    | nil => exact id
    | cons e l ih => exact fun h => ih (Memory.wf_writeList _ _ _ h)
  exact canonical_of_imp hs id fun h => hf (Memory.wf_keep _ _ h)

theorem canonical_endDump (hs : s.canonical) : s.endDump.canonical :=
  hs

theorem canonical_dumpRecord (hs : s.canonical) {j rest die kind unit status} :
    (s.dumpRecord j rest die kind unit status).canonical := by
  unfold State.dumpRecord
  extract_lets x full status len ns hdr s₁ s₂ s₃ s₄ s₅ s₆
  have hs₁ : s₁.canonical := canonical_draw hs
  clear_value s₁
  have hs₂ : s₂.canonical := canonical_hostStore hs₁
  have hs₃ : s₃.canonical := canonical_ite (canonical_putScan hs₂) hs₂
  clear_value s₃
  have hs₄ : s₄.canonical := canonical_ite (by exact hs₃) hs₃
  clear_value s₄
  have hs₅ : s₅.canonical := canonical_setFld hs₄
  have hs₆ : s₆.canonical := canonical_ite (canonical_bumpFld hs₅) hs₅
  clear_value s₆
  exact canonical_ite (canonical_endDump hs₁) (canonical_ite (canonical_endDump hs₆) (by exact hs₆))

theorem canonical_dumpNext (hs : s.canonical) {dead} : (s.dumpNext dead).canonical := by
  unfold State.dumpNext
  split
  · exact hs
  · split
    · exact canonical_endDump hs
    · exact canonical_dumpRecord (canonical_ite (canonical_advanceTo hs) hs)

theorem canonical_dumpSome (hs : s.canonical) {n} : (s.dumpSome n).canonical := by
  induction n generalizing s with
  | zero => exact hs
  | succ n ih => exact ih (canonical_dumpNext hs)

theorem canonical_dumpRest (hs : s.canonical) : s.dumpRest.canonical := by
  unfold State.dumpRest
  split
  · exact hs
  · exact canonical_dumpSome hs

theorem canonical_tapTake (hs : s.canonical) {ir dr} : (s.tapTake ir dr).canonical :=
  canonical_answer (by exact hs)

/-- The next state of an outcome, where it has one, is in the form. -/
def CanonicalNext (o : Host.Outcome State Fault Refusal) : Prop :=
  ∀ t, o = .next t → t.canonical

theorem canonicalNext_next {t : State} (ht : t.canonical) : CanonicalNext (.next t) := by
  rintro _ ⟨⟩
  exact ht

theorem canonicalNext_ite {c : Prop} {inst : Decidable c} {a b : Host.Outcome State Fault Refusal}
    (ha : CanonicalNext a)
    (hb : CanonicalNext b) : CanonicalNext (if c then a else b) := by
  split
  · exact ha
  · exact hb

theorem canonicalNext_choice {c : Prop} {inst : Decidable c} {a b : State} (ha : a.canonical) (hb : b.canonical) :
    CanonicalNext (if c then .next a else .next b) := by
  split
  · exact canonicalNext_next ha
  · exact canonicalNext_next hb

/-- An instruction of the TAP keeps the form where its effect does. -/
theorem canonicalNext_tapRun (hs : s.canonical) {level} {k : State → State} (hk : (k s).canonical) :
    CanonicalNext (s.tapRun level k) :=
  canonicalNext_ite (canonicalNext_next hs) (canonicalNext_choice (canonical_dbgDenied hs) hk)

theorem canonical_dbgOp (hs : s.canonical) {p op v} : (s.dbgOp p op v).canonical :=
  canonical_dbgArrive hs

theorem canonical_mirrorCmd (hs : s.canonical) {m die op v} : (s.mirrorCmd m die op v).canonical :=
  canonical_guardWrite hs (canonical_writeMirrorCmd hs)

theorem canonical_startOther (hs : s.canonical) {r p} : (s.startOther r p).canonical := by
  unfold State.startOther
  split
  · exact hs
  · exact canonical_ite (canonical_startCmd hs) hs

/-- An access of a function's registers keeps the form where its effect does. -/
theorem canonical_fnWrite (hs : s.canonical) {fn} {k : State → State} (hk : (k s).canonical) :
    (s.fnWrite fn k).canonical :=
  canonical_ite (canonical_answer hk) (canonical_answer hs)

end Sys2Proof.Machine
end

section
/-! SUPPORT. The commands whose effect depends on the state that they meet keep the form of the memories. -/

namespace Sys2Proof.Machine

variable {s : State}

theorem canonicalNext_memoryErrorDetected (hs : s.canonical) {u off} : CanonicalNext
    (execMemoryErrorDetected u off s) := by
  refine canonicalNext_ite (canonicalNext_next hs) ?_
  split
  · exact canonicalNext_next (canonical_settleTo hs)
  · split
    · exact canonicalNext_next hs
    · exact canonicalNext_choice hs (canonical_raise (canonical_memError (canonical_settle hs)))

theorem canonicalNext_execPastCodeEnd (hs : s.canonical) {u} : CanonicalNext (execExecPastCodeEnd u s) := by
  unfold execExecPastCodeEnd
  dsimp only
  split
  · exact canonicalNext_next hs
  · exact canonicalNext_choice (canonical_issue hs) hs

theorem canonicalNext_dmaComplete (hs : s.canonical) {u i dt} : CanonicalNext (execDmaComplete u i dt s) := by
  unfold execDmaComplete
  dsimp only
  split
  · exact canonicalNext_next hs
  · refine canonicalNext_ite (canonicalNext_choice hs (canonical_endDma ?_))
      (canonicalNext_next (canonical_landFirst (canonical_ite hs
        (canonical_pmuAt (canonical_bumpFld (canonical_setSeq hs))))))
    exact canonical_foldl (fun h => canonical_intrudeBut h) (canonical_settle hs)

theorem canonicalNext_contextResume (hs : s.canonical) {u} : CanonicalNext (execContextResume u s) := by
  refine canonicalNext_ite (canonicalNext_next hs) ?_
  split
  · exact canonicalNext_next (canonical_settle hs)
  · exact canonicalNext_next (canonical_observe (canonical_setSeq hs))

theorem canonicalNext_remoteReplyArrival (hs : s.canonical) {u k dt} : CanonicalNext
    (execRemoteReplyArrival u k dt s) := by
  unfold execRemoteReplyArrival
  split
  · exact canonicalNext_next hs
  · exact canonicalNext_next (canonical_replyTo hs)

theorem canonicalNext_tokenArrival (hs : s.canonical) {i dt} : CanonicalNext (execTokenArrival i dt s) := by
  unfold execTokenArrival
  split
  · exact canonicalNext_next hs
  · exact canonicalNext_next (canonical_deliverToken (by exact hs))

theorem canonicalNext_unscheduledBankWin (hs : s.canonical) {u mcls bank wr} :
    CanonicalNext (execUnscheduledBankWin u mcls bank wr s) := by
  refine canonicalNext_ite (canonicalNext_next hs) ?_
  cases u with
  | iris n => exact canonicalNext_next (canonical_observe (canonical_setSeq hs))
  | cluster c => exact canonicalNext_next (canonical_countBank
    (canonical_countBank (canonical_observe (canonical_setSeq hs))))

theorem canonicalNext_weightStreamFirstStaging (hs : s.canonical) {u} : CanonicalNext
    (execWeightStreamFirstStaging u s) := by
  unfold execWeightStreamFirstStaging
  dsimp only
  split
  · exact canonicalNext_next hs
  · exact canonicalNext_choice (canonical_setSeq (canonical_settle hs)) hs

theorem canonicalNext_weightStreamHalfRefill (hs : s.canonical) {u extra} :
    CanonicalNext (execWeightStreamHalfRefill u extra s) := by
  unfold execWeightStreamHalfRefill
  extract_lets q n s₁
  have hs₁ : s₁.canonical := canonical_ite hs (canonical_pmuAt (canonical_bumpFld hs))
  clear_value s₁
  refine canonicalNext_ite (canonicalNext_next hs) ?_
  split
  · exact canonicalNext_next (canonical_setSeq hs₁)
  · split
    · exact canonicalNext_choice hs (canonical_setSeq hs₁)
    · exact canonicalNext_next hs

theorem canonicalNext_cmdFrame (hs : s.canonical) {r} : CanonicalNext (execCmdFrame r s) := by
  unfold execCmdFrame
  split
  · exact canonicalNext_next hs
  · exact canonicalNext_choice (canonical_runFrame hs) hs

theorem canonicalNext_cmdWset (hs : s.canonical) {r} : CanonicalNext (execCmdWset r s) := by
  unfold execCmdWset
  split
  · exact canonicalNext_next hs
  · exact canonicalNext_choice (canonical_startCmd hs) hs

theorem canonicalNext_wsetDigestDone (hs : s.canonical) {r} : CanonicalNext (execWsetDigestDone r s) := by
  unfold execWsetDigestDone
  split
  · exact canonicalNext_next hs
  · exact canonicalNext_next (canonical_endWset hs)

theorem canonicalNext_inputDigestDone (hs : s.canonical) {step} : CanonicalNext (execInputDigestDone step s) := by
  unfold execInputDigestDone
  split
  · exact canonicalNext_next hs
  · exact canonicalNext_choice (canonical_endInput hs) hs

theorem canonicalNext_resultDigestDone (hs : s.canonical) {step} : CanonicalNext (execResultDigestDone step s) := by
  unfold execResultDigestDone
  split
  · exact canonicalNext_next hs
  · exact canonicalNext_choice (canonical_endResult hs) hs

theorem canonicalNext_lsRecordPut (hs : s.canonical) {step} : CanonicalNext (execLsRecordPut step s) := by
  unfold execLsRecordPut
  split
  · exact canonicalNext_next hs
  · exact canonicalNext_choice (canonical_lsRecordPut hs) hs

theorem canonicalNext_lsTimeout (hs : s.canonical) {seq} : CanonicalNext (execLsTimeout seq s) := by
  unfold execLsTimeout
  split
  · exact canonicalNext_next hs
  · exact canonicalNext_choice hs (canonical_lsStop (canonical_advanceTo hs))

theorem canonicalNext_dieRateUpdate (hs : s.canonical) {rates} : CanonicalNext (execDieRateUpdate rates s) :=
  canonicalNext_next (canonical_foldl (fun h => canonical_setFld (canonical_setFld (canonical_pmuSync h)))
    (canonical_advanceTo hs))

theorem canonicalNext_radioStepPlacement (hs : s.canonical) : CanonicalNext (execRadioStepPlacement s) := by
  unfold execRadioStepPlacement
  split
  · exact canonicalNext_next hs
  · exact canonicalNext_choice (canonical_place hs) hs

theorem canonicalNext_stepStart (hs : s.canonical) {c dt} : CanonicalNext (execStepStart c dt s) := by
  unfold execStepStart
  split
  · exact canonicalNext_next hs
  · dsimp only
    split
    · exact canonicalNext_next hs
    · exact canonicalNext_choice hs (canonical_setSeq (canonical_trace (canonical_advanceTo hs)))

theorem canonicalNext_stepCommitDecision (hs : s.canonical) {step} : CanonicalNext (execStepCommitDecision step s) :=
    by
  unfold execStepCommitDecision
  split
  · exact canonicalNext_next hs
  · exact canonicalNext_choice (canonical_commitStep hs) hs

theorem canonicalNext_abortAtEdge (hs : s.canonical) {c} : CanonicalNext (execAbortAtEdge c s) := by
  unfold execAbortAtEdge
  split
  · exact canonicalNext_next hs
  · split
    · exact canonicalNext_next hs
    · split
      · exact canonicalNext_next hs
      · refine canonicalNext_ite (canonicalNext_next hs) ?_
        extract_lets s₁ q n s₂
        have hs₂ : s₂.canonical := canonical_cutAt (canonical_advanceTo hs)
        clear_value s₂
        split
        · exact canonicalNext_next hs₂
        · exact canonicalNext_choice hs₂ (canonical_abortOn hs₂)

theorem canonicalNext_faultDrainComplete (hs : s.canonical) {step} : CanonicalNext (execFaultDrainComplete step s) :=
    by
  unfold execFaultDrainComplete
  split
  · exact canonicalNext_next hs
  · exact canonicalNext_choice hs (canonical_endDrained hs)

theorem canonicalNext_commit (hs : s.canonical) {u mis w} : CanonicalNext (execCommit u mis w s) := by
  cases u with
  | iris n => exact canonicalNext_next (canonical_issue hs)
  | cluster p =>
    exact canonicalNext_ite (canonicalNext_next (canonical_shadowMismatch (canonical_issue hs)))
      (canonicalNext_next (canonical_issue hs))

theorem canonicalNext_breakpointHit (hs : s.canonical) {u w} : CanonicalNext (execBreakpointHit u w s) := by
  unfold execBreakpointHit
  split
  · exact canonicalNext_next hs
  · exact canonicalNext_ite (canonicalNext_next hs) (canonicalNext_choice (canonical_breakHit (canonical_settle hs))
      (canonical_settle hs))

theorem canonicalNext_fabricRequestArrival (hs : s.canonical) {ext i} : CanonicalNext
    (execFabricRequestArrival ext i s) := by
  cases ext with
  | some r => exact canonicalNext_next (canonical_arriveReq hs)
  | none =>
    unfold execFabricRequestArrival
    dsimp only
    split
    · exact canonicalNext_next hs
    · exact canonicalNext_next (canonical_arriveReq (by exact hs))

theorem canonicalNext_hotLineServe (hs : s.canonical) {die line} : CanonicalNext (execHotLineServe die line s) := by
  unfold execHotLineServe
  dsimp only
  split
  · exact canonicalNext_next hs
  · split
    · exact canonicalNext_next hs
    · exact canonicalNext_choice hs (canonical_serveReq (canonical_setLine (canonical_advanceTo hs)))

theorem canonicalNext_hotTokenTimeout (hs : s.canonical) {die} : CanonicalNext (execHotTokenTimeout die s) := by
  unfold execHotTokenTimeout
  dsimp only
  split
  · exact canonicalNext_next hs
  · exact canonicalNext_next (canonical_setHome (canonical_advanceTo hs))

theorem canonicalNext_fabricReplyArrival (hs : s.canonical) {die ext i} :
    CanonicalNext (execFabricReplyArrival die ext i s) := by
  cases ext with
  | some p => exact canonicalNext_next (canonical_arriveReply hs)
  | none =>
    unfold execFabricReplyArrival
    dsimp only
    split
    · exact canonicalNext_next hs
    · exact canonicalNext_next (canonical_arriveReply (by exact hs))

theorem canonicalNext_receiptExpiry (hs : s.canonical) {die} : CanonicalNext (execReceiptExpiry die s) := by
  unfold execReceiptExpiry
  dsimp only
  split
  · exact canonicalNext_next hs
  · exact canonicalNext_next (canonical_setHome (canonical_advanceTo hs))

theorem canonicalNext_resyncComplete (hs : s.canonical) {n} : CanonicalNext (execResyncComplete n s) :=
  canonicalNext_ite (canonicalNext_next hs) (canonicalNext_ite
    (canonicalNext_next (canonical_setMirror (canonical_advanceTo hs)))
    (canonicalNext_choice (canonical_setMirror hs) hs))

theorem canonicalNext_mirrorCopyTimeout (hs : s.canonical) {n} : CanonicalNext (execMirrorCopyTimeout n s) := by
  unfold execMirrorCopyTimeout
  dsimp only
  split
  · exact canonicalNext_next hs
  · exact canonicalNext_choice (canonical_toSingle (canonical_advanceTo hs)) hs

theorem canonicalNext_engineQueueToken (hs : s.canonical) {i q} : CanonicalNext (execEngineQueueToken i q s) := by
  unfold execEngineQueueToken
  split
  · exact canonicalNext_next hs
  · split
    · exact canonicalNext_next hs
    · exact canonicalNext_next (canonical_deliverToken (by exact hs))

theorem canonicalNext_sealedWipe (hs : s.canonical) {die} : CanonicalNext (execSealedWipe die s) := by
  unfold execSealedWipe
  dsimp only
  split
  · exact canonicalNext_next hs
  · exact canonicalNext_next (canonical_startWipe (by exact hs))

theorem canonicalNext_hbmTrainingDone (hs : s.canonical) {die ok} : CanonicalNext (execHbmTrainingDone die ok s) :=
  canonicalNext_ite (canonicalNext_next hs) (canonicalNext_choice (by exact hs) (canonical_stateEvent (by exact hs)))

theorem canonicalNext_fenceComplete (hs : s.canonical) {id} : CanonicalNext (execFenceComplete id s) := by
  unfold execFenceComplete
  split
  · exact canonicalNext_next hs
  · exact canonicalNext_choice (canonical_endFencing hs) hs

theorem canonicalNext_drainComplete (hs : s.canonical) {id} : CanonicalNext (execDrainComplete id s) := by
  unfold execDrainComplete
  split
  · exact canonicalNext_next hs
  · exact canonicalNext_choice (canonical_endDraining hs) hs

theorem canonicalNext_resetDone (hs : s.canonical) {id} : CanonicalNext (execResetDone id s) := by
  unfold execResetDone
  split
  · exact canonicalNext_next hs
  · exact canonicalNext_choice (canonical_endReset hs) hs

theorem canonicalNext_resetEscalation (hs : s.canonical) {id} : CanonicalNext (execResetEscalation id s) := by
  unfold execResetEscalation
  split
  · exact canonicalNext_next hs
  · exact canonicalNext_choice hs (canonical_escalate hs)

theorem canonicalNext_doorbell (hs : s.canonical) {fn r v} : CanonicalNext (execDoorbell fn r v s) :=
  canonicalNext_ite (canonicalNext_next (canonical_answer hs))
    (canonicalNext_choice (canonical_answer (canonical_protectBar hs))
    (canonical_answer (canonical_writeDoorbell hs)))

theorem canonicalNext_cmdStep (hs : s.canonical) {r} : CanonicalNext (execCmdStep r s) := by
  unfold execCmdStep
  split
  · exact canonicalNext_next hs
  · exact canonicalNext_next (canonical_submitStep hs)

theorem canonicalNext_copyComplete (hs : s.canonical) {r} : CanonicalNext (execCopyComplete r s) := by
  unfold execCopyComplete
  split
  · exact canonicalNext_next hs
  · exact canonicalNext_next (canonical_finishCopy hs)

theorem canonicalNext_cqStampTimeout (hs : s.canonical) {r slot} : CanonicalNext (execCqStampTimeout r slot s) := by
  unfold execCqStampTimeout
  split
  · exact canonicalNext_next hs
  · exact canonicalNext_next (canonical_setRing (canonical_advanceTo hs))

theorem canonicalNext_mbF2hReply (hs : s.canonical) {fn words} : CanonicalNext (execMbF2hReply fn words s) :=
  canonicalNext_next (canonical_sendMsix (canonical_setFld (canonical_setFld
    (canonical_foldl (fun h => canonical_setReg h) hs))))

theorem canonicalNext_tapExtest (hs : s.canonical) : CanonicalNext (execTapExtest s) :=
  canonicalNext_tapRun hs (canonical_tapTake (canonical_draw hs))

theorem canonicalNext_tapSamplePreload (hs : s.canonical) : CanonicalNext (execTapSamplePreload s) :=
  canonicalNext_tapRun hs (canonical_tapTake (canonical_draw hs))

theorem canonicalNext_tapDbgCmd (hs : s.canonical) {v} : CanonicalNext (execTapDbgCmd v s) :=
  canonicalNext_tapRun hs (canonical_dbgCommand (canonical_tapTake hs))

theorem canonicalNext_tapDbgAddr (hs : s.canonical) {v} : CanonicalNext (execTapDbgAddr v s) :=
  canonicalNext_tapRun hs (canonical_writePrm (canonical_tapTake hs))

theorem canonicalNext_tapDbgData (hs : s.canonical) {v} : CanonicalNext (execTapDbgData v s) :=
  canonicalNext_tapRun hs (canonical_writePrm (canonical_tapTake hs))

theorem canonicalNext_tapDbgStat (hs : s.canonical) : CanonicalNext (execTapDbgStat s) :=
  canonicalNext_tapRun hs (canonical_tapTake hs)

theorem canonicalNext_tapDbgAuth (hs : s.canonical) {v} : CanonicalNext (execTapDbgAuth v s) := by
  refine canonicalNext_tapRun hs ?_
  have h : ((s.tapTake 0x14 (leBytes 2 s.authOfs ++ s.authBytes s.authOfs 4)).setAuth (getField v 11 2 * 4)
      (getField v 47 16)).canonical := canonical_setAuth (canonical_tapTake hs)
  exact h

end Sys2Proof.Machine
end

section
/-! SUPPORT. The form of the memories is kept by every command and by a step. -/

namespace Sys2Proof.Machine

variable {s : State}

/-- Every command, met in a state whose memories have the form, leaves them in it. -/
theorem canonicalNext_exec (hs : s.canonical) {i} : CanonicalNext (exec i s) := by
  cases i with
  | registerWrite => exact canonicalNext_next (canonical_regWrite hs)
  | meshTransfer => exact canonicalNext_next (canonical_transfer (canonical_meshRetries hs))
  | spareRetire => exact canonicalNext_next (canonical_guardWrite hs (canonical_writeSpare hs))
  | nop | add | sub | andOp | orOp | xorOp | shl | shr | sra | mul | min | max | minu | maxu | addi | andi | ori
  | xori | shli | shri | srai | li | lis | cmp | cmpi | cmpf | plog | mov | rdsr | br | call | jr | bskip | loop
  | loopi | idle | yield | halt | amod | ld8 | ld16 | ld32 | ld64 | ldqs | ldqw | ldqt | ldql | st8 | st16 | st32
  | st64 | stqs | bopen | bscale | bclose | sopen | sscale | sclose | wopen | wclose | ldbias | mma | mmak
  | formsw | vpost | vnorm | vbfp | vmaxe | vred | dma | signal | wait | ttest | rld | rst | rat | put | get
  | fwait | gather | compact | route | engjob => exact canonicalNext_next (canonical_issue hs)
  | execPastCodeEnd => exact canonicalNext_execPastCodeEnd hs
  | faultDrainComplete => exact canonicalNext_faultDrainComplete hs
  | memoryErrorDetected => exact canonicalNext_memoryErrorDetected hs
  | resultVisible | macAccumReady | listOpComplete => exact canonicalNext_next (canonical_landFirst hs)
  | contextResume => exact canonicalNext_contextResume hs
  | remoteReplyArrival => exact canonicalNext_remoteReplyArrival hs
  | tokenArrival => exact canonicalNext_tokenArrival hs
  | unscheduledBankWin => exact canonicalNext_unscheduledBankWin hs
  | commit => exact canonicalNext_commit hs
  | weightStreamFirstStaging => exact canonicalNext_weightStreamFirstStaging hs
  | weightStreamHalfRefill => exact canonicalNext_weightStreamHalfRefill hs
  | dmaComplete => exact canonicalNext_dmaComplete hs
  | spCfgLock => exact canonicalNext_next (canonical_guardWrite hs (canonical_plainWrite hs))
  | spPwrCmd => exact canonicalNext_next (canonical_guardWrite hs (canonical_writeSpPwr hs))
  | bankGroupTransitionDone =>
    exact canonicalNext_choice (canonical_endPower hs) (canonical_foldl (fun h => canonical_endPower h) hs)
  | ownerRecordApply => exact canonicalNext_next (canonical_applyOwner hs)
  | sealedWipe => exact canonicalNext_sealedWipe hs
  | sealedWipeComplete => exact canonicalNext_choice (canonical_endWipe hs) hs
  | hbmTrainingDone => exact canonicalNext_hbmTrainingDone hs
  | hbmScrubPass => exact canonicalNext_choice hs (canonical_setFld hs)
  | tlpCfgLock => exact canonicalNext_next (canonical_guardWrite hs (canonical_writeTlpCfg hs))
  | lpddrTrainingDone =>
    exact canonicalNext_choice hs (canonical_tierUp (by exact hs))
  | tierDmaTailWrite => exact canonicalNext_next (canonical_guardWrite hs (canonical_writeTierTail hs))
  | tierDmaBaseWrite => exact canonicalNext_next (canonical_guardWrite hs (canonical_writeTierBase hs))
  | tierDmaDescriptor => exact canonicalNext_next (canonical_startTier hs)
  | tierDmaDescComplete => exact canonicalNext_next (canonical_endTier hs)
  | gateCycleBoundary =>
    exact canonicalNext_ite (canonicalNext_next hs) (canonicalNext_choice (canonical_swap hs) (canonical_boundary hs))
  | gateEntryBoundary =>
    exact canonicalNext_choice hs (canonical_enterEntry (canonical_advanceTo hs))
  | dieRateUpdate => exact canonicalNext_dieRateUpdate hs
  | fxgApply | fxgCancel => exact canonicalNext_next (canonical_guardWrite hs (canonical_writeFxgCmd hs))
  | fxgValidationDone => exact canonicalNext_choice (canonical_fxgValidated hs) hs
  | fxgSwap => exact canonicalNext_choice (canonical_swap hs) hs
  | fxgDrainEmpty => exact canonicalNext_choice (canonical_endDrain hs) hs
  | fxgDrainTimeout =>
    exact canonicalNext_choice (canonical_endDrain (canonical_staleSteps hs)) hs
  | admissionDecision => exact canonicalNext_next (canonical_admission hs)
  | radioStepPlacement => exact canonicalNext_radioStepPlacement hs
  | stepStart => exact canonicalNext_stepStart hs
  | stepCommitDecision => exact canonicalNext_stepCommitDecision hs
  | abortAtEdge => exact canonicalNext_abortAtEdge hs
  | slotTimerTick => exact canonicalNext_choice hs (canonical_timerTick hs)
  | stimerCfgWrite => exact canonicalNext_next (canonical_guardWrite hs (canonical_writeStimer hs))
  | irisImageLoad => exact canonicalNext_next (canonical_guardWrite hs (canonical_writeImg hs))
  | irisImageStart => exact canonicalNext_next (canonical_runImage hs)
  | engineJobStart => exact canonicalNext_next (canonical_startJob hs)
  | fftJob | ldpcDecodeJob | ldpcEncodeJob | polarEncodeJob | polarDecodeJob | demapJob =>
    exact canonicalNext_next (canonical_engine hs)
  | engineJobComplete => exact canonicalNext_next (canonical_endJob hs)
  | engineQueueToken => exact canonicalNext_engineQueueToken hs
  | eqGateWrite => exact canonicalNext_next (canonical_guardWrite hs (canonical_writeEq hs))
  | bhOffer | bhLoadReq | bhFrameReceived | bhFallback => exact canonicalNext_next (canonical_setBh hs)
  | bhAck | bhNack => exact canonicalNext_choice (canonical_setBh hs) hs
  | bhOfferTimeout =>
    exact canonicalNext_choice hs (canonical_setBh (canonical_advanceTo hs))
  | bhHeaderTimeout => exact canonicalNext_next (canonical_setBh (canonical_advanceTo hs))
  | fronthaulFrameRx => exact canonicalNext_next (canonical_frameRx hs)
  | crkSpareMove => exact canonicalNext_next (canonical_guardWrite hs (canonical_writeCrkSpare hs))
  | portTrained => exact canonicalNext_choice (canonical_setPortLanes hs) hs
  | uplinkHeaderWrite => exact canonicalNext_next (canonical_writeHeader hs)
  | downlinkRecordSend => exact canonicalNext_next (canonical_sendDownlink hs)
  | cplaneRecordSend => exact canonicalNext_next (canonical_sendCplane hs)
  | crkPathEnable => exact canonicalNext_next (canonical_guardWrite hs (canonical_writePath hs))
  | txPathBlock => exact canonicalNext_next (canonical_txBlock hs)
  | symbolMarkWrite => exact canonicalNext_next (canonical_writeMark hs)
  | agcPeriodEnd => exact canonicalNext_next (canonical_agcPeriod hs)
  | freezeEntryStart => exact canonicalNext_next (canonical_freezeStart hs)
  | preambleDetect => exact canonicalNext_next (canonical_preamble hs)
  | crkFrzWrite => exact canonicalNext_next (canonical_guardWrite hs (canonical_writeFrz hs))
  | gainControlWordSend => exact canonicalNext_next (canonical_sendGain hs)
  | offsetEstimate => exact canonicalNext_next (canonical_offsetEstimate hs)
  | tcTick | syncWord => exact canonicalNext_next (canonical_advanceTo hs)
  | calendarSlotExpiry => exact canonicalNext_choice hs (canonical_advanceTo hs)
  | ringFetch => exact canonicalNext_next (canonical_ringFetch hs)
  | egressFrameEnqueue => exact canonicalNext_next (canonical_enqueueTx hs)
  | egressFrameStart => exact canonicalNext_next (canonical_startFrame hs)
  | gateListGo | gateEnWrite => exact canonicalNext_next (canonical_gateWrite hs)
  | gateListSwitch => exact canonicalNext_next (canonical_gateSwitch hs)
  | yellowRequestSend => exact canonicalNext_next (canonical_yellowSend hs)
  | nodeLock => exact canonicalNext_next (canonical_guardWrite hs (canonical_nodeWide hs (canonical_writeNode hs)))
  | regionWrite => exact canonicalNext_next (canonical_guardWrite hs
    (canonical_nodeWide hs (canonical_writeRegion hs)))
  | fabricRequestArrival => exact canonicalNext_fabricRequestArrival hs
  | hotLineServe => exact canonicalNext_hotLineServe hs
  | hotTokenTimeout => exact canonicalNext_hotTokenTimeout hs
  | fabricReplyArrival => exact canonicalNext_fabricReplyArrival hs
  | lossRetry => exact canonicalNext_next (canonical_lossRetry hs)
  | hotRetry => exact canonicalNext_next (canonical_hotRetry hs)
  | attemptWindowClose => exact canonicalNext_next (canonical_windowClose hs)
  | outcomeUnknownTimeout => exact canonicalNext_next (canonical_unknownTimeout hs)
  | receiptExpiry => exact canonicalNext_receiptExpiry hs
  | peerTableWrite => exact canonicalNext_next (canonical_guardWrite hs
    (canonical_nodeWide hs (canonical_writePeer hs)))
  | mirrorResync | mirrorPromote | mirrorRelease => exact canonicalNext_next (canonical_mirrorCmd hs)
  | resyncComplete => exact canonicalNext_resyncComplete hs
  | mirrorCopyTimeout => exact canonicalNext_mirrorCopyTimeout hs
  | secondaryCopyTimeout =>
    exact canonicalNext_choice (canonical_setMirror (canonical_advanceTo hs)) hs
  | releaseNotice => exact canonicalNext_choice (canonical_released hs) hs
  | linkConfigWrite => exact canonicalNext_next (canonical_guardWrite hs (canonical_writeLink hs))
  | linkFlitSend => exact canonicalNext_next (canonical_sendFlit hs)
  | flitCrcFail => exact canonicalNext_next (canonical_replayLink hs)
  | linkAckTimeout => exact canonicalNext_next (canonical_ackTimeout hs)
  | laneFault => exact canonicalNext_next (canonical_laneFault hs)
  | laneSpareResume => exact canonicalNext_next (canonical_spareResume hs)
  | linkStallDown => exact canonicalNext_next (canonical_stallDown hs)
  | tbRateWrite => exact canonicalNext_next (canonical_guardWrite hs (canonical_writeTbRate hs))
  | tbStepWrite => exact canonicalNext_next (canonical_guardWrite hs (canonical_writeTbStep hs))
  | tbSwitch | tbAlign => exact canonicalNext_next (canonical_guardWrite hs (canonical_writeTbCtrl hs))
  | tbStateWrite => exact canonicalNext_next (canonical_guardWrite hs (canonical_writeTbCfg hs))
  | servoWatchdog =>
    exact canonicalNext_choice hs (canonical_servoTo (canonical_advanceTo hs))
  | tbSnapshot => exact canonicalNext_next (canonical_guardWrite hs (canonical_ite (canonical_takeSnap hs) hs))
  | replicaValid => exact canonicalNext_choice (by exact hs) hs
  | rclkLockLoss =>
    exact canonicalNext_choice hs (canonical_linkEvent (by exact hs))
  | lsEnable | lsDisable => exact canonicalNext_next (canonical_guardWrite hs (canonical_writeLs hs))
  | lsRecordPut => exact canonicalNext_lsRecordPut hs
  | lsRecordArrival => exact canonicalNext_next (canonical_lsLook hs)
  | lsTimeout => exact canonicalNext_lsTimeout hs
  | inputDigestDone => exact canonicalNext_inputDigestDone hs
  | resultDigestDone => exact canonicalNext_resultDigestDone hs
  | bar0Access => exact canonicalNext_next (canonical_bar0 hs)
  | bar2Access => exact canonicalNext_next (canonical_bar2 hs)
  | bar2WinWrite =>
    exact canonicalNext_choice (canonical_answer (canonical_writeWin hs)) (canonical_answer hs)
  | flrVf => exact canonicalNext_next (canonical_flrVf hs)
  | flrPf => exact canonicalNext_next (canonical_flrPf hs)
  | doorbell => exact canonicalNext_doorbell hs
  | ringEnable => exact canonicalNext_next (canonical_guardWrite hs (canonical_writeRingCfg hs))
  | cmdStep => exact canonicalNext_cmdStep hs
  | cmdCopyH2d | cmdCopyD2h => exact canonicalNext_next (canonical_startOther hs)
  | cmdFabricRld | cmdFabricRst | cmdFabricRat | cmdFabricPut | cmdFabricGet =>
    exact canonicalNext_next (canonical_startFabric hs)
  | cmdWset => exact canonicalNext_cmdWset hs
  | cmdFrame => exact canonicalNext_cmdFrame hs
  | cqStampWrite => exact canonicalNext_next (canonical_guardWrite hs (by exact hs))
  | cqTdoneWrite => exact canonicalNext_next (canonical_guardWrite hs (canonical_writeTdone hs))
  | cqStampTimeout => exact canonicalNext_cqStampTimeout hs
  | evtRingEnable => exact canonicalNext_next (canonical_fnWrite hs (canonical_writeEvtCfg hs))
  | evtHeadWrite => exact canonicalNext_next (canonical_fnWrite hs (canonical_writeEvtHead hs))
  | mbH2fSend | mbF2hClear => exact canonicalNext_next (canonical_fnWrite hs (canonical_writeMbCtrl hs))
  | mbF2hReply => exact canonicalNext_mbF2hReply hs
  | powerGood => exact canonicalNext_choice hs (canonical_awaitImage (by exact hs))
  | porDeassert => exact canonicalNext_next (canonical_powerUp hs)
  | perstDeassert => exact canonicalNext_next (canonical_awaitImage (by exact hs))
  | perstAssert => exact canonicalNext_choice hs (canonical_perst hs)
  | bootGo =>
    exact canonicalNext_choice (canonical_answer (canonical_writeBoot hs)) (canonical_answer hs)
  | bootVerifyDone => exact canonicalNext_next (canonical_endBoot hs)
  | lcTransition => exact canonicalNext_next (canonical_guardWrite hs (canonical_writeLc hs))
  | tamperEvent => exact canonicalNext_next (canonical_tamper hs)
  | spdmGetVersion => exact canonicalNext_next (canonical_spdmVersion hs)
  | spdmGetCapabilities => exact canonicalNext_next (canonical_spdmCapabilities hs)
  | spdmNegotiateAlgorithms => exact canonicalNext_next (canonical_spdmAlgorithms hs)
  | spdmGetDigests => exact canonicalNext_next (canonical_spdmDigests hs)
  | spdmGetCertificate => exact canonicalNext_next (canonical_spdmCertificate hs)
  | spdmChallenge => exact canonicalNext_next (canonical_spdmChallenge hs)
  | spdmGetMeasurements => exact canonicalNext_next (canonical_spdmMeasurements hs)
  | spdmKeyExchange => exact canonicalNext_next (canonical_spdmKeyExchange hs)
  | spdmFinish => exact canonicalNext_next (canonical_spdmFinish hs)
  | spdmEndSession => exact canonicalNext_next (canonical_spdmEnd hs)
  | rstReset | rstRelease | rstQuarantine | rstUnquarantine =>
    exact canonicalNext_next (canonical_guardWrite hs (canonical_writeRst hs))
  | fenceComplete => exact canonicalNext_fenceComplete hs
  | drainComplete => exact canonicalNext_drainComplete hs
  | resetDone => exact canonicalNext_resetDone hs
  | resetEscalation => exact canonicalNext_resetEscalation hs
  | remoteWaitWdog => exact canonicalNext_next (canonical_remoteWdog hs)
  | quiesceWdog => exact canonicalNext_next (canonical_quiesceWdog hs)
  | engineWdog => exact canonicalNext_next (canonical_engineWdog hs)
  | heartbeatWdog => exact canonicalNext_next (canonical_heartbeatWdog hs)
  | heartbeatWrite => exact canonicalNext_next (canonical_guardWrite hs (canonical_writeHb hs))
  | safetyIslandDisagree => exact canonicalNext_next (canonical_triggerReset hs)
  | replayGo => exact canonicalNext_next (canonical_guardWrite hs (canonical_writeReplay hs))
  | replayEnd => exact canonicalNext_next (canonical_endReplay hs)
  | dumpGo => exact canonicalNext_next (canonical_guardWrite hs (canonical_writeDump hs))
  | dumpScanTimeout => exact canonicalNext_next (canonical_dumpNext (canonical_dumpSome hs))
  | tapExtest => exact canonicalNext_tapExtest hs
  | tapIdcode => exact canonicalNext_choice (canonical_tapTake hs) hs
  | tapSamplePreload => exact canonicalNext_tapSamplePreload hs
  | tapDbgCmd => exact canonicalNext_tapDbgCmd hs
  | tapDbgAddr => exact canonicalNext_tapDbgAddr hs
  | tapDbgData => exact canonicalNext_tapDbgData hs
  | tapDbgStat => exact canonicalNext_tapDbgStat hs
  | tapDbgAuth => exact canonicalNext_tapDbgAuth hs
  | tapBypass => exact canonicalNext_choice hs (canonical_tapTake hs)
  | trstAssert | rclkLockRegain => exact canonicalNext_next (by exact hs)
  | dbgHalt | dbgResume | dbgStep | dbgGstop | dbgGresume | dbgMemRd | dbgMemWr | dbgAuthNonce | dbgAuthToken =>
    exact canonicalNext_next (canonical_dbgOp hs)
  | dbgStepEnd => exact canonicalNext_next (canonical_stepEnd hs)
  | dbgStopNAssert => exact canonicalNext_next (canonical_ite (canonical_globalStop hs) hs)
  | globalResume => exact canonicalNext_next (canonical_globalResume hs)
  | breakpointHit => exact canonicalNext_breakpointHit hs
  | trcDisable => exact canonicalNext_next (canonical_guardWrite hs (canonical_writeTrcCfg hs))
  | twCfgWrite =>
    exact canonicalNext_choice (canonical_answer (canonical_writeTw hs)) (canonical_answer hs)
  | pdCmdOn | pdCmdOff => exact canonicalNext_next (canonical_guardWrite hs (canonical_writePd hs))
  | pdTransitionDone => exact canonicalNext_next (canonical_endPd hs)
  | powerSample => exact canonicalNext_choice (canonical_powerSample hs) hs
  | tempSample => exact canonicalNext_choice (canonical_tempSample hs) hs
  | thermtrip => exact canonicalNext_choice hs (by exact hs)
  | pwrCfgWrite => exact canonicalNext_next (canonical_guardWrite hs (canonical_writePwr hs))
  | i3cTelemetryRead =>
    exact canonicalNext_choice (canonical_answer hs) (canonical_answer hs)
  | i3cCardLimit => exact canonicalNext_choice (canonical_answer hs) (by exact hs)
  | porAssert => exact canonicalNext_next (canonical_powerDown hs)
  | fronthaulLaneLoss =>
    exact canonicalNext_choice hs (canonical_linkEvent (canonical_setFld hs))
  | linkTrained => exact canonicalNext_next (canonical_linkTrained hs)
  | linkAckReceived => exact canonicalNext_next (canonical_ackFlits hs)
  | laneMappingNotice => exact canonicalNext_next (canonical_traceLink (canonical_setFld (canonical_setFld hs)))
  | copyComplete => exact canonicalNext_copyComplete hs
  | wsetDigestDone => exact canonicalNext_wsetDigestDone hs
  | dumpComplete => exact canonicalNext_next (canonical_dumpRest hs)

/-- A step keeps the form: on an empty queue one LC tick passes, and a command takes effect on the state that has the
queue's rest. -/
theorem canonicalNext_step (hs : s.canonical) : CanonicalNext (step s) := by
  unfold step
  split
  · exact canonicalNext_next (canonical_tick hs)
  · exact canonicalNext_exec (by exact hs)

/-- Settles O3: every operation of the model that yields a state keeps the form of both memories, so every command,
which is composed of such operations, keeps it too. -/
theorem canonicalKept : Obligations.CanonicalKept :=
  fun _ t hs ht => canonicalNext_step hs t ht

end Sys2Proof.Machine
end

section
/-! SUPPORT. The length of a lane-row operation (R53, R66, R121, R186, R188): the chunks of a dense operand, the lane cycles
of each when no row is skipped, and the end of a deep-form occupancy. -/
namespace Sys2Proof.Machine

/-- A positive number has at least one part. -/
theorem cdiv_pos {a b : Nat} (ha : a ≠ 0) (hb : 0 < b) : 0 < cdiv a b :=
  Nat.div_pos (by omega) hb

/-- With zero skipping off no row of a chunk is skipped (R186). -/
@[simp] theorem zOf_noSkip (s : State) (x : MacCtx) (j : Nat) : s.zOf x false j = 0 := by
  simp [State.zOf, State.skippable]

/-- With zero skipping off every chunk takes a lane cycle for each row (R186). -/
theorem uList_noSkip (s : State) (x : MacCtx) : s.uList x false = List.replicate x.q.length x.t.m := by
  simp [State.uList, List.map_const']

/-- A dense operand has one chunk for every k elements of K (R52). -/
theorem length_chunks_dense (s : State) (u : SeqUnit) {t : Tile} (kk k b : Nat) (src : BSource) (h : t.senc = 0) :
    (s.chunks u t kk k b src).length = cdiv kk k := by
  simp [State.chunks, chunkCount, sencX, h]

/-- Only a block-sparse operand has empty blocks (R186). -/
theorem emptyBlocks_dense {t : Tile} (kk k : Nat) (q : List Chunk) (h : t.senc = 0) : emptyBlocks t kk k q = 0 := by
  simp [emptyBlocks, h]

/-- A cluster's count for n chunks of m lane cycles each, none of them empty, is the dense count (R53, R188). -/
theorem deepCount_replicate (kk m r : Nat) {n : Nat} (hn : 0 < n) :
    deepCount false kk m r (List.replicate n m) 0 = deepDense m r n := by
  have hne : n ≠ 0 := Nat.ne_of_gt hn
  simp [deepCount, deepDense, hne]

variable (s : State) (q : Seq) {x : MacCtx} (zskip : Bool) (t : Nat)

/-- An operation with K = 0 occupies its rows for two cycles (R66). -/
theorem macTiming_zero (hk : x.kk = 0) : (s.macTiming q x zskip t).until_ = t + 2 := by
  simp [State.macTiming, hk]

/-- A deep-form operation occupies its rows for its deep count (R53, R188). -/
theorem macTiming_deep (hk : x.kk ≠ 0) (hw : x.t.wide = false) :
    (s.macTiming q x zskip t).until_ =
      t + deepCount x.u.isIris x.kk x.t.m x.b (s.uList x zskip) (emptyBlocks x.t x.kk x.k x.q) := by
  simp [State.macTiming, hk, hw]

/-- A dense deep-form operation of a cluster, with no row skipped, takes the dense count of its chunks (R53). -/
theorem macTiming_dense (hk : x.kk ≠ 0) (hw : x.t.wide = false) (hs : x.t.senc = 0)
    (hq : x.q = s.chunks x.u x.t x.kk x.k x.b x.src) (h0 : 0 < x.k) (hu : x.u.isIris = false) :
    (s.macTiming q x false t).until_ = t + deepDense x.t.m x.b (cdiv x.kk x.k) := by
  have hlen : x.q.length = cdiv x.kk x.k := by rw [hq, length_chunks_dense s _ _ _ _ _ hs]
  rw [macTiming_deep s q false t hk hw, hu, uList_noSkip, hlen, emptyBlocks_dense _ _ _ hs,
    deepCount_replicate _ _ _ (cdiv_pos hk h0)]

/-- Settles O20: an operation with K = 0 takes two cycles, a dense one of a cluster the dense count of its chunks, and
one of an Iris core a count that names no chunk. -/
theorem macOccupancy : Obligations.MacOccupancy := by
  intro s q x t
  refine ⟨macTiming_zero s q false t, fun hk hw hs hq h0 => ⟨fun hu => ?_, fun hu => ?_⟩⟩
  · exact macTiming_dense s q t hk hw hs hq h0 hu
  · rw [macTiming_deep s q false t hk hw, hu]
    rfl

end Sys2Proof.Machine
end

section
/-! SUPPORT. A result that becomes visible (R54, R75, R95, R110, R191): the first result on its way lands where the unit is
free for its cycle, and a token that no context waits for stays counted. -/
namespace Sys2Proof.Machine

/-- Which context waits on a token depends on what the contexts wait for alone. -/
theorem Seq.waiterOn_congr {q r : Seq} (h : ∀ k, (r.ctx k).st = (q.ctx k).st ∧ (r.ctx k).waitTok = (q.ctx k).waitTok)
    (n : Nat) : r.waiterOn n = q.waiterOn n := by
  simp only [Seq.waiterOn, h]

/-- A context replaced by one that waits as it did leaves the waiting contexts as they were. -/
theorem Seq.waiterOn_setCtx (q : Seq) {k : Nat} {c : Ctx} (hst : c.st = (q.ctx k).st)
    (htok : c.waitTok = (q.ctx k).waitTok) (n : Nat) : (q.setCtx k c).waiterOn n = q.waiterOn n := by
  refine Seq.waiterOn_congr (fun j => ?_) n
  by_cases hj : j = k
  · subst hj
    simp [hst, htok]
  · simp [Seq.ctx_setCtx_ne q c hj]

/-- A token that arrives where there is room and no context waits on it is counted (R110). -/
theorem Seq.addToken_counted {q : Seq} {n : Nat} (t : Nat) (hroom : q.tokens.getD n 0 < 65535)
    (hw : q.waiterOn n = none) :
    q.addToken n t = { q with tokens := q.tokens.put n (q.tokens.getD n 0 + 1) } := by
  have hw' (v : Tab Nat) : ({ q with tokens := v } : Seq).waiterOn n = none := hw
  simp only [Seq.addToken, if_neg (Nat.not_le.mpr hroom), Seq.grant, hw']

variable {s : State} {u : SeqUnit}

/-- A token that arrives where there is room sends no event (R111). -/
theorem arriveToken_room {n : Nat} (t sender : Nat) (hroom : (s.seq u).tokens.getD n 0 < 65535) :
    s.arriveToken u n t sender = s.setSeq u ((s.seq u).addToken n t) := by
  simp only [State.arriveToken, if_neg (Nat.not_le.mpr hroom)]

/-- The one result on its way, where a test picks it and the unit is free for its cycle, lands in that cycle. -/
theorem landFirst_of_pend_one {x : Pend} {p : Effect → Bool} (h : (s.seq u).pend = [x]) (hp : p x.what = true)
    (hf : (s.seq u).free x.due = true) :
    s.landFirst u p = (s.setSeq u { s.seq u with pend := [], cyc := max (s.seq u).cyc x.due }).land u x := by
  have hdue : (s.seq u).dueOf p = some x.due := by simp [Seq.dueOf, h, hp]
  simp [State.landFirst, hdue, State.settleTo, hf, State.settle, h]

/-- A sequencer with a lane-row operation's entries written and its flags added to those of context k (R54, R75). -/
def Seq.macLanded (q : Seq) (k : Nat) (cells : List (Nat × BitVec 32)) (f : AFlags) : Seq :=
  { q with
    acc := cells.foldl (fun a e => a.put e.1 e.2) q.acc
    ctxs := q.ctxs.put k { q.ctx k with aflags := (q.ctx k).aflags ||| f } }

section
variable (q : Seq) (k : Nat) (cells : List (Nat × BitVec 32)) (f : AFlags)

@[simp] theorem Seq.macLanded_tokens : (q.macLanded k cells f).tokens = q.tokens := rfl

@[simp] theorem Seq.macLanded_waiterOn (n : Nat) : (q.macLanded k cells f).waiterOn n = q.waiterOn n :=
  Seq.waiterOn_setCtx q (k := k) (c := { q.ctx k with aflags := (q.ctx k).aflags ||| f }) rfl rfl n

end

/-- A counted lane-row operation's result lands and sends its unit token 63 (R54, R191). -/
theorem land_mac (due k : Nat) (cells : List (Nat × BitVec 32)) (f : AFlags) :
    s.land u ⟨due, k, .mac cells f true⟩ =
      (s.setSeq u ((s.seq u).macLanded k cells f)).arriveToken u 63 due (s.masterCode (.unit u)) := by
  simp only [State.land, State.onCtx, State.seq_setSeq, State.setSeq_setSeq, if_true]
  rfl

/-- Where token 63 has room and no context waits on it, the result leaves the token counted and nothing else (R110). -/
theorem land_mac_counted {q : Seq} (due k : Nat) (cells : List (Nat × BitVec 32)) (f : AFlags)
    (hw : q.waiterOn 63 = none) (hroom : q.tokens.getD 63 0 < 65535) :
    (s.setSeq u q).land u ⟨due, k, .mac cells f true⟩ = s.setSeq u { q.macLanded k cells f with
      tokens := q.tokens.put 63 (q.tokens.getD 63 0 + 1) } := by
  have hadd := Seq.addToken_counted (q := q.macLanded k cells f) due hroom ((Seq.macLanded_waiterOn ..).trans hw)
  rw [land_mac, State.seq_setSeq, State.setSeq_setSeq, arriveToken_room _ _ (by rw [State.seq_setSeq]; exact hroom),
    State.seq_setSeq, State.setSeq_setSeq, hadd, Seq.macLanded_tokens]

/-- Settles O21: the one result on its way lands, and its completion is counted. -/
theorem macReady : Obligations.MacReady := by
  intro s n k due cells f u q hpend hfree hw hroom
  exact ⟨_, rfl, (landFirst_of_pend_one hpend rfl hfree).trans (land_mac_counted due k cells f hw hroom)⟩

end Sys2Proof.Machine
end

section
/-! SUPPORT. A bundle with an XFER operation alone (R83, R88, R95): its effects, what it changes of its unit at once, and the
state that it leaves where its one result comes later than the end of its cycle. -/
namespace Sys2Proof.Machine

/-- The loop ends that a bundle meets change the context's loop registers alone (R101). -/
theorem Ctx.loopEndAt_eq (pc n : Nat) (c : Ctx) : (c.loopEndAt pc n).1 = { c with l := (c.loopEndAt pc n).1.l } := by
  induction n generalizing c with
  | zero => rfl
  | succ n ih =>
    unfold Ctx.loopEndAt
    split
    · rfl
    · split
      · rfl
      · split
        · rfl
        · exact ih _

/-- A bundle that falls through leaves its context but for the program counter and the loop registers (R101). -/
theorem nextBundle_next_eq (c : Ctx) (t : Nat) :
    (nextBundle c .next t).1 = { c with pc := (nextBundle c .next t).1.pc, l := (nextBundle c .next t).1.l } :=
  congrArg (fun d : Ctx => { d with pc := (c.loopEndAt c.pc 8).2.getD (c.pc + 1) }) (Ctx.loopEndAt_eq c.pc 8 c)

/-- With one result on its way that is not due, settling only moves the unit's present cycle. -/
theorem settle_later (s : State) (u : SeqUnit) (q : Seq) (x : Pend) (t : Nat) (hq : q.pend = [x]) (hx : t < x.due) :
    (s.setSeq u q).settle u t = s.setSeq u { q with cyc := max q.cyc t } := by
  simp [State.settle, hq, Nat.not_le.mpr hx]

/-- The state in the cycle of issue differs from the present one in the unit's sequencer alone. -/
theorem issuing_eq (s : State) (u : SeqUnit) (h : (s.seq u).pend = []) :
    s.issuing u = s.setSeq u { s.seq u with pend := [], cyc := max (s.seq u).cyc (s.seq u).next, bpPass := false } := by
  simp [State.issuing, settle_of_pend_nil s u _ h]

/-- With no watch halt due, none falls. -/
theorem watchHalt_none {s : State} {u : SeqUnit} (h : (s.seq u).dbgWatch = none) (t : Nat) : s.watchHalt u t = s := by
  simp only [State.watchHalt, h]

variable {s : State} {u : SeqUnit} {q : Seq} {c : Ctx} {k t : Nat} {p : BitVec 4} {op : XferOp}

/-- The effects of an XFER operation alone under a true predicate. -/
theorem effects_xfer (hp : c.pred p = true) :
    s.bundleEffects u q c k t ((aloneIn p).withXfer op) = s.xferEffects u q c k t op := by
  show ctlEffects q c t .nop ++ (if c.pred p then _ else _) = _
  rw [if_pos hp]
  rfl

/-- What an XFER operation alone changes of its unit at once. -/
theorem unit_xfer (hp : c.pred p = true) :
    s.bundleUnit u q c k t ((aloneIn p).withXfer op) = s.xferUnit u q c k t op q := by
  show (if c.pred p then _ else _) = _
  rw [if_pos hp]
  rfl

/-- A bundle with an XFER operation alone that raises nothing, on an unobserved device, where the operation neither acts beyond
its unit nor waits: its effects are put on their way and its context goes on. -/
theorem run_xfer (hs : s.unobserved) (hu : unitDie u < 32) (hp : ((s.seq u).ctx k).pred p = true)
    (hwait : s.xferWait u (s.seq u) k op = .none)
    (hglob : ∀ r : State, r.xferGlobal u (s.seq u) ((s.seq u).ctx k) k t op = r) :
    s.runBundle u k t ((aloneIn p).withXfer op) =
      let q := s.seq u
      let c := q.ctx k
      let q2 := (s.xferEffects u q c k t op).foldl (fun q e => q.push (t + e.1) k e.2) (s.xferUnit u q c k t op q)
      s.setSeq u (q2.flow u k t (q2.ctx k) .next .none) := by
  have htaken : ((s.seq u).ctx k).pred ((aloneIn p).withXfer op).pred = true := hp
  have htensor : s.tensorEffects u (s.seq u) ((s.seq u).ctx k) (((aloneIn p).withXfer op).vec.getD .nop) = [] := by
    show s.tensorEffects u _ _ .nop = []
    simp [State.tensorEffects, vecTile]
  have hx : ((aloneIn p).withXfer op).xfer.getD .nop = op := rfl
  have hdraws : s.bundleDraws (s.seq u) ((s.seq u).ctx k) ((aloneIn p).withXfer op) = 0 := by
    rw [State.bundleDraws, if_pos htaken]
    rfl
  have hloop (c : Ctx) : startLoop c ((aloneIn p).withXfer op) = c := rfl
  have hflow (c : Ctx) : ctlFlow c (((aloneIn p).withXfer op).ctl.getD .nop) = .next := rfl
  unfold State.runBundle
  simp only [effects_xfer hp, unit_xfer hp, htaken, htensor, hx, hdraws, hwait, hglob, hloop, hflow, if_true,
    List.append_nil]
  generalize List.foldl _ _ _ = q2
  have hfree : State.setSeq { s with free := s.free + 0 } u q2 = s.setSeq u q2 := rfl
  rw [hfree]
  have h2 : (s.setSeq u q2).unobserved := unobserved_congr (s := s) rfl hs
  simp only [seen_off h2 hu, State.seq_setSeq, State.setSeq_setSeq]
  rfl

/-- A sequencer that differs from `q` in what its own cycle moves, and in context k as it goes on, is what an issued bundle
leaves. -/
theorem issued_setSeq {q r : Seq} {c c' : Ctx} {pend : List Pend}
    (hr : r = { q.setCtx k c' with cyc := r.cyc, next := r.next, bpPass := false, pend := pend })
    (hctxs : q.ctxs = (s.seq u).ctxs) (hc : c' = { c with pc := c'.pc, l := c'.l }) :
    s.issued (s.setSeq u r) u k q c pend := by
  have hk : r.ctx k = c' := by rw [hr]; exact Seq.ctx_setCtx q k c'
  refine ⟨by rw [State.seq_setSeq], ?_, ?_, fun j hj => ?_, fun _ => rfl⟩
  · rw [State.seq_setSeq, hr]
    rfl
  · rw [State.seq_setSeq, hk]
    exact hc
  · have hj' : r.ctx j = q.ctx j := by rw [hr]; exact Seq.ctx_setCtx_ne q c' hj
    rw [State.seq_setSeq, hj', Seq.ctx, hctxs, Seq.ctx]

/-- A poised context's XFER operation that raises nothing and whose one result comes later than the end of its cycle: the
result is on its way, and beyond what the operation changes of its unit at once nothing but the context's place in its code
moves. -/
theorem issued_xfer {q' : Seq} {lat : Nat} {e : Effect} (h : s.poised u k)
    (hp : ((s.seq u).ctx k).pred p = true) (ha : s.admits u k ((aloneIn p).withXfer op))
    (hwait : (s.issuing u).xferWait u ((s.issuing u).seq u) k op = .none)
    (hglob : ∀ r : State, r.xferGlobal u ((s.issuing u).seq u) ((s.seq u).ctx k) k (s.seq u).next op = r)
    (heff : (s.issuing u).xferEffects u ((s.issuing u).seq u) ((s.seq u).ctx k) k (s.seq u).next op = [(lat, e)])
    (hlat : 1 < lat)
    (hunit : (s.issuing u).xferUnit u ((s.issuing u).seq u) ((s.seq u).ctx k) k (s.seq u).next op
        ((s.issuing u).seq u) =
      { q' with pend := [], cyc := max (s.seq u).cyc (s.seq u).next, bpPass := false })
    (hctxs : q'.ctxs = (s.seq u).ctxs) (hwatch : q'.dbgWatch = none) :
    s.issued (s.issue u ((aloneIn p).withXfer op)) u k q' ((s.seq u).ctx k) [⟨(s.seq u).next + lat, k, e⟩] := by
  have ⟨hdie, _, _, hpend, _, _, _, hobs⟩ := h
  have hseq := issuing_seq s u hpend
  have hiss := issuing_eq s u hpend
  have hctx : ((s.issuing u).seq u).ctx k = (s.seq u).ctx k := by rw [hseq]; rfl
  have hc : q'.ctx k = (s.seq u).ctx k := by rw [Seq.ctx, hctxs, Seq.ctx]
  have hobs' (r : Seq) : (s.setSeq u r).unobserved := unobserved_congr (s := s) rfl hobs
  have hu : unitDie u < 32 := by omega
  rw [issue_of_poised s u k _ h ha]
  have hrun := run_xfer (s := s.issuing u) (u := u) (k := k) (t := (s.seq u).next) (p := p) (op := op)
    (by rw [hiss]; exact hobs' _) hu (by rw [hctx]; exact hp) hwait (by rw [hctx]; exact hglob)
  simp only [hctx, heff, hunit, List.foldl_cons, List.foldl_nil, Seq.push, insertPend] at hrun
  rw [hrun, hiss, State.setSeq_setSeq]
  rw [settle_later _ _ _ ⟨(s.seq u).next + lat, k, e⟩ _ rfl (by show _ < _ + _; omega), observe_off (hobs' _) hu,
    watchHalt_none (by rw [State.seq_setSeq]; exact hwatch)]
  exact issued_setSeq rfl hctxs (hc ▸ nextBundle_next_eq (q'.ctx k) (s.seq u).next)

end Sys2Proof.Machine
end

section
/-! SUPPORT. The list operations (R174, R195 to R202): what they leave outstanding as they issue, and their end. -/
namespace Sys2Proof.Machine

/-- A unit with a list operation more outstanding, and ROUTE's choices counted (R174, R209). -/
def Seq.listIssued (q : Seq) (d : Dma) (l : ListOp) : Seq :=
  { q with dmas := q.dmas ++ [d], nextId := q.nextId + 1, placed := q.placed + l.placed,
           redirected := q.redirected + l.redirected, dropped := q.dropped + l.dropped }

section
variable (s : State) (u : SeqUnit) (q : Seq) (c : Ctx) (k t : Nat) (f : DForm)

/-- GATHER is one more list operation outstanding (R174). -/
theorem xferUnit_gather : s.xferUnit u q c k t (.gather f) q =
    q.listIssued (s.listDma q c k (.gather f) f) (s.listRun c (.gather f) f) := rfl

/-- COMPACT is one more list operation outstanding (R174). -/
theorem xferUnit_compact : s.xferUnit u q c k t (.compact f) q =
    q.listIssued (s.listDma q c k (.compact f) f) (s.listRun c (.compact f) f) := rfl

/-- ROUTE is one more list operation outstanding, and a nondeterminism event where its counts are shared (R174, R460). -/
theorem xferUnit_route : s.xferUnit u q c k t (.route f) q =
    { q.listIssued (s.listDma q c k (.route f) f) (s.listRun c (.route f) f) with
      ndRoute := if (routeP (c.rs f.ss).toNat).shared then satAdd q.ndRoute 1 65535 else q.ndRoute } := by
  show (if (routeP (c.rs f.ss).toNat).shared then _ else _) = _
  cases (routeP (c.rs f.ss).toNat).shared <;> rfl

end

/-- GATHER writes for each place of its list the row that it names, or zeros (R201). -/
theorem gatherOp_write (s : State) (pw a b x : Nat) {i : Nat} (h : i ≤ bitsOf pw 15 0) :
    (s.gatherOp pw a b x).writes[i]? =
      some (b + i * (64 * bitsOf pw 23 16),
        if s.num (x + 4 * i) 4 < bitsOf pw 47 24 then
          s.bytes (a + s.num (x + 4 * i) 4 * (64 * bitsOf pw 23 16)) (64 * bitsOf pw 23 16)
        else List.replicate (64 * bitsOf pw 23 16) 0) := by
  have hi : (List.range (bitsOf pw 15 0 + 1))[i]? = some i := List.getElem?_range (Nat.lt_succ_of_le h)
  simp only [State.gatherOp, List.getElem?_map, hi, Option.map_some]

/-- An operation of the XFER slot that is a list operation with the fields of f (R174). -/
def isListOp (op : XferOp) (f : DForm) : Prop := op = .gather f ∨ op = .compact f ∨ op = .route f

section
variable (s : State) (u : SeqUnit) (q : Seq) (c : Ctx) (k t : Nat) {op : XferOp} {f : DForm}

/-- No list operation is a switch point (R86). -/
theorem wait_list (hop : isListOp op f) : s.xferWait u q k op = .none := by
  obtain rfl | rfl | rfl := hop <;> rfl

/-- No list operation acts beyond its unit as it issues. -/
theorem global_list (hop : isListOp op f) : s.xferGlobal u q c k t op = s := by
  obtain rfl | rfl | rfl := hop <;> rfl

/-- The one result of a list operation is its end (R174). -/
theorem effects_list (hop : isListOp op f) :
    s.xferEffects u q c k t op = [(16 + cdiv (s.listRun c op f).bound 512, .dmaEnd q.nextId)] := by
  obtain rfl | rfl | rfl := hop <;> rfl

end

section
variable {s : State} {u : SeqUnit}

/-! Stores of a step where no word is in error. -/

/-- Where no word is in error a step's store lands (R243). -/
theorem stepStore_sound (h : s.badWords = []) (off : Nat) (bs : List Byte) : s.stepStore u off bs = s.store off bs := by
  have hnone : (eccWords off bs.length).find? (fun a => s.badWords.contains a &&
      !(decide (off ≤ a) && decide (a + eccWidth (regionOf off) ≤ off + bs.length))) = none := by simp [h]
  simp only [State.stepStore, hnone]

/-- A store brings no word in error (R243). -/
theorem badWords_store (h : s.badWords = []) (off : Nat) (bs : List Byte) : (s.store off bs).badWords = [] := by
  simp [State.store, h]

/-- Where no word is in error a step's stores all land (R243). -/
theorem stepStores_sound (h : s.badWords = []) (l : List (Nat × List Byte)) :
    l.foldl (fun s e => s.stepStore u e.1 e.2) s = s.storeAll l := by
  induction l generalizing s with
  | nil => rfl
  | cons e l ih =>
    rw [List.foldl_cons, stepStore_sound h, ih (badWords_store h _ _)]
    rfl

/-- Stores change memory and its words in error alone. -/
theorem storeAll_eq (s : State) (l : List (Nat × List Byte)) :
    s.storeAll l = { s with mem := (s.storeAll l).mem, badWords := (s.storeAll l).badWords } := by
  induction l generalizing s with
  | nil => rfl
  | cons e l ih => exact (ih (s.store e.1 e.2)).trans rfl

/-- Stores and the replacement of a sequencer do not meet. -/
theorem storeAll_setSeq (s : State) (q : Seq) (l : List (Nat × List Byte)) :
    (s.setSeq u q).storeAll l = (s.storeAll l).setSeq u q := by
  induction l generalizing s with
  | nil => rfl
  | cons e l ih => exact ih (s.store e.1 e.2)

/-- Stores leave the codes of the masters. -/
theorem masterCode_storeAll (s : State) (l : List (Nat × List Byte)) (m : Master) :
    (s.storeAll l).masterCode m = s.masterCode m := by
  rw [storeAll_eq]
  rfl

/-- A DMA or list operation that read no word in error ends, on an unobserved device without words in error: its bytes are
stored, it leaves the outstanding list and its token is on its way (R105, R171, R174). -/
theorem endDma_sound {d : Dma} {tok : TokenTarget} (hs : s.unobserved) (hb : s.badWords = []) (hbad : d.bad = none)
    (htok : d.token = some tok) (hw : (s.seq u).dbgWatch = none) :
    s.endDma u d =
      ((s.storeAll d.writes).setSeq u { s.seq u with dmas := (s.seq u).dmas.filter (fun x => x.id != d.id) }).sendToken
        tok (s.masterCode (.unit u)) (s.seq u).part (s.seq u).radio := by
  have hobs (q : Seq) : ((s.storeAll d.writes).setSeq u q).unobserved :=
    unobserved_congr (s := s) (by rw [storeAll_eq]; rfl) hs
  have hcode (q : Seq) : ((s.storeAll d.writes).setSeq u q).masterCode (.unit u) = s.masterCode (.unit u) :=
    masterCode_storeAll s d.writes (.unit u)
  simp only [State.endDma, hbad, htok]
  rw [stepStores_sound (s := s.setSeq u _) hb, storeAll_setSeq, accessAll_off (hobs _), accessAll_off (hobs _),
    watchHalt_none (by rw [State.seq_setSeq]; exact hw), hcode]

/-- A DMA or list operation that no wipe holds ends as its end lands (R95, R229). -/
theorem land_dmaEnd {d : Dma} (due k : Nat) {id : Nat} (hd : (s.seq u).dmas.find? (fun e => e.id == id) = some d)
    (hheld : d.held = false) : s.land u ⟨due, k, .dmaEnd id⟩ = s.endDma u d := by
  simp only [State.land, hd, hheld, Bool.false_eq_true, if_false]

/-- The end of the one DMA or list operation outstanding, the one result due, lands (R95, R174): its bytes are stored, nothing
is outstanding and its token is on its way. -/
theorem landFirst_dmaEnd {d : Dma} {k due : Nat} {tok : TokenTarget} {pick : Effect → Bool} (hs : s.unobserved)
    (hb : s.badWords = []) (hw : (s.seq u).dbgWatch = none) (hd : (s.seq u).dmas = [d])
    (hpend : (s.seq u).pend = [⟨due, k, .dmaEnd d.id⟩]) (hpick : pick (.dmaEnd d.id) = true)
    (hfree : (s.seq u).free due = true) (hheld : d.held = false) (hbad : d.bad = none) (htok : d.token = some tok) :
    s.landFirst u pick =
      ((s.storeAll d.writes).setSeq u { s.seq u with pend := [], dmas := [], cyc := max (s.seq u).cyc due }).sendToken
        tok (s.masterCode (.unit u)) (s.seq u).part (s.seq u).radio := by
  have hfound : (s.seq u).dmas.find? (fun e => e.id == d.id) = some d := by simp [hd]
  have hgone : (s.seq u).dmas.filter (fun e => e.id != d.id) = [] := by simp [hd]
  rw [landFirst_of_pend_one hpend hpick hfree, land_dmaEnd due k (by rw [State.seq_setSeq]; exact hfound) hheld,
    endDma_sound (s := s.setSeq u _) (unobserved_congr (s := s) rfl hs) hb hbad htok
      (by rw [State.seq_setSeq]; exact hw)]
  simp only [State.seq_setSeq, storeAll_setSeq, State.setSeq_setSeq, hgone]
  rfl

/-- A poised context's list operation that raises nothing is outstanding until its end comes (R174). -/
theorem issued_list {k : Nat} {p : BitVec 4} {op : XferOp} {f : DForm} {q' : Seq} (hop : isListOp op f)
    (h : s.poised u k) (hp : ((s.seq u).ctx k).pred p = true) (ha : s.admits u k ((aloneIn p).withXfer op))
    (hunit : (s.issuing u).xferUnit u ((s.issuing u).seq u) ((s.seq u).ctx k) k (s.seq u).next op
        ((s.issuing u).seq u) =
      { q' with pend := [], cyc := max (s.seq u).cyc (s.seq u).next, bpPass := false })
    (hctxs : q'.ctxs = (s.seq u).ctxs) (hwatch : q'.dbgWatch = (s.seq u).dbgWatch) :
    s.issued (s.issue u ((aloneIn p).withXfer op)) u k q' ((s.seq u).ctx k)
      [⟨(s.seq u).next + (16 + (((s.issuing u).listRun ((s.seq u).ctx k) op f).bound + 511) / 512), k,
        .dmaEnd (s.seq u).nextId⟩] := by
  have ⟨_, _, _, hpend, hw, _⟩ := h
  have heff := effects_list (s.issuing u) u ((s.issuing u).seq u) ((s.seq u).ctx k) k (s.seq u).next hop
  have hid : ((s.issuing u).seq u).nextId = (s.seq u).nextId := by rw [issuing_seq s u hpend]
  rw [hid] at heff
  exact issued_xfer h hp ha (wait_list _ _ _ _ hop) (fun _ => global_list _ _ _ _ _ _ hop) heff (by omega) hunit hctxs
    (hwatch.trans hw)

end

/-- Settles O26: a list operation issues as an XFER operation whose one result is its end, GATHER's writes are read off its
definition, and the end that lands stores the writes and sends the token. -/
theorem listOps : Obligations.ListOps := by
  refine ⟨?_, fun s pw a b x _ i hi => gatherOp_write s pw a b x hi, ?_⟩
  · intro s u k f p h q c s0 l left pend hp
    have ⟨_, _, _, hpend, _⟩ := h
    have hseq := issuing_seq s u hpend
    refine ⟨fun ha => ⟨_, rfl, ?_⟩, fun ha => ⟨_, rfl, ?_⟩, fun ha => ⟨_, rfl, ?_⟩⟩
    · refine issued_list (.inl rfl) h hp ha ?_ rfl rfl
      simp only [left, l, s0, c, q, hseq, xferUnit_gather, Seq.listIssued]
    · refine issued_list (.inr (.inl rfl)) h hp ha ?_ rfl rfl
      simp only [left, l, s0, c, q, hseq, xferUnit_compact, Seq.listIssued]
    · refine issued_list (.inr (.inr rfl)) h hp ha ?_ rfl rfl
      simp only [left, l, s0, c, q, hseq, xferUnit_route, Seq.listIssued]
  · intro s u d k due tok hd hpend hfree hlist hheld hbad htok hb hobs hw
    have hpick : ((s.seq u).dmas.any fun e => e.id == d.id && e.list) = true := by simp [hd, hlist]
    refine ⟨_, congrArg Host.Outcome.next (landFirst_dmaEnd hobs hb hw hd hpend hpick hfree hheld hbad htok),
      State.seq_setSeq _ _ _, ?_, fun _ => rfl⟩
    show (s.storeAll d.writes).tokens ++ _ = _
    rw [storeAll_eq]

end Sys2Proof.Machine
end

section
/-! SUPPORT. An event, its message and its counts touch registers of Primrose's window and of the function blocks alone
(R497, R565): every other die's registers stay, whatever observes the device. -/
namespace Sys2Proof.Machine

/-- Where the register window of die 31 begins (R11): the windows of the other dies lie below it. -/
def primroseBase : Nat := winBase + 31 * 0x1000000

/-- The registers of the dies below Primrose hold the same words. -/
def State.sameOuterRegs (s t : State) : Prop := ∀ k < primroseBase, t.regs.find k = s.regs.find k

variable {s t : State}

theorem State.sameOuterRegs.fld (h : s.sameOuterRegs t) {r : RegD} {d : Nat} {ix : List Nat}
    (hk : r.at d ix < primroseBase) (hi lo : Nat) : t.fld r d ix hi lo = s.fld r d ix hi lo := by
  simp only [State.fld, State.reg, h _ hk]

/-- A register that every die has lies in Primrose's window where it is Primrose's. -/
theorem primroseBase_le_at_die {r : RegD} (h : r.kind = .die) (ix : List Nat) : primroseBase ≤ r.at 31 ix := by
  simp only [RegD.at, h]
  exact Nat.le_add_right _ _

theorem primroseBase_le_at_fn {r : RegD} (h : r.kind = .fn) (fn : Nat) (ix : List Nat) : primroseBase ≤ r.at fn ix :=
  Nat.le_trans (by decide) (fnBase_le_at h fn ix)

theorem State.sameOuterRegs.setReg (h : s.sameOuterRegs t) {r : RegD} {d : Nat} {ix : List Nat}
    (hk : primroseBase ≤ r.at d ix) (v : Word) : s.sameOuterRegs (t.setReg r d ix v) := fun k hlt =>
  (Tab.find_put_ne _ _ (Nat.ne_of_lt (Nat.lt_of_lt_of_le hlt hk))).trans (h k hlt)

theorem State.sameOuterRegs.pmuAdd (h : s.sameOuterRegs t) (i n : Nat) : s.sameOuterRegs (t.pmuAdd 31 i n) := by
  have hcount (v : Word) : s.sameOuterRegs (t.setReg R.pmuCnt 31 [i] v) := h.setReg (primroseBase_le_at_die rfl _) v
  unfold State.pmuAdd
  dsimp only
  split
  · exact (hcount _).setReg (primroseBase_le_at_die rfl []) _
  · exact hcount _

theorem State.sameOuterRegs.pmu (h : s.sameOuterRegs t) (code un n : Nat) : s.sameOuterRegs (t.pmu 31 code un n) := by
  unfold State.pmu State.pmuAt
  split
  · exact h
  · split
    · exact h
    · refine List.foldlRecOn _ _ h fun u hu i _ => ?_
      extract_lets pick
      split
      · exact hu.pmuAdd i n
      · exact hu

theorem State.sameOuterRegs.sendMsix (h : s.sameOuterRegs t) (fn vec : Nat) : s.sameOuterRegs (t.sendMsix fn vec) := by
  unfold State.sendMsix
  dsimp only
  split
  · exact h.setReg (primroseBase_le_at_fn rfl fn _) _
  · exact State.sameOuterRegs.pmu (t := { t with msix := t.msix ++ [(fn, vec)] }) h _ _ _

theorem State.sameOuterRegs.putRecord (h : s.sameOuterRegs t) (fn kind die : Nat) (payload : List Byte) (seq : Nat) :
    s.sameOuterRegs (t.putRecord fn kind die payload seq) := by
  have hstored (a : Nat) (l : List Byte) : s.sameOuterRegs (t.hostStore a l) := h
  exact ((hstored _ _).setReg (primroseBase_le_at_fn (r := R.prmEvtStat) rfl fn []) _).pmu 0xA3 0 1

theorem sameOuterRegs_emit (s : State) (part kind die : Nat) (payload : List Byte) :
    s.sameOuterRegs (s.emit part kind die payload) := by
  have hnumbered (ring : EvtRing) : s.sameOuterRegs { s with evt := s.evt.put part ring } := fun _ _ => rfl
  unfold State.emit
  split
  · exact fun _ _ => rfl
  · dsimp only
    split
    · exact (hnumbered _).setReg (primroseBase_le_at_fn rfl part []) _
    · exact ((hnumbered _).putRecord _ _ _ _ _).sendMsix _ _

/-- A STATE event leaves every field of a die below Primrose (R498). -/
theorem fld_stateEvent (s : State) (a old new_ : Nat) {r : RegD} {d : Nat} {ix : List Nat}
    (hk : r.at d ix < primroseBase) (hi lo : Nat) :
    (s.stateEvent a old new_).fld r d ix hi lo = s.fld r d ix hi lo :=
  (sameOuterRegs_emit s 0 evState 0xFF _).fld hk hi lo

theorem reported_stateEvent (s : State) (a old new_ : Nat) : s.reported (s.stateEvent a old new_) :=
  reported_emit s _ _ _ _

theorem State.reported.training (h : s.reported t) : t.training = s.training := by rw [h.eq]

end Sys2Proof.Machine
end

section
/-! SUPPORT. The training of the memories (R240, R591): the device as a training ends, and when the tier is up. -/
namespace Sys2Proof.Machine

variable (s : State)

/-- The state in which the training of die d runs no more. -/
def State.trainingEnded (d : Nat) : State := { s with training := s.training.filter (fun x => x != d) }

theorem not_mem_trainingEnded (d : Nat) : d ∉ (s.trainingEnded d).training := by
  simp [State.trainingEnded]

/-- A stack whose training runs ends it with TRAINED set, or with a STATE event (R591). -/
theorem exec_hbmTrainingDone {die : Nat} (h : die % 16 ∈ s.training) (ok : Bool) :
    exec (.hbmTrainingDone die ok) s = .next (
      if ok then (s.trainingEnded (die % 16)).setFld R.dhlHbmStatus (die % 16) [] 0 0 1
      else (s.trainingEnded (die % 16)).stateEvent (R.dhlHbmStatus.at (die % 16) []) 0 0) := by
  have hrun : (!s.training.contains (die % 16)) = false := by simpa using h
  show execHbmTrainingDone die ok s = _
  simp only [execHbmTrainingDone, hrun]
  cases ok <;> rfl

/-- While the LPDDR5X training runs, its end stores the channels that trained and settles TIER_UP (R240). -/
theorem exec_lpddrTrainingDone (h : 30 ∈ s.training) (mask : Nat) :
    exec (.lpddrTrainingDone mask) s = .next ((s.trainingEnded 30).setFld R.tlpStatus 30 [] 7 0 mask).tierUp := by
  have hrun : (!s.training.contains 30) = false := by simpa using h
  show execLpddrTrainingDone mask s = _
  simp only [execLpddrTrainingDone, hrun]
  rfl

/-- A scrub pass of a trained stack with a period counts (R238). -/
theorem exec_hbmScrubPass {die : Nat} (hp : s.fld R.dhlHbmScrub (die % 16) [] 15 0 ≠ 0)
    (ht : s.fld R.dhlHbmStatus (die % 16) [] 0 0 = 1) :
    exec (.hbmScrubPass die) s = .next (s.setFld R.dhlHbmScrub (die % 16) [] 47 16
      (s.fld R.dhlHbmScrub (die % 16) [] 47 16 + 1)) :=
  if_neg (by omega)

/-- DHL_HBM_STATUS lies below Primrose's window. -/
theorem dhlHbmStatus_at_lt (die : Nat) : R.dhlHbmStatus.at (die % 16) [] < primroseBase := by
  show winBase + die % 16 * 0x1000000 + (0x40000 + 0) < winBase + 31 * 0x1000000
  omega

theorem bitOf_eq_testBit (n i : Nat) : bitOf n i = n.testBit i :=
  (Nat.testBit_eq_decide_div_mod_eq ..).symm

/-- The comparison that TIER_UP makes of two channel masks is inclusion (R240). -/
theorem and_eq_mask_iff {m mask : Nat} (h : mask < 2 ^ 8) :
    m &&& mask = mask ↔ ∀ c < 8, bitOf mask c = true → bitOf m c = true := by
  simp only [bitOf_eq_testBit]
  constructor
  · intro heq c _ hc
    rw [← heq, Nat.testBit_and, Bool.and_eq_true] at hc
    exact hc.1
  · intro hsub
    refine Nat.eq_of_testBit_eq fun c => ?_
    rw [Nat.testBit_and, Bool.and_eq_right_iff_imp]
    intro hc
    have hle : 2 ^ c < 2 ^ 8 := Nat.lt_of_le_of_lt (Nat.ge_two_pow_of_testBit hc) h
    exact hsub c ((Nat.pow_lt_pow_iff_right (by decide)).mp hle) hc

/-- TIER_UP reads 1 exactly where the lock is committed and every channel of CH_MASK trained (R240). -/
theorem fld_tierUp_up : s.tierUp.fld R.tlpStatus 30 [] 8 8 = 1 ↔ s.fld R.tlpCfg 30 [] 8 8 = 1 ∧
    ∀ c < 8, bitOf (s.fld R.tlpCfg 30 [] 7 0) c = true → bitOf (s.fld R.tlpStatus 30 [] 7 0) c = true := by
  have hmask : s.fld R.tlpCfg 30 [] 7 0 < 2 ^ 8 := Nat.mod_lt _ (by decide)
  have hb2n (b : Bool) : b2n b % 2 ^ (8 + 1 - 8) = 1 ↔ b = true := by cases b <;> decide
  unfold State.tierUp
  dsimp only
  rw [fld_setFld_same _ _ _ _ _ _ (by omega), hb2n, Bool.and_eq_true, beq_iff_eq, beq_iff_eq, and_eq_mask_iff hmask]

theorem fld_tierUp_trained : s.tierUp.fld R.tlpStatus 30 [] 7 0 = s.fld R.tlpStatus 30 [] 7 0 :=
  fld_setFld_disjoint _ _ _ _ _ (.inl (by omega))

/-- Settles O36: each command's next state is a register field replaced or a STATE event; the event touches no register of
the stack's die, and TIER_UP compares CH_MASK with the channels that trained. -/
theorem training : Obligations.Training := by
  intro s die mask d
  refine ⟨fun hd => ⟨⟨_, exec_hbmTrainingDone s hd true, ?_⟩, ⟨_, exec_hbmTrainingDone s hd false, ?_⟩⟩,
    fun hp ht => ⟨_, exec_hbmScrubPass s hp ht, ?_⟩, fun h30 hmask => ⟨_, exec_lpddrTrainingDone s h30 mask, ?_⟩⟩
  · exact ⟨fld_setFld_same _ _ _ _ _ _ (by omega), not_mem_trainingEnded s d, rfl, rfl⟩
  · have hrep := reported_stateEvent (s.trainingEnded d) (R.dhlHbmStatus.at d []) 0 0
    refine ⟨fld_stateEvent (s.trainingEnded d) _ 0 0 (dhlHbmStatus_at_lt die) 0 0, ?_, hrep.mem, hrep.seqs⟩
    exact hrep.training ▸ not_mem_trainingEnded s d
  · exact ⟨fld_setFld_same _ _ _ _ _ _ (by omega), fld_setFld_disjoint _ _ _ _ _ (.inl (by omega)), rfl⟩
  · have hcfg (hi lo : Nat) : ((s.trainingEnded 30).setFld R.tlpStatus 30 [] 7 0 mask).fld R.tlpCfg 30 [] hi lo =
        s.fld R.tlpCfg 30 [] hi lo := fld_setReg_ne _ _ _ _ _ _ _ (by decide)
    have htrained : ((s.trainingEnded 30).setFld R.tlpStatus 30 [] 7 0 mask).fld R.tlpStatus 30 [] 7 0 = mask :=
      (fld_setFld_same _ _ _ _ _ _ (by omega)).trans (Nat.mod_eq_of_lt hmask)
    refine ⟨(fld_tierUp_trained _).trans htrained, not_mem_trainingEnded s 30, rfl, ?_⟩
    rw [fld_tierUp_up, hcfg, hcfg, htrained]

end Sys2Proof.Machine
end
